-- ==== Sys2Proof/Word.lean ====
section
/-! DEFINITION. The word types of the W44: bytes of messages and buffers, block masks, event sets. -/

namespace Sys2Proof

/-- One byte: of a message (R205), of a strip buffer (R110), of the field of R157. -/
abbrev Byte := BitVec 8

/-- A block mask in the 64-bit form of R210: block b is in the mask when bit b is set. -/
abbrev Mask := BitVec 64

/-- A set of the eleven events of Table 10-4: event e is bit e (R198, R210). -/
abbrev EventSet := BitVec 11

end Sys2Proof
end

