-- ==== Sys2Proof/Config.lean ====
section
/-! DEFINITION. The free values of the model: what the manual leaves open. Each is an opaque constant applied to a plain
counter of State, so that no proof can lean on a value. -/

namespace Sys2Proof

/-- FREE VALUE (log 4): which of several time events due in the same millisecond is taken first. R152 says that either
may be taken first. The argument counts the free values drawn before. -/
opaque Config.tieChoice : Nat → Nat

/-- FREE VALUE (log 8): the stripe field of the answer to a route request whose kind is none of the three. R208 gives the
field for QUERY, CLAIM and RELEASE only. -/
opaque Config.unknownKindStripe : Nat → BitVec 32

end Sys2Proof
end

