-- ==== Sys2Proof/Messages.lean ====
section
/-! DEFINITION. The messages that enter the W44 through its three ports, as the sender lays them out (R205, R207, R209). -/

namespace Sys2Proof

/-- A command message as read from its bytes (R205): the tag, the opcode and the parameter bytes, as many as byte 3 of the
header gives. -/
structure CommandMessage where
  tag : BitVec 16
  opcode : Byte
  params : List Byte
  deriving DecidableEq, Repr

/-- One element of SET_SEGMENTS (R205): a base in bytes 0 to 5, a kind in byte 6 (0 base, 1 UNSET), byte 7 not read. -/
structure SegmentElement where
  base : BitVec 48
  kind : Byte
  unread : Byte
  deriving DecidableEq, Repr

/-- A route request as read from its bytes (R207): header bytes 0 to 3, the first stripe, and the listed stripes of a
RELEASE. -/
structure RouteRequest where
  kind : Byte
  tag : Byte
  count : Byte
  overCount : Byte
  first : BitVec 32
  listed : List (BitVec 32)
  deriving DecidableEq, Repr

/-- A completion as read from its 11 bytes (R209). -/
structure Completion where
  tag : Byte
  status : Byte
  position : Byte
  mask : Mask
  deriving DecidableEq, Repr

end Sys2Proof
end

