-- ==== Sys2Proof/Syntax.lean ====
section
/-! DEFINITION. The commands of the W44: one constructor for each row of spec/opcode_table.json. The three rows of a port
that take any message carry its bytes (R205, R207, R209). A row of one host command carries its tag and its parameters in the
widths of Table 10-3; a row of one route request the fields of R207. -/

namespace Sys2Proof

/-- The 39 operations and events of the part. -/
inductive Instr where
  /-- POWER_ON_RESET (R204). -/
  | powerOnReset
  /-- COMMAND_ARRIVAL (R191): any command message arrives from the host, as the bytes of R205. -/
  | commandArrival (message : List Byte)
  /-- RESPONSE_READ (R193). -/
  | responseRead
  /-- UNKNOWN_COMMAND (R194): a command whose opcode is none of the 24. -/
  | unknownCommand (tag : BitVec 16) (opcode : Byte) (params : List Byte)
  /-- SET_GEOMETRY (R2, R3). -/
  | setGeometry (tag : BitVec 16) (n l : Byte) (t rs : BitVec 32) (k : Byte)
  /-- SET_SEGMENTS (R8, R10). -/
  | setSegments (tag : BitVec 16) (position first : Byte) (elements : List SegmentElement)
  /-- OPEN_SESSION (R21, R22). -/
  | openSession (tag : BitVec 16) (f b lanes fill : Byte) (startRegion : BitVec 16) (aq : BitVec 48) (kq skipQual : Byte)
  /-- START (R29). -/
  | start (tag : BitVec 16)
  /-- PAUSE (R31). -/
  | pause (tag : BitVec 16)
  /-- RESUME (R32). -/
  | resume (tag : BitVec 16)
  /-- STEP (R33). -/
  | step (tag : BitVec 16)
  /-- ABORT (R39). -/
  | abort (tag : BitVec 16)
  /-- CLOSE_SESSION (R41). -/
  | closeSession (tag : BitVec 16)
  /-- PROMOTE (R48). -/
  | promote (tag : BitVec 16) (region : BitVec 16)
  /-- DEMOTE (R49). -/
  | demote (tag : BitVec 16) (region : BitVec 16)
  /-- MEMBER_DOWN (R36). -/
  | memberDown (tag : BitVec 16) (position : Byte)
  /-- SET_PACE (R141). -/
  | setPace (tag : BitVec 16) (w : Byte) (window : BitVec 16)
  /-- SET_TIMEOUT (R151). -/
  | setTimeout (tag : BitVec 16) (ms : BitVec 16)
  /-- SET_HEAT (R54). -/
  | setHeat (tag : BitVec 16) (h : BitVec 16)
  /-- SET_LANES (R130). -/
  | setLanes (tag : BitVec 16) (count : Byte)
  /-- SET_CHECK (R173). -/
  | setCheck (tag : BitVec 16) (setting : Byte)
  /-- SET_EVENT_ENABLES (R198). -/
  | setEventEnables (tag : BitVec 16) (events : BitVec 16)
  /-- ACK_EVENTS (R200). -/
  | ackEvents (tag : BitVec 16) (events : BitVec 16)
  /-- GET_STATUS (R196). -/
  | getStatus (tag : BitVec 16)
  /-- GET_REGION (R51). -/
  | getRegion (tag : BitVec 16) (region : BitVec 16)
  /-- LIST_RECORDS (R185). -/
  | listRecords (tag : BitVec 16) (first : BitVec 32) (maxCount : Byte)
  /-- FORGIVE (R181, R182). -/
  | forgive (tag : BitVec 16) (stripe : BitVec 32)
  /-- RESET_ENGINE (R202). -/
  | resetEngine (tag : BitVec 16)
  /-- ROUTE_REQUEST_ARRIVAL (R70): any route request arrives from the front path, as the bytes of R207. -/
  | routeRequestArrival (message : List Byte)
  /-- ANSWER_READ (R72). -/
  | answerRead
  /-- QUERY (R75). -/
  | query (tag count : Byte) (first : BitVec 32)
  /-- CLAIM (R93). -/
  | claim (tag count : Byte) (first : BitVec 32)
  /-- RELEASE (R97). -/
  | release (tag : Byte) (overwritten : List (BitVec 32))
  /-- UNKNOWN_ROUTE_KIND (R207): a route request whose kind is none of the three. -/
  | unknownRouteKind (request : RouteRequest)
  /-- COMPLETION (R142): the 11 bytes of R209, its first three and the eight of the mask field, with the bytes the channel side
  has placed in the request's block range (R143), from the range's first byte on. -/
  | completion (tag status position : Byte) (mask data : List Byte)
  /-- RCD_TAKE_BLOCK (R161): RCD takes the next block of the lane's batch. -/
  | rcdTakeBlock (lane : Fin 4)
  /-- PACING_EXPIRY (R140): the position's pacing expiry is reached. -/
  | pacingExpiry (position : Fin 16)
  /-- TIMEOUT (R149): the deadline of the OUTSTANDING request with this tag is reached. -/
  | timeout (tag : Byte)
  /-- QUARANTINE_END (R152): the deadline of the QUARANTINED request with this tag is reached. -/
  | quarantineEnd (tag : Byte)
  deriving DecidableEq, Repr

end Sys2Proof
end

