-- ==== Sys2Proof/Machine/State.lean ====
section
/-! DEFINITION. The state of the W44 as plain data, block by block as Table 0-2 divides it, the reasons a step can stop, and
the state after power-on reset (R204). -/

namespace Sys2Proof.Machine

/-! ## MGP (chapter 10) -/

/-- Result codes of Table 10-1. -/
inductive ResultCode where
  | done | refusedState | refusedRange | refusedBusy | incomplete | overlap | unknownCommand
  deriving DecidableEq, Repr

/-- Reasons of a REFUSED_STATE response (R195). -/
inductive Reason where
  | none | session | notStale
  deriving DecidableEq, Repr

/-- What a command's governing rule decides: the response less its tag (R195, R206). -/
structure Reply where
  code : ResultCode
  reason : Reason
  payload : List Byte
  deriving DecidableEq, Repr

/-- A response in the response queue (R192, R206). -/
structure Response where
  tag : BitVec 16
  reply : Reply
  deriving DecidableEq, Repr

/-- MGP's state (R190). -/
structure Mgp where
  commands : List CommandMessage
  responses : List Response
  status : EventSet
  enables : EventSet
  line : Bool
  deriving DecidableEq, Repr

/-! ## GEO (chapter 1) -/

/-- The geometry profile (Table 1-1). -/
structure Profile where
  n : Nat
  l : Nat
  t : Nat
  rs : Nat
  k : Nat
  deriving DecidableEq, Repr

/-- GEO's state (R1, R7): the profile, unset or set, and 16 rows of 16 segment entries. -/
structure Geo where
  profile : Option Profile
  segments : List (List (Option Nat))
  deriving DecidableEq, Repr

/-! ## SES (chapter 2) -/

/-- Session states of Table 2-2. -/
inductive SessionState where
  | absent | qualifying | ready | running | suspended | draining | paused | stepping | complete | failed | broken
  deriving DecidableEq, Repr

/-- Causes of Table 2-1. -/
inductive Cause where
  | none | qualMismatch | spareLost | spareUnwritable | hostAbort | tooManyFaults
  deriving DecidableEq, Repr

/-- Member roles of R35. -/
inductive MemberRole where
  | spare | survivor | faulted
  deriving DecidableEq, Repr

/-- Fill kinds of R172. -/
inductive FillKind where
  | zero | marked
  deriving DecidableEq, Repr

/-- Phases of a qualification attempt (Table 2-1). -/
inductive QualPhase where
  | buffers | writing | reading
  deriving DecidableEq, Repr

/-- A qualification step held back until a quarantined buffer is free of its quarantines (R23; log 13): the fill and write
of an attempt, or its read. -/
inductive HeldStep where
  | none | fill | read
  deriving DecidableEq, Repr

/-- Qualification progress (Table 2-1). -/
structure QualProgress where
  strip : Nat
  attempt : Nat
  phase : QualPhase
  held : HeldStep
  deriving DecidableEq, Repr

/-- A strip buffer number, 0 to 127 (R110). -/
abbrev BufId := Fin 128

/-- The session record (Table 2-1) and the qualification set (R110). -/
structure Ses where
  state : SessionState
  cause : Cause
  failedPos : Option Nat
  roles : List MemberRole
  faultedSurvivor : Option Nat
  batchSize : Option Nat
  laneCount : Nat
  fillKind : Option FillKind
  qualArea : Option (Nat × Nat)
  qualProgress : Option QualProgress
  qualSet : List BufId
  deriving DecidableEq, Repr

/-! ## RGT (chapter 3) -/

/-- Region states of R46. -/
inductive RegionState where
  | stale | active | rebuilt
  deriving DecidableEq, Repr

/-- The region record (Table 3-1). -/
structure Region where
  state : RegionState
  stripeCount : Nat
  issueMark : Nat
  heat : Nat
  recordCount : Nat
  activation : Option Nat
  deriving DecidableEq, Repr

/-- RGT's state (R43) and the heat threshold H (R54). -/
structure Rgt where
  regions : List Region
  queue : List Nat
  nextActivation : Option Nat
  rebuiltRegions : Option Nat
  rebuiltStripes : Option Nat
  heatThreshold : Nat
  deriving DecidableEq, Repr

/-! ## RTU (chapter 4) -/

/-- Dispositions of R76. -/
inductive Disposition where
  | current | stale | locked | lost | suspect
  deriving DecidableEq, Repr

/-- A disposition entry (R76, R208): both masks are empty where the entry carries none. -/
structure DispositionEntry where
  disposition : Disposition
  lost : Mask
  suspect : Mask
  deriving DecidableEq, Repr

/-- Route answer statuses of Table 4-1. -/
inductive RouteStatus where
  | reported | granted | released | withdrawn | unknownTag | range | tagInUse | busy | noSession | spareVoid
  deriving DecidableEq, Repr

/-- A route answer (R208). -/
structure Answer where
  tag : Byte
  kind : Byte
  status : RouteStatus
  number : Nat
  stripe : Nat
  entries : List DispositionEntry
  deriving DecidableEq, Repr

/-- RTU's state (R69). -/
structure Rtu where
  requests : List RouteRequest
  answers : List Answer
  reservations : Nat
  deriving DecidableEq, Repr

/-! ## SLK (chapter 5) -/

/-- The owner of a lock entry (Table 5-1). The owner decides the kind (R87): REBUILD for a lane, WRITE for a claim. -/
inductive LockOwner where
  | lane (n : Fin 4)
  | claim (tag : Byte)
  deriving DecidableEq, Repr

/-- A lock entry or a lock request (Table 5-1). -/
structure LockEntry where
  owner : LockOwner
  first : Nat
  count : Nat
  deriving DecidableEq, Repr

/-- SLK's state (R86). -/
structure Slk where
  held : List LockEntry
  waiting : List LockEntry
  deriving DecidableEq, Repr

/-! ## Lanes (chapter 6) -/

/-- Lane states of Table 6-1. -/
inductive LaneStage where
  | idle | buffering | locking | reading | solving | writing | settling | holding
  deriving DecidableEq, Repr

/-- Last outcomes of Table 6-1. -/
inductive LaneOutcome where
  | none | clean | recorded | abandoned
  deriving DecidableEq, Repr

/-- A lane's batch: region, first stripe and length (R59). -/
structure Batch where
  region : Nat
  first : Nat
  length : Nat
  deriving DecidableEq, Repr

/-- Read statuses of Table 6-1; `part` is PARTIAL with its block mask. -/
inductive ReadStatus where
  | excluded | pending | good | part (mask : Mask) | missing
  deriving DecidableEq, Repr

/-- One entry of the read record. While the status is PENDING the other fields hold how many of the strip's requests have
not settled and what the settled ones said (R118; log 12). -/
structure ReadCell where
  status : ReadStatus
  left : Nat
  sawMissing : Bool
  sawMask : Mask
  deriving DecidableEq, Repr

/-- One stripe's results (Table 6-1). -/
structure StripeResult where
  lost : Mask
  suspect : Mask
  contributors : List Nat
  deriving DecidableEq, Repr

/-- The lane record (Table 6-1); the lane number is the record's place. -/
structure Lane where
  stage : LaneStage
  batch : Option Batch
  bufs : List BufId
  reads : List (List ReadCell)
  results : List StripeResult
  offers : List Nat
  outstanding : Nat
  outcome : LaneOutcome
  deriving DecidableEq, Repr

/-! ## SBP (section 6.2) -/

/-- The owner of a buffer set or of a member request (R110, Table 7-1). -/
inductive Owner where
  | lane (n : Fin 4)
  | qualification
  deriving DecidableEq, Repr

/-- A buffer request on the wait list (R110). -/
structure BufRequest where
  owner : Owner
  size : Nat
  deriving DecidableEq, Repr

/-- SBP's state (R110). The owners' sets are kept by the owners. -/
structure Sbp where
  free : List BufId
  quarantineHold : List BufId
  waiting : List BufRequest
  deriving DecidableEq, Repr

/-! ## MRU (chapter 7) -/

/-- Kinds of member requests (Table 7-1). -/
inductive RequestKind where
  | read | write | qwrite | qread
  deriving DecidableEq, Repr

/-- The member request record (Table 7-1). Its state is the list that holds it (log 15): an issue queue (QUEUED), an
outstanding set (OUTSTANDING) or `Mru.quarantined` (QUARANTINED). -/
structure Request where
  tag : Option Nat
  position : Nat
  kind : RequestKind
  address : Nat
  blocks : Nat
  buf : BufId
  firstBlock : Nat
  owner : Option Owner
  defers : Nat
  rewritten : Bool
  deadline : Option Nat
  deriving DecidableEq, Repr

/-- MRU's state for one position (Table 7-2) and its pacing expiry (R140). The pacing history is newest first. -/
structure PosState where
  queue : List Request
  outstanding : List Request
  history : List Nat
  timeouts : Nat
  expiry : Option Nat
  deriving DecidableEq, Repr

/-- MRU's state (chapter 7): 16 positions, the quarantined requests, the tag wait order and the settings. -/
structure Mru where
  positions : List PosState
  quarantined : List Request
  tagWait : List Nat
  paceLimit : Nat
  paceWindow : Nat
  timeout : Nat
  deriving DecidableEq, Repr

/-! ## RCD (chapter 8) -/

/-- A solve context (R161): the place of the next stripe in the batch, the next block, and each stripe's results so far. -/
structure SolveContext where
  stripe : Nat
  block : Nat
  results : List StripeResult
  deriving DecidableEq, Repr

/-- RCD's state (R161, R173). -/
structure Rcd where
  contexts : Vector (Option SolveContext) 4
  check : Bool
  deriving DecidableEq, Repr

/-! ## LRL (chapter 9) -/

/-- A record (Table 9-1); the contributors are absent exactly when the list is empty (R175). -/
structure Record where
  stripe : Nat
  lost : Mask
  suspect : Mask
  contributors : List Nat
  deriving DecidableEq, Repr

/-- LRL's state (R174). -/
structure Lrl where
  records : List Record
  deriving DecidableEq, Repr

/-! ## The buffer memory -/

/-- The attached buffer memory (R110): the bytes that are not 0x00, by rising address (log 5). -/
abbrev Memory := List Host.Cell

/-! ## The whole part -/

/-- A message that leaves the part through one of its ports (R206, R208, R209). -/
inductive Output where
  | response (bytes : List Byte)
  | answer (bytes : List Byte)
  | memberRequest (bytes : List Byte)
  deriving DecidableEq, Repr

/-- The state of the part. `now` is the present time in milliseconds (R138). `sent`, `freeCount` and `pending` are the
model's own: the messages that left the part at the latest event (log 7), how many free values have been drawn (log 4,
log 8), and the commands waiting to be taken, first in, first out. -/
structure State where
  mgp : Mgp
  geo : Geo
  ses : Ses
  rgt : Rgt
  rtu : Rtu
  slk : Slk
  lanes : Vector Lane 4
  holdingOrder : List (Fin 4)
  sbp : Sbp
  mru : Mru
  rcd : Rcd
  lrl : Lrl
  mem : Memory
  now : Nat
  sent : List Output
  freeCount : Nat
  pending : List Instr
  deriving DecidableEq, Repr

/-- Reasons a step ends in a fault: none. The manual describes no event that stops the part: a wrong command is answered,
a wrong completion discarded, a failing member ends the session. -/
inductive Fault where
  deriving DecidableEq, Repr

/-- Reasons a step is refused. -/
inductive Refusal where
  /-- Raised by exec for a command that has no meaning yet, with its mnemonic. Safe: the model stops where the part goes
  on. -/
  | notModelled (mnemonic : String)
  deriving DecidableEq, Repr

/-! ## Reset values -/

/-- A lane after power-on reset: IDLE with last outcome NONE (R108). -/
def Lane.reset : Lane :=
  { stage := .idle, batch := none, bufs := [], reads := [], results := [], offers := [], outstanding := 0, outcome := .none }

/-- A position of MRU after power-on reset (Table 7-2). -/
def PosState.reset : PosState :=
  { queue := [], outstanding := [], history := [], timeouts := 0, expiry := none }

/-- MGP after power-on reset (R190). -/
def Mgp.reset : Mgp := { commands := [], responses := [], status := 0, enables := 0, line := false }

/-- A segment table with every entry unset (R7). -/
def Geo.unsetSegments : List (List (Option Nat)) := List.replicate 16 (List.replicate 16 none)

/-- GEO after power-on reset (Table 1-5). -/
def Geo.reset : Geo := { profile := none, segments := Geo.unsetSegments }

/-- The session record in ABSENT with the lane count kept (Table 2-1, R41, R42). -/
def Ses.absent (laneCount : Nat) : Ses :=
  { state := .absent, cause := .none, failedPos := none, roles := [], faultedSurvivor := none, batchSize := none,
    laneCount := laneCount, fillKind := none, qualArea := none, qualProgress := none, qualSet := [] }

/-- RGT with no table, and H kept (R43, R54). -/
def Rgt.empty (heatThreshold : Nat) : Rgt :=
  { regions := [], queue := [], nextActivation := none, rebuiltRegions := none, rebuiltStripes := none,
    heatThreshold := heatThreshold }

/-- RTU after power-on reset and after RESET_ENGINE (R69, R83). -/
def Rtu.reset : Rtu := { requests := [], answers := [], reservations := 0 }

/-- SLK after power-on reset (R86). -/
def Slk.reset : Slk := { held := [], waiting := [] }

/-- SBP after power-on reset: every buffer is free (R110). -/
def Sbp.reset : Sbp := { free := List.finRange 128, quarantineHold := [], waiting := [] }

/-- MRU after power-on reset (R134, Table 7-2, R141, R151). -/
def Mru.reset : Mru :=
  { positions := List.replicate 16 PosState.reset, quarantined := [], tagWait := [], paceLimit := 8, paceWindow := 20,
    timeout := 8000 }

/-- RCD after power-on reset (R161, R173). -/
def Rcd.reset : Rcd := { contexts := Vector.replicate 4 none, check := true }

/-- The part after power-on reset (R204), with an empty queue of commands. -/
def State.reset : State :=
  { mgp := Mgp.reset, geo := Geo.reset, ses := Ses.absent 4, rgt := Rgt.empty 32, rtu := Rtu.reset, slk := Slk.reset,
    lanes := Vector.replicate 4 Lane.reset, holdingOrder := [], sbp := Sbp.reset, mru := Mru.reset, rcd := Rcd.reset,
    lrl := { records := [] }, mem := [], now := 0, sent := [], freeCount := 0, pending := [] }

end Sys2Proof.Machine
end

