-- ==== Sys2Proof/Machine/Flags.lean ====
section
/-! DEFINITION. The events of Table 10-4, the event status and enable sets, and the event line that follows them (R198 to
R201). -/

namespace Sys2Proof.Machine

/-- The eleven events of Table 10-4. -/
inductive Event where
  | stateChange | qualDone | rebuildComplete | recordAdded | listFull | memberFaulted | memberTimeout | stepDone
  | commandOverrun | routeOverrun | engineReset
  deriving DecidableEq, Repr

/-- The event's number in Table 10-4. -/
def Event.number : Event → Nat
  | .stateChange => 0
  | .qualDone => 1
  | .rebuildComplete => 2
  | .recordAdded => 3
  | .listFull => 4
  | .memberFaulted => 5
  | .memberTimeout => 6
  | .stepDone => 7
  | .commandOverrun => 8
  | .routeOverrun => 9
  | .engineReset => 10

/-- The set that holds the event alone (R210). -/
def Event.bit (e : Event) : EventSet := BitVec.twoPow 11 e.number

/-- An event set as received in a 16-bit field: bits 11 to 15 are not read (R210). -/
def eventSetOf (v : Nat) : EventSet := BitVec.ofNat 11 v

/-- The line is asserted while the two sets have a member in common (R199). -/
def Mgp.followLine (m : Mgp) : Mgp := { m with line := (m.status &&& m.enables) != 0 }

/-- An event joins the status set (R198). -/
def Mgp.setEvent (e : Event) (m : Mgp) : Mgp := ({ m with status := m.status ||| e.bit }).followLine

/-- The named events leave the status set (R200). -/
def Mgp.ackEvents (events : EventSet) (m : Mgp) : Mgp := ({ m with status := m.status &&& ~~~events }).followLine

/-- The enable set is replaced whole (R198). -/
def Mgp.setEnables (events : EventSet) (m : Mgp) : Mgp := ({ m with enables := events }).followLine

/-- The status set is emptied and then holds the event alone (R202). -/
def Mgp.onlyEvent (e : Event) (m : Mgp) : Mgp := ({ m with status := e.bit }).followLine

/-- A block sets an event at MGP's status set (R201). -/
def State.setEvent (e : Event) (s : State) : State := { s with mgp := s.mgp.setEvent e }

/-- A change of the session state sets STATE_CHANGE (R20). -/
def State.changeState (new : SessionState) (s : State) : State :=
  ({ s with ses := { s.ses with state := new } }).setEvent .stateChange

end Sys2Proof.Machine
end

