-- ==== Sys2Proof/Machine/Operands.lean ====
section
/-! DEFINITION. The layouts of the messages (section 10.6): byte order, the messages read from their bytes, the
parameters of the 24 commands read from a message and written into one, the codes of Table 10-8, and the messages the part sends. -/

namespace Sys2Proof.Machine

/-! ## Byte order (R205) -/

/-- `v` in `w` bytes, the least significant first. -/
def leBytes : Nat → Nat → List Byte
  | 0, _ => []
  | w + 1, v => BitVec.ofNat 8 v :: leBytes w (v / 256)

/-- The number that bytes hold, the least significant first. -/
def leNat : List Byte → Nat
  | [] => 0
  | b :: rest => b.toNat + 256 * leNat rest

/-- The field of `w` bytes at offset `o`. -/
def fieldAt (bytes : List Byte) (o w : Nat) : Nat := leNat ((bytes.drop o).take w)

/-- A field that may be absent: all ones where it is (R211). -/
def leOption (w : Nat) : Option Nat → List Byte
  | none => List.replicate w 0xFF
  | some v => leBytes w v

/-- A block mask in its 8 bytes (R210). -/
def maskBytes (m : Mask) : List Byte := leBytes 8 m.toNat

/-- An event set in its 2 bytes (R210). -/
def eventBytes (e : EventSet) : List Byte := leBytes 2 e.toNat

/-! ## The messages that arrive (R205, R207, R209)

Bytes that are no whole message of their port read as none: no message has arrived (log 19). -/

/-- A command message read from its bytes: the header of 4, and the parameters that byte 3 counts (R205). -/
def CommandMessage.read : List Byte → Option CommandMessage
  | t0 :: t1 :: opcode :: length :: params =>
    if params.length = length.toNat then
      some { tag := BitVec.ofNat 16 (leNat [t0, t1]), opcode := opcode, params := params }
    else none
  | _ => none

/-- Stripe numbers of 4 bytes each (R207). -/
def readStripes : List Byte → List (BitVec 32)
  | b0 :: b1 :: b2 :: b3 :: rest => BitVec.ofNat 32 (leNat [b0, b1, b2, b3]) :: readStripes rest
  | _ => []

/-- The list bytes that follow the header of a route request: 4 for each stripe of a RELEASE, none otherwise (R207). -/
def listBytes (kind overCount : Byte) : Nat := if kind = 3 then 4 * overCount.toNat else 0

/-- A route request read from its bytes: the header of 8, and the overwritten list of a RELEASE (R207). -/
def RouteRequest.read : List Byte → Option RouteRequest
  | kind :: tag :: count :: overs :: f0 :: f1 :: f2 :: f3 :: list =>
    if list.length = listBytes kind overs then
      some { kind := kind, tag := tag, count := count, overCount := overs, first := BitVec.ofNat 32 (leNat [f0, f1, f2, f3]),
             listed := readStripes list }
    else none
  | _ => none

/-- A completion read from its 11 bytes, the mask in bytes 3 to 10 (R209, R210). -/
def Completion.read : List Byte → Option Completion
  | tag :: status :: position :: mask =>
    if mask.length = 8 then
      some { tag := tag, status := status, position := position, mask := BitVec.ofNat 64 (leNat mask) }
    else none
  | _ => none

/-! ## The commands of Table 10-2 and their parameters (Table 10-3) -/

/-- A decoded command: one constructor for each code of Table 10-2, with its parameters as numbers. -/
inductive HostCommand where
  | setGeometry (n l t rs k : Nat)
  | setSegments (position first : Nat) (elements : List SegmentElement)
  | openSession (f b lanes fill startRegion aq kq skipQual : Nat)
  | start
  | pause
  | resume
  | step
  | abort
  | closeSession
  | promote (region : Nat)
  | demote (region : Nat)
  | memberDown (position : Nat)
  | setPace (w window : Nat)
  | setTimeout (ms : Nat)
  | setHeat (h : Nat)
  | setLanes (count : Nat)
  | setCheck (setting : Nat)
  | setEventEnables (events : Nat)
  | ackEvents (events : Nat)
  | getStatus
  | getRegion (region : Nat)
  | listRecords (first maxCount : Nat)
  | forgive (stripe : Nat)
  | resetEngine
  deriving DecidableEq, Repr

/-- What R194 decides of a message. -/
inductive Decoded where
  | unknown
  | badLength
  | command (c : HostCommand)
  deriving DecidableEq, Repr

/-- The elements of SET_SEGMENTS, 8 bytes each (R205). -/
def decodeElements : List Byte → List SegmentElement
  | b0 :: b1 :: b2 :: b3 :: b4 :: b5 :: kind :: unread :: rest =>
    { base := BitVec.ofNat 48 (leNat [b0, b1, b2, b3, b4, b5]), kind := kind, unread := unread } :: decodeElements rest
  | _ => []

/-- One element in its 8 bytes. -/
def elementBytes (e : SegmentElement) : List Byte := leBytes 6 e.base.toNat ++ [e.kind, e.unread]

/-- A command whose parameters have a fixed length (check 2 of R194). -/
def withLength (length : Nat) (p : List Byte) (c : HostCommand) : Decoded :=
  if p.length = length then .command c else .badLength

/-- The checks of R194: the opcode, then the parameter length. -/
def decodeCommand (opcode : Byte) (p : List Byte) : Decoded :=
  match opcode.toNat with
  | 0x01 => withLength 11 p (.setGeometry (fieldAt p 0 1) (fieldAt p 1 1) (fieldAt p 2 4) (fieldAt p 6 4) (fieldAt p 10 1))
  | 0x02 =>
    if 3 ≤ p.length ∧ p.length = 3 + 8 * fieldAt p 2 1 ∧ p.length ≤ 255 then
      .command (.setSegments (fieldAt p 0 1) (fieldAt p 1 1) (decodeElements (p.drop 3)))
    else .badLength
  | 0x03 => withLength 14 p (.openSession (fieldAt p 0 1) (fieldAt p 1 1) (fieldAt p 2 1) (fieldAt p 3 1) (fieldAt p 4 2)
      (fieldAt p 6 6) (fieldAt p 12 1) (fieldAt p 13 1))
  | 0x04 => withLength 0 p .start
  | 0x05 => withLength 0 p .pause
  | 0x06 => withLength 0 p .resume
  | 0x07 => withLength 0 p .step
  | 0x08 => withLength 0 p .abort
  | 0x09 => withLength 0 p .closeSession
  | 0x0A => withLength 2 p (.promote (fieldAt p 0 2))
  | 0x0B => withLength 2 p (.demote (fieldAt p 0 2))
  | 0x0C => withLength 1 p (.memberDown (fieldAt p 0 1))
  | 0x0D => withLength 3 p (.setPace (fieldAt p 0 1) (fieldAt p 1 2))
  | 0x0E => withLength 2 p (.setTimeout (fieldAt p 0 2))
  | 0x0F => withLength 2 p (.setHeat (fieldAt p 0 2))
  | 0x10 => withLength 1 p (.setLanes (fieldAt p 0 1))
  | 0x11 => withLength 1 p (.setCheck (fieldAt p 0 1))
  | 0x12 => withLength 2 p (.setEventEnables (fieldAt p 0 2))
  | 0x13 => withLength 2 p (.ackEvents (fieldAt p 0 2))
  | 0x14 => withLength 0 p .getStatus
  | 0x15 => withLength 2 p (.getRegion (fieldAt p 0 2))
  | 0x16 => withLength 5 p (.listRecords (fieldAt p 0 4) (fieldAt p 4 1))
  | 0x17 => withLength 4 p (.forgive (fieldAt p 0 4))
  | 0x18 => withLength 0 p .resetEngine
  | _ => .unknown

/-- The command's code (Table 10-2). -/
def HostCommand.opcode : HostCommand → Byte
  | .setGeometry _ _ _ _ _ => 0x01
  | .setSegments _ _ _ => 0x02
  | .openSession _ _ _ _ _ _ _ _ => 0x03
  | .start => 0x04
  | .pause => 0x05
  | .resume => 0x06
  | .step => 0x07
  | .abort => 0x08
  | .closeSession => 0x09
  | .promote _ => 0x0A
  | .demote _ => 0x0B
  | .memberDown _ => 0x0C
  | .setPace _ _ => 0x0D
  | .setTimeout _ => 0x0E
  | .setHeat _ => 0x0F
  | .setLanes _ => 0x10
  | .setCheck _ => 0x11
  | .setEventEnables _ => 0x12
  | .ackEvents _ => 0x13
  | .getStatus => 0x14
  | .getRegion _ => 0x15
  | .listRecords _ _ => 0x16
  | .forgive _ => 0x17
  | .resetEngine => 0x18

/-- The command's parameter bytes (Table 10-3). -/
def HostCommand.params : HostCommand → List Byte
  | .setGeometry n l t rs k => leBytes 1 n ++ leBytes 1 l ++ leBytes 4 t ++ leBytes 4 rs ++ leBytes 1 k
  | .setSegments position first elements =>
    leBytes 1 position ++ leBytes 1 first ++ leBytes 1 elements.length ++ elements.flatMap elementBytes
  | .openSession f b lanes fill startRegion aq kq skipQual =>
    leBytes 1 f ++ leBytes 1 b ++ leBytes 1 lanes ++ leBytes 1 fill ++ leBytes 2 startRegion ++ leBytes 6 aq ++ leBytes 1 kq ++
      leBytes 1 skipQual
  | .start => []
  | .pause => []
  | .resume => []
  | .step => []
  | .abort => []
  | .closeSession => []
  | .promote region => leBytes 2 region
  | .demote region => leBytes 2 region
  | .memberDown position => leBytes 1 position
  | .setPace w window => leBytes 1 w ++ leBytes 2 window
  | .setTimeout ms => leBytes 2 ms
  | .setHeat h => leBytes 2 h
  | .setLanes count => leBytes 1 count
  | .setCheck setting => leBytes 1 setting
  | .setEventEnables events => leBytes 2 events
  | .ackEvents events => leBytes 2 events
  | .getStatus => []
  | .getRegion region => leBytes 2 region
  | .listRecords first maxCount => leBytes 4 first ++ leBytes 1 maxCount
  | .forgive stripe => leBytes 4 stripe
  | .resetEngine => []

/-- The message that carries the command (R205). -/
def HostCommand.message (tag : BitVec 16) (c : HostCommand) : CommandMessage :=
  { tag := tag, opcode := c.opcode, params := c.params }

/-- Every parameter fits the width Table 10-3 gives it. -/
def HostCommand.fits : HostCommand → Prop
  | .setGeometry n l t rs k => n < 2 ^ 8 ∧ l < 2 ^ 8 ∧ t < 2 ^ 32 ∧ rs < 2 ^ 32 ∧ k < 2 ^ 8
  | .setSegments position first elements => position < 2 ^ 8 ∧ first < 2 ^ 8 ∧ elements.length ≤ 31
  | .openSession f b lanes fill startRegion aq kq skipQual =>
    f < 2 ^ 8 ∧ b < 2 ^ 8 ∧ lanes < 2 ^ 8 ∧ fill < 2 ^ 8 ∧ startRegion < 2 ^ 16 ∧ aq < 2 ^ 48 ∧ kq < 2 ^ 8 ∧ skipQual < 2 ^ 8
  | .start => True
  | .pause => True
  | .resume => True
  | .step => True
  | .abort => True
  | .closeSession => True
  | .promote region => region < 2 ^ 16
  | .demote region => region < 2 ^ 16
  | .memberDown position => position < 2 ^ 8
  | .setPace w window => w < 2 ^ 8 ∧ window < 2 ^ 16
  | .setTimeout ms => ms < 2 ^ 16
  | .setHeat h => h < 2 ^ 16
  | .setLanes count => count < 2 ^ 8
  | .setCheck setting => setting < 2 ^ 8
  | .setEventEnables events => events < 2 ^ 16
  | .ackEvents events => events < 2 ^ 16
  | .getStatus => True
  | .getRegion region => region < 2 ^ 16
  | .listRecords first maxCount => first < 2 ^ 32 ∧ maxCount < 2 ^ 8
  | .forgive stripe => stripe < 2 ^ 32
  | .resetEngine => True

/-! ## Replies (R195, R206) -/

/-- DONE with a payload. -/
def Reply.done (payload : List Byte) : Reply := { code := .done, reason := .none, payload := payload }

/-- A refusal other than REFUSED_STATE: reason NONE and an empty payload. -/
def Reply.refuse (code : ResultCode) : Reply := { code := code, reason := .none, payload := [] }

/-- REFUSED_STATE with reason SESSION. -/
def Reply.refusedState : Reply := { code := .refusedState, reason := .session, payload := [] }

/-- REFUSED_STATE with reason NOT_STALE. -/
def Reply.notStale : Reply := { code := .refusedState, reason := .notStale, payload := [] }

/-- Result codes of R206. -/
def ResultCode.toNat : ResultCode → Nat
  | .done => 0x01
  | .refusedState => 0x02
  | .refusedRange => 0x03
  | .refusedBusy => 0x04
  | .incomplete => 0x05
  | .overlap => 0x06
  | .unknownCommand => 0x07

/-- Reasons of R206. -/
def Reason.toNat : Reason → Nat
  | .none => 0x00
  | .session => 0x01
  | .notStale => 0x02

/-- A response message (R206). -/
def Response.bytes (r : Response) : List Byte :=
  leBytes 2 r.tag.toNat ++ leBytes 1 r.reply.code.toNat ++ leBytes 1 r.reply.reason.toNat ++
    leBytes 2 r.reply.payload.length ++ r.reply.payload

/-- The empty indication of a read of an empty response queue (R193, R206). -/
def emptyResponse : List Byte := List.replicate 6 0

/-! ## Codes of Table 10-8 -/

def SessionState.toNat : SessionState → Nat
  | .absent => 0x00
  | .qualifying => 0x01
  | .ready => 0x02
  | .running => 0x03
  | .suspended => 0x04
  | .draining => 0x05
  | .paused => 0x06
  | .stepping => 0x07
  | .complete => 0x08
  | .failed => 0x09
  | .broken => 0x0A

def Cause.toNat : Cause → Nat
  | .none => 0x00
  | .qualMismatch => 0x01
  | .spareLost => 0x02
  | .spareUnwritable => 0x03
  | .hostAbort => 0x04
  | .tooManyFaults => 0x05

def MemberRole.toNat : MemberRole → Nat
  | .spare => 0x01
  | .survivor => 0x02
  | .faulted => 0x03

def LaneStage.toNat : LaneStage → Nat
  | .idle => 0x00
  | .buffering => 0x01
  | .locking => 0x02
  | .reading => 0x03
  | .solving => 0x04
  | .writing => 0x05
  | .settling => 0x06
  | .holding => 0x07

def LaneOutcome.toNat : LaneOutcome → Nat
  | .none => 0x00
  | .clean => 0x01
  | .recorded => 0x02
  | .abandoned => 0x03

def RegionState.toNat : RegionState → Nat
  | .stale => 0x01
  | .active => 0x02
  | .rebuilt => 0x03

/-! ## Route answers (R208) and member requests (R209) -/

/-- Statuses of R208. -/
def RouteStatus.toNat : RouteStatus → Nat
  | .reported => 0x01
  | .granted => 0x02
  | .released => 0x03
  | .withdrawn => 0x04
  | .unknownTag => 0x05
  | .range => 0x06
  | .tagInUse => 0x07
  | .busy => 0x08
  | .noSession => 0x09
  | .spareVoid => 0x0A

/-- Dispositions of R208. -/
def Disposition.toNat : Disposition → Nat
  | .current => 0x01
  | .stale => 0x02
  | .locked => 0x03
  | .lost => 0x04
  | .suspect => 0x05

/-- A disposition entry in its 17 bytes (R208). -/
def DispositionEntry.bytes (e : DispositionEntry) : List Byte :=
  leBytes 1 e.disposition.toNat ++ maskBytes e.lost ++ maskBytes e.suspect

/-- A route answer (R208). -/
def Answer.bytes (a : Answer) : List Byte :=
  [a.tag, a.kind] ++ leBytes 1 a.status.toNat ++ leBytes 1 a.number ++ leBytes 4 a.stripe ++
    a.entries.flatMap DispositionEntry.bytes

/-- The empty indication of a read of an empty answer queue (R72, R208). -/
def emptyAnswer : List Byte := List.replicate 8 0

/-- WRITE and QWRITE are writes, READ and QREAD reads (Table 7-1). -/
def RequestKind.isWrite : RequestKind → Bool
  | .read => false
  | .write => true
  | .qwrite => true
  | .qread => false

/-- The byte address of strip block `j` of a buffer (R110). -/
def blockAddress (b : BufId) (j : Nat) : Nat := b.val * 262144 + j * 4096

/-- The member request MRU sends at an issue (R209). -/
def Request.bytes (r : Request) (tag : Nat) : List Byte :=
  leBytes 1 tag ++ leBytes 1 r.position ++ leBytes 1 (if r.kind.isWrite then 1 else 0) ++ leBytes 1 r.blocks ++
    leBytes 6 r.address ++ leBytes 4 (blockAddress r.buf r.firstBlock)

/-- A position set of 16 bits: position x is bit x (R206). -/
def positionSet (positions : List Nat) : BitVec 16 := positions.foldl (fun acc x => acc ||| BitVec.twoPow 16 x) 0

/-- A record of a LIST_RECORDS payload, 22 bytes (R206). -/
def Record.bytes (r : Record) : List Byte :=
  leBytes 4 r.stripe ++ maskBytes r.lost ++ maskBytes r.suspect ++ leBytes 2 (positionSet r.contributors).toNat

end Sys2Proof.Machine
end

