-- ==== Sys2Proof/Machine/Ops.lean ====
section
/-! DEFINITION. The named operations over the state that every block uses: the buffer memory, the update of one block's
state, the registers of MRU's positions, and the messages that leave the part. -/

namespace Sys2Proof.Machine

/-! ## Buffer memory (R110) -/

/-- Bytes in the attached buffer memory: 32 MiB (R110). -/
def memoryBytes : Nat := 33554432

/-- What an unlisted address reads as (log 5). -/
def Memory.blank : Byte := 0

/-- The byte at an address. -/
def Memory.read : Memory → Nat → Byte
  | [], _ => Memory.blank
  | (k, v) :: rest, a => if k = a then v else Memory.read rest a

/-- The entries that list `bytes` from address `a` on: those that do not read as an unlisted address does. -/
def Memory.entries : Nat → List Byte → Memory
  | _, [] => []
  | a, b :: rest => if b = Memory.blank then Memory.entries (a + 1) rest else (a, b) :: Memory.entries (a + 1) rest

/-- Writes bytes at consecutive addresses and keeps the canonical form. -/
def Memory.write (m : Memory) (a : Nat) (bytes : List Byte) : Memory :=
  m.filter (fun c => c.1 < a) ++ Memory.entries a bytes ++ m.filter (fun c => a + bytes.length ≤ c.1)

/-- Reads `n` bytes from a list whose entries all lie at `a` or above. -/
def Memory.bytesFrom : Memory → Nat → Nat → List Byte
  | _, _, 0 => []
  | [], a, n + 1 => Memory.blank :: Memory.bytesFrom [] (a + 1) n
  | (k, v) :: rest, a, n + 1 =>
    if k = a then v :: Memory.bytesFrom rest (a + 1) n else Memory.blank :: Memory.bytesFrom ((k, v) :: rest) (a + 1) n

/-- The `n` bytes at consecutive addresses from `a` on. -/
def Memory.bytesAt (m : Memory) (a n : Nat) : List Byte := Memory.bytesFrom (m.dropWhile (fun c => c.1 < a)) a n

/-- The addresses of a list rise strictly. -/
def Memory.rising : Memory → Bool
  | [] => true
  | [_] => true
  | (k, _) :: (k', v') :: rest => k < k' && Memory.rising ((k', v') :: rest)

/-- The canonical form: addresses strictly rising and inside the memory, no entry equal to an unlisted byte. -/
def Memory.wf (m : Memory) : Bool := Memory.rising m && m.all (fun c => c.2 != Memory.blank && c.1 < memoryBytes)

/-- Whether a mask holds a block (R210). -/
def Mask.holds (m : Mask) (b : Nat) : Bool := m.getLsbD b

/-- The mask that holds one block. -/
def Mask.single (b : Nat) : Mask := BitVec.twoPow 64 b

/-! ## Updates of one block's state -/

def State.updMgp (f : Mgp → Mgp) (s : State) : State := { s with mgp := f s.mgp }
def State.updGeo (f : Geo → Geo) (s : State) : State := { s with geo := f s.geo }
def State.updSes (f : Ses → Ses) (s : State) : State := { s with ses := f s.ses }
def State.updRgt (f : Rgt → Rgt) (s : State) : State := { s with rgt := f s.rgt }
def State.updRtu (f : Rtu → Rtu) (s : State) : State := { s with rtu := f s.rtu }
def State.updSlk (f : Slk → Slk) (s : State) : State := { s with slk := f s.slk }
def State.updSbp (f : Sbp → Sbp) (s : State) : State := { s with sbp := f s.sbp }
def State.updMru (f : Mru → Mru) (s : State) : State := { s with mru := f s.mru }
def State.updRcd (f : Rcd → Rcd) (s : State) : State := { s with rcd := f s.rcd }
def State.updLrl (f : Lrl → Lrl) (s : State) : State := { s with lrl := f s.lrl }

/-- Changes the record of one lane. -/
def State.updLane (n : Fin 4) (f : Lane → Lane) (s : State) : State := { s with lanes := s.lanes.set n (f s.lanes[n]) }

/-- Writes bytes in the buffer memory. -/
def State.writeMem (a : Nat) (bytes : List Byte) (s : State) : State := { s with mem := s.mem.write a bytes }

/-- A message leaves the part (log 7). -/
def State.emit (o : Output) (s : State) : State := { s with sent := s.sent ++ [o] }

/-- A new event begins: nothing has left the part in it yet (log 7). -/
def State.beginEvent (s : State) : State := { s with sent := [] }

/-- The lanes, in ascending lane number. -/
def allLanes : List (Fin 4) := List.finRange 4

/-! ## Session state and profile -/

/-- The open states (section 2.2). -/
def SessionState.isOpen : SessionState → Bool
  | .absent => false
  | .qualifying => true
  | .ready => true
  | .running => true
  | .suspended => true
  | .draining => true
  | .paused => true
  | .stepping => true
  | .complete => true
  | .failed => false
  | .broken => false

/-- The ended states (section 2.2). -/
def SessionState.isEnded (st : SessionState) : Bool := st == .failed || st == .broken

/-- The profile in force; with none set every field is 0, and nothing reads it then. -/
def State.profile (s : State) : Profile := s.geo.profile.getD { n := 0, l := 0, t := 0, rs := 0, k := 0 }

/-- Whether the lane holds a batch (R63). -/
def Lane.holdsBatch (l : Lane) : Bool := l.batch.isSome

/-- Whether every lane is IDLE. -/
def State.allIdle (s : State) : Bool := allLanes.all (fun n => s.lanes[n].stage == .idle)

/-! ## MRU's positions (Table 7-2) -/

/-- The state of one position. -/
def Mru.pos (m : Mru) (x : Nat) : PosState := m.positions.getD x PosState.reset

/-- Changes the state of one position. -/
def Mru.updPos (x : Nat) (f : PosState → PosState) (m : Mru) : Mru :=
  { m with positions := m.positions.set x (f (m.pos x)) }

/-- Changes the state of one position of MRU. -/
def State.updPos (x : Nat) (f : PosState → PosState) (s : State) : State := s.updMru (Mru.updPos x f)

/-- Every request record MRU holds (R134). -/
def Mru.records (m : Mru) : List Request := m.positions.flatMap (fun p => p.queue ++ p.outstanding) ++ m.quarantined

/-- Whether a quarantined request names the buffer (R110, R113). -/
def Mru.namesQuarantined (m : Mru) (b : BufId) : Bool := m.quarantined.any (fun r => r.buf == b)

end Sys2Proof.Machine
end

