-- ==== Sys2Proof/Machine/Geometry.lean ====
section
/-! DEFINITION. GEO (chapter 1): the quantities of Table 1-2, the placement of P, Q and data, the extents of a strip, the
checks of OPEN_SESSION's geometry, and the commands SET_GEOMETRY and SET_SEGMENTS. -/

namespace Sys2Proof.Machine

/-! ## Derived quantities (R4) -/

/-- The least number of groups of `b` that hold `a`. -/
def ceilDiv (a b : Nat) : Nat := (a + b - 1) / b

/-- G, the segment size (Table 1-2). -/
def Profile.segSize (p : Profile) : Nat := 2 ^ p.k

/-- R, the region count (Table 1-2). -/
def Profile.regionCount (p : Profile) : Nat := ceilDiv p.t p.rs

/-- The stripe count of region r (Table 1-2). -/
def Profile.regionStripes (p : Profile) (r : Nat) : Nat :=
  if r + 1 < p.regionCount then p.rs else p.t - (p.regionCount - 1) * p.rs

/-- S, the segment need (Table 1-2). -/
def Profile.segNeed (p : Profile) : Nat := ceilDiv (p.t * p.l) p.segSize

/-- The region of a stripe (Table 1-2). -/
def Profile.regionOf (p : Profile) (s : Nat) : Nat := s / p.rs

/-- Region sizes allowed by Table 1-1: the powers of two from 16 to 65,536. -/
def regionSizes : List Nat := (List.range 13).map (fun i => 2 ^ (i + 4))

/-- Every field lies in the range of Table 1-1. -/
def Profile.inRange (p : Profile) : Bool :=
  (4 ≤ p.n && p.n ≤ 16) && (1 ≤ p.l && p.l ≤ 64) && regionSizes.contains p.rs && (12 ≤ p.k && p.k ≤ 30) &&
    (1 ≤ p.t && p.t ≤ p.rs * 16384)

/-! ## Placement (R5, R6) -/

/-- The role of a position in one stripe (R6). -/
inductive StripRole where
  | p
  | q
  | data (d : Nat)
  deriving DecidableEq, Repr

/-- The position of the P strip of stripe s (R5). -/
def Profile.pPos (p : Profile) (s : Nat) : Nat := (p.n - 1) - s % p.n

/-- The position of the Q strip of stripe s (R5). -/
def Profile.qPos (p : Profile) (s : Nat) : Nat := (p.pPos s + 1) % p.n

/-- The position of the strip of data index d of stripe s (R5). -/
def Profile.dataPos (p : Profile) (s d : Nat) : Nat := (p.qPos s + 1 + d) % p.n

/-- The role of position x in stripe s (R6). -/
def Profile.role (p : Profile) (s x : Nat) : StripRole :=
  if x = p.pPos s then .p
  else if x = p.qPos s then .q
  else .data ((x + p.n + p.n - p.qPos s - 1) % p.n)

/-! ## Extents (R11 to R14) -/

/-- An extent of a strip: a member block address, a block count, and the strip block of its first block. -/
structure Extent where
  address : Nat
  blocks : Nat
  firstBlock : Nat
  deriving DecidableEq, Repr

/-- Entry j of position x (R7). -/
def Geo.entry (g : Geo) (x j : Nat) : Option Nat := (g.segments.getD x []).getD j none

/-- The extents of the strip of stripe s at position x (R11, R12, R13). -/
def Geo.extents (g : Geo) (p : Profile) (s x : Nat) : List Extent :=
  let o := s * p.l
  let j := o / p.segSize
  let e := o % p.segSize
  let base := fun i => (g.entry x i).getD 0
  if e + p.l ≤ p.segSize then [{ address := base j + e, blocks := p.l, firstBlock := 0 }]
  else
    [{ address := base j + e, blocks := p.segSize - e, firstBlock := 0 },
      { address := base (j + 1), blocks := p.l - (p.segSize - e), firstBlock := p.segSize - e }]

/-- The extents GEO answers a lane (R13). -/
def State.extents (s : State) (stripe x : Nat) : List Extent := s.geo.extents s.profile stripe x

/-- The single extent of qualification strip m (R14). -/
def qualExtent (aq l m : Nat) : Extent := { address := aq + m * l, blocks := l, firstBlock := 0 }

/-! ## SET_GEOMETRY (R2, R3) -/

/-- The pairs of a position below N and an index below min(S, 16) whose entry is unset (R10). -/
def Geo.missingBases (g : Geo) (p : Profile) : Nat :=
  ((List.range p.n).map (fun x => (List.range (min p.segNeed 16)).countP (fun j => (g.entry x j).isNone))).sum

/-- SET_GEOMETRY taken by GEO (R2, R3). -/
def takeSetGeometry (n l t rs k : Nat) (s : State) : State × Reply :=
  let p : Profile := { n := n, l := l, t := t, rs := rs, k := k }
  if s.ses.state ≠ .absent then (s, .refusedState)
  else if p.inRange then
    let g : Geo := { profile := some p, segments := Geo.unsetSegments }
    ({ s with geo := g }, .done (leBytes 2 p.regionCount ++ leBytes 4 p.segNeed ++ leBytes 2 (g.missingBases p)))
  else (s, .refuse .refusedRange)

/-! ## SET_SEGMENTS (R8 to R10) -/

/-- What an element sets: a kind of 0 a base, a kind of 1 UNSET; a kind of 2 or more is neither (R205). -/
def segmentEntry (e : SegmentElement) : Option (Option Nat) :=
  if e.kind = 0 then some (some e.base.toNat) else if e.kind = 1 then some none else none

/-- A base is a multiple of 8 and at most 2^48 − G (R8). -/
def baseFits (p : Profile) (base : Nat) : Bool := base % 8 = 0 && base + p.segSize ≤ 2 ^ 48

/-- The base check of R8 on one element. -/
def segmentFits (p : Profile) (e : SegmentElement) : Bool :=
  match segmentEntry e with
  | none => false
  | some none => true
  | some (some base) => baseFits p base

/-- The row of a position after the load: element i goes to entry f + i (R10). -/
def loadRow (row : List (Option Nat)) (f : Nat) (values : List (Option Nat)) : List (Option Nat) :=
  row.take f ++ values ++ row.drop (f + values.length)

/-- Two set entries overlap when their bases differ by less than G (R9). -/
def basesOverlap (g : Nat) : Option Nat → Option Nat → Bool
  | some a, some b => decide (a < b + g) && decide (b < a + g)
  | _, _ => false

/-- Whether a loaded entry overlaps any other entry of the row as it stands after the load (R9). -/
def rowOverlaps (g : Nat) (row : List (Option Nat)) (f count : Nat) : Bool :=
  (List.range count).any fun i => (List.range 16).any fun j =>
    j != f + i && basesOverlap g (row.getD (f + i) none) (row.getD j none)

/-- SET_SEGMENTS taken by GEO, with the checks of Table 1-4 in order. -/
def takeSetSegments (x f : Nat) (elements : List SegmentElement) (s : State) : State × Reply :=
  if s.ses.state ≠ .absent then (s, .refusedState)
  else match s.geo.profile with
    | none => (s, .refuse .incomplete)
    | some p =>
      if p.n ≤ x then (s, .refuse .refusedRange)
      else if elements.length < 1 ∨ 16 < elements.length ∨ 16 < f + elements.length then (s, .refuse .refusedRange)
      else if !elements.all (segmentFits p) then (s, .refuse .refusedRange)
      else
        let row := loadRow (s.geo.segments.getD x []) f (elements.map fun e => (segmentEntry e).getD none)
        if rowOverlaps p.segSize row f elements.length then (s, .refuse .overlap)
        else
          let g : Geo := { s.geo with segments := s.geo.segments.set x row }
          ({ s with geo := g }, .done (leBytes 2 (g.missingBases p)))

/-! ## Readiness for a session (R15 to R17) -/

/-- The completeness test of R16 on a set profile. -/
def Geo.complete (g : Geo) (p : Profile) : Bool :=
  p.t * p.l ≤ 16 * p.segSize &&
    (List.range p.n).all fun x => (List.range p.segNeed).all fun j => (g.entry x j).isSome

/-- Whether the area [a, b) shares a block with a mapped range of position x (check 3 of R15). -/
def Geo.sharesBlocks (g : Geo) (p : Profile) (x a b : Nat) : Bool :=
  (List.range 16).any fun j => match g.entry x j with
    | some base => decide (a < base + p.segSize) && decide (base < b)
    | none => false

/-- The check of the qualification area (R15): none when it passes. -/
def Geo.areaProblem (g : Geo) (p : Profile) (f aq kq : Nat) : Option ResultCode :=
  if kq < 1 ∨ 8 < kq then some .refusedRange
  else if 2 ^ 48 < aq + kq * p.l then some .refusedRange
  else if g.sharesBlocks p f aq (aq + kq * p.l) then some .overlap
  else none

/-- GEO's answer to OPEN_SESSION (R17): none when the geometry is ready. -/
def Geo.sessionProblem (g : Geo) (p : Profile) (f aq kq : Nat) (skipQual : Bool) : Option ResultCode :=
  if !g.complete p then some .incomplete else if skipQual then none else g.areaProblem p f aq kq

end Sys2Proof.Machine
end

