-- ==== Sys2Proof/Machine/Requests.lean ====
section
/-! DEFINITION. MRU's own operations (chapter 7): tags, issue and pacing, the tag wait order, submission, clearing. What a
settlement does at its owner stands in Machine/Completions.lean. -/

namespace Sys2Proof.Machine

/-! ## Tags (R135) -/

/-- The lowest-numbered free tag: one that no request record carries (R135). -/
def Mru.lowestFreeTag (m : Mru) : Option Nat :=
  let used := m.records.filterMap (·.tag)
  (List.range 256).find? fun t => !used.contains t

/-- The free tag that a head outside the tag wait order may take: none while positions wait for one, since a freed tag goes to
them first (R139; log 10). -/
def Mru.offeredTag (m : Mru) : Option Nat := if m.tagWait.isEmpty then m.lowestFreeTag else none

/-! ## The conditions of issue (R138) -/

/-- Condition 1: fewer than 4 requests are outstanding. -/
def Mru.hasRoom (m : Mru) (x : Nat) : Bool := decide ((m.pos x).outstanding.length < 4)

/-- The issues that count within the preceding window: an issue at t counts while the present time is below t + window. -/
def Mru.recentIssues (m : Mru) (now x : Nat) : Nat := (m.pos x).history.countP fun t => decide (now < t + m.paceWindow)

/-- Condition 2: fewer than W requests were issued within the window. -/
def Mru.inPace (m : Mru) (now x : Nat) : Bool := decide (m.recentIssues now x < m.paceLimit)

/-- The time at which a head held back by pacing can next be issued (R140): the W-th most recent issue plus the window. -/
def Mru.paceTime (m : Mru) (x : Nat) : Nat := (m.pos x).history.getD (m.paceLimit - 1) 0 + m.paceWindow

/-! ## Issue (R138) -/

/-- The head of x's queue is issued with the tag (R138). The pacing expiry is cancelled when the queue is emptied (R140). -/
def State.issueHead (x tag : Nat) (s : State) : State :=
  match (s.mru.pos x).queue with
  | [] => s
  | r :: rest =>
    let issued : Request := { r with tag := some tag, deadline := some (s.now + s.mru.timeout) }
    ((s.updPos x fun p =>
        { p with queue := rest, outstanding := p.outstanding ++ [issued], history := (s.now :: p.history).take 32,
                 expiry := if rest.isEmpty then none else p.expiry }).updMru
      fun m => { m with tagWait := m.tagWait.erase x }).emit (.memberRequest (issued.bytes tag))

/-- The position leaves the tag wait order (R139). -/
def State.leaveTagWait (x : Nat) (s : State) : State := s.updMru fun m => { m with tagWait := m.tagWait.erase x }

/-- The position joins the tail of the tag wait order, unless it is in it (R139). -/
def State.joinTagWait (x : Nat) (s : State) : State :=
  s.updMru fun m => { m with tagWait := if m.tagWait.contains x then m.tagWait else m.tagWait ++ [x] }

/-- Sets or cancels the pacing expiry of x (R140). -/
def State.setExpiry (x : Nat) (e : Option Nat) (s : State) : State := s.updPos x fun p => { p with expiry := e }

/-- An issue decision for x (R139), issuing heads while R138 allows it. The fuel bounds the issues: at most 4 are
outstanding, so 5 suffice. -/
def State.issueFuel : Nat → Nat → State → State
  | 0, _, s => s
  | fuel + 1, x, s =>
    match (s.mru.pos x).queue with
    | [] => (s.leaveTagWait x).setExpiry x none
    | r :: _ =>
      if !s.mru.hasRoom x then s.leaveTagWait x
      else if !s.mru.inPace s.now x then
        let s := s.leaveTagWait x
        if r.tag.isSome || s.mru.offeredTag.isSome then s.setExpiry x (some (s.mru.paceTime x)) else s
      else match r.tag with
        | some t => State.issueFuel fuel x (s.issueHead x t)
        | none =>
          match s.mru.offeredTag with
          | some t => State.issueFuel fuel x (s.issueHead x t)
          | none => s.joinTagWait x

/-- An issue decision for position x (R139). -/
def State.issueDecision (x : Nat) (s : State) : State := s.issueFuel 5 x

/-- An issue decision for every position whose queue is not empty, in ascending order (R141; log 9). -/
def State.decideAll (s : State) : State :=
  (List.range 16).foldl (fun s x => if (s.mru.pos x).queue.isEmpty then s else s.issueDecision x) s

/-- Free tags go to the positions of the tag wait order, oldest first, each issuing its head (R139). A position whose head
no longer meets the conditions leaves the order. -/
def State.serveTagWaitFuel : Nat → State → State
  | 0, s => s
  | fuel + 1, s =>
    match s.mru.tagWait, s.mru.lowestFreeTag with
    | x :: _, some t =>
      let s' := s.leaveTagWait x
      if (s.mru.pos x).queue.isEmpty || !s.mru.hasRoom x || !s.mru.inPace s.now x then State.serveTagWaitFuel fuel s'
      else if ((s.mru.pos x).queue.head?.bind (·.tag)).isSome then State.serveTagWaitFuel fuel s'
      else State.serveTagWaitFuel fuel (s'.issueHead x t)
    | _, _ => s

/-- The tag wait order is served when tags have become free (R139). -/
def State.serveTagWait (s : State) : State := s.serveTagWaitFuel s.mru.tagWait.length

/-- What follows an event that freed tags, the wait order already served: the event's own decision, then a decision for
every other position (R139; log 10). -/
def State.decideAfterFree (x : Nat) (s : State) : State := (s.issueDecision x).decideAll

/-! ## Submission (R136) -/

/-- A request joins the tail of its position's queue, and a decision is made. -/
def State.submit (s : State) (r : Request) : State :=
  (s.updPos r.position fun p => { p with queue := p.queue ++ [r] }).issueDecision r.position

/-- A request as its owner submits it (R136). -/
def newRequest (kind : RequestKind) (x : Nat) (e : Extent) (buf : BufId) (owner : Owner) : Request :=
  { tag := none, position := x, kind := kind, address := e.address, blocks := e.blocks, buf := buf,
    firstBlock := e.firstBlock, owner := some owner, defers := 0, rewritten := false, deadline := none }

/-! ## Finding and ending a request -/

/-- The OUTSTANDING request with the tag. -/
def Mru.findOutstanding (m : Mru) (tag : Nat) : Option Request :=
  (m.positions.flatMap (·.outstanding)).find? fun r => r.tag == some tag

/-- The QUARANTINED request with the tag. -/
def Mru.findQuarantined (m : Mru) (tag : Nat) : Option Request := m.quarantined.find? fun r => r.tag == some tag

/-- The request with the tag leaves the outstanding set of position x. -/
def State.leaveOutstanding (x tag : Nat) (s : State) : State :=
  s.updPos x fun p => { p with outstanding := p.outstanding.filter fun r => r.tag != some tag }

/-- A request joins the head of its position's queue, as QUEUED (R137). -/
def State.requeueHead (r : Request) (s : State) : State :=
  s.updPos r.position fun p => { p with queue := { r with deadline := none } :: p.queue }

/-- Sets the consecutive-timeout count of x (R150). -/
def State.setTimeouts (x count : Nat) (s : State) : State := s.updPos x fun p => { p with timeouts := count }

/-- A request enters quarantine until the present time plus the timeout in force (R149, R154, R155). -/
def Request.quarantine (until' : Nat) (r : Request) : Request := { r with deadline := some until' }

/-! ## Clearing (R154, R155) -/

/-- A faulted position is cleared (R154): queued requests are dropped, outstanding ones quarantined. Only where a drop has
freed a tag do the tag wait order and the other positions act (R139). -/
def State.clearPosition (x : Nat) (s : State) : State :=
  let late := (s.mru.pos x).outstanding.map (Request.quarantine (s.now + s.mru.timeout))
  let cleared := (s.updPos x fun p => { p with queue := [], outstanding := [], expiry := none }).updMru
    fun m => { m with quarantined := m.quarantined ++ late, tagWait := m.tagWait.erase x }
  if (s.mru.pos x).queue.any (·.tag.isSome) then cleared.serveTagWait.decideAll else cleared

/-- Every position is cleared at the end of a session and at RESET_ENGINE (R155): owners become absent, the tag wait order
is emptied, every pacing expiry cancelled. -/
def State.clearAll (s : State) : State :=
  let late := (s.mru.positions.flatMap (·.outstanding)).map (Request.quarantine (s.now + s.mru.timeout))
  s.updMru fun m =>
    { m with
      positions := m.positions.map fun p => { p with queue := [], outstanding := [], expiry := none }
      quarantined := (m.quarantined ++ late).map fun r => { r with owner := none }
      tagWait := [] }

/-- Every consecutive-timeout count is set to 0 (RESET_ENGINE, R155; OPEN_SESSION, Table 7-2). -/
def State.zeroTimeouts (s : State) : State :=
  s.updMru fun m => { m with positions := m.positions.map fun p => { p with timeouts := 0 } }

/-! ## Settings (R141, R151) -/

/-- A value brought to the nearest end of its range. -/
def clampTo (lo hi v : Nat) : Nat := if v < lo then lo else if hi < v then hi else v

/-- SET_PACE (R141). -/
def takeSetPace (w window : Nat) (s : State) : State × Reply :=
  let w' := clampTo 1 32 w
  let window' := clampTo 1 1000 window
  ((s.updMru fun m => { m with paceLimit := w', paceWindow := window' }).decideAll,
    .done (leBytes 1 w' ++ leBytes 2 window'))

/-- SET_TIMEOUT (R151). -/
def takeSetTimeout (ms : Nat) (s : State) : State × Reply :=
  let ms' := clampTo 100 60000 ms
  (s.updMru fun m => { m with timeout := ms' }, .done (leBytes 2 ms'))

end Sys2Proof.Machine
end

