-- ==== Sys2Proof/Machine/Records.lean ====
section
/-! DEFINITION. LRL's own operations (chapter 9): the ordered list, offers, retirement, paging. -/

namespace Sys2Proof.Machine

/-- The record of a stripe, if the list holds one (R176). -/
def Lrl.find (l : Lrl) (stripe : Nat) : Option Record := l.records.find? fun r => r.stripe == stripe

/-- A record takes the place its stripe gives it (R176). The list never holds one for the same stripe (R178; log 17). -/
def insertRecord (r : Record) : List Record → List Record
  | [] => [r]
  | x :: rest =>
    if r.stripe < x.stripe then r :: x :: rest
    else if r.stripe = x.stripe then r :: rest
    else x :: insertRecord r rest

/-- Capacity of the record list (R174). -/
def recordCapacity : Nat := 256

/-- Changes the record of one region (R45). -/
def State.updRegion (r : Nat) (f : Region → Region) (s : State) : State :=
  s.updRgt fun g => { g with regions := g.regions.modify r f }

/-- RGT counts a record created for a stripe (R65). -/
def State.countRecord (stripe : Nat) (s : State) : State :=
  s.updRegion (s.profile.regionOf stripe) fun r => { r with recordCount := r.recordCount + 1 }

/-- RGT counts a record retired for a stripe (R65). -/
def State.uncountRecord (stripe : Nat) (s : State) : State :=
  s.updRegion (s.profile.regionOf stripe) fun r => { r with recordCount := r.recordCount - 1 }

/-- LRL takes an offer (R177, R179): true when it accepts. -/
def State.offer (r : Record) (s : State) : State × Bool :=
  if s.lrl.records.length < recordCapacity then
    (((s.updLrl fun l => { l with records := insertRecord r l.records }).countRecord r.stripe).setEvent .recordAdded, true)
  else (s.setEvent .listFull, false)

/-- LRL retires the record of a stripe, if it holds one (R180, R182): true when it did. -/
def State.retire (stripe : Nat) (s : State) : State × Bool :=
  match s.lrl.find stripe with
  | some _ =>
    ((s.updLrl fun l => { l with records := l.records.filter fun r => r.stripe != stripe }).uncountRecord stripe, true)
  | none => (s, false)

/-- LRL retires the records of several stripes, each once, and counts them (R180). -/
def State.retireAll : List Nat → State → State × Nat
  | [], s => (s, 0)
  | stripe :: rest, s =>
    let (s, hit) := s.retire stripe
    let (s, n) := State.retireAll rest s
    (s, if hit then n + 1 else n)

/-- LIST_RECORDS (R185, R206). -/
def takeListRecords (first maxCount : Nat) (s : State) : State × Reply :=
  if s.ses.state = .absent then (s, .refusedState)
  else if maxCount < 1 ∨ 8 < maxCount then (s, .refuse .refusedRange)
  else
    let above := s.lrl.records.filter fun r => first ≤ r.stripe
    let page := above.take maxCount
    (s, .done (leBytes 1 page.length ++ leBytes 1 (if page.length < above.length then 1 else 0) ++
      page.flatMap Record.bytes))

end Sys2Proof.Machine
end

