-- ==== Sys2Proof/Machine/Regions.lean ====
section
/-! DEFINITION. RGT's own operations (chapter 3): the build at OPEN_SESSION, heat and hot promotion, the host's reordering,
the choice of the next batch, region completion, and GET_REGION. -/

namespace Sys2Proof.Machine

/-! ## The build (R44) -/

/-- A region record as OPEN_SESSION builds it (Table 3-1). -/
def Region.built (stripeCount : Nat) : Region :=
  { state := .stale, stripeCount := stripeCount, issueMark := 0, heat := 0, recordCount := 0, activation := none }

/-- The initial order of the schedule queue (R44). -/
def initialQueue (regionCount start : Nat) : List Nat :=
  (List.range' start (regionCount - start)) ++ List.range start

/-- RGT builds its state (R44). -/
def Rgt.build (p : Profile) (start : Nat) (g : Rgt) : Rgt :=
  { regions := (List.range p.regionCount).map fun r => Region.built (p.regionStripes r)
    queue := initialQueue p.regionCount start
    nextActivation := some 1
    rebuiltRegions := some 0
    rebuiltStripes := some 0
    heatThreshold := g.heatThreshold }

/-! ## Heat (R52, R53) -/

/-- Whether a region is STALE. -/
def Rgt.isStale (g : Rgt) (r : Nat) : Bool := g.regions[r]?.any fun x => x.state == .stale

/-- The regions a contribution touches (R52). -/
def touchedRegions (rs s1 s2 : Nat) : List Nat := List.range' (s1 / rs) (s2 / rs + 1 - s1 / rs)

/-- Heat rises by 1 and stays at 255 (R52). -/
def Region.warm (r : Region) : Region := { r with heat := min 255 (r.heat + 1) }

/-- Hot promotion on the regions that gained heat (R53): those at H or above move to the head together, in ascending
number, and their heat becomes 0. -/
def Rgt.promoteHot (gained : List Nat) (g : Rgt) : Rgt :=
  let hot := gained.filter fun r => decide (1 ≤ g.heatThreshold) && g.regions[r]?.any fun x => decide (g.heatThreshold ≤ x.heat)
  { g with
    queue := hot ++ g.queue.filter fun r => !hot.contains r
    regions := hot.foldl (fun rs r => rs.modify r fun x => { x with heat := 0 }) g.regions }

/-- One heat contribution naming the stripes from s1 to s2 (R52, R53). A region that a PROMOTE has just taken to the head with
heat 0 gains 1 like any other, so that with H at 2 or more it ends at heat 1, against the third bullet of R50 (log 24). -/
def Rgt.contribute (rs s1 s2 : Nat) (g : Rgt) : Rgt :=
  let gained := (touchedRegions rs s1 s2).filter g.isStale
  Rgt.promoteHot gained { g with regions := gained.foldl (fun l r => l.modify r Region.warm) g.regions }

/-- RTU passes RGT one heat contribution (R81). -/
def State.contribute (first count : Nat) (s : State) : State :=
  s.updRgt (Rgt.contribute s.profile.rs first (first + count - 1))

/-- SET_HEAT (R54). -/
def takeSetHeat (h : Nat) (s : State) : State × Reply :=
  let h' := min h 255
  (s.updRgt fun g => { g with heatThreshold := h' }, .done (leBytes 1 h'))

/-! ## PROMOTE, DEMOTE, GET_REGION (R48, R49, R51) -/

/-- The three checks of R48, in order: none when all pass. -/
def State.reorderProblem (region : Nat) (s : State) : Option Reply :=
  if !s.ses.state.isOpen then some .refusedState
  else if s.rgt.regions.length ≤ region then some (.refuse .refusedRange)
  else if !s.rgt.isStale region then some .notStale
  else none

/-- The region's heat becomes 0. -/
def State.coolRegion (region : Nat) (s : State) : State := s.updRegion region fun r => { r with heat := 0 }

/-- PROMOTE (R48). What a contribution behind it leaves is R52's and R53's, not R50's (log 24). -/
def takePromote (region : Nat) (s : State) : State × Reply :=
  match s.reorderProblem region with
  | some reply => (s, reply)
  | none =>
    ((s.updRgt fun g => { g with queue := region :: g.queue.filter (· != region) }).coolRegion region, .done (leBytes 2 0))

/-- DEMOTE (R49). -/
def takeDemote (region : Nat) (s : State) : State × Reply :=
  match s.reorderProblem region with
  | some reply => (s, reply)
  | none =>
    let s := (s.updRgt fun g => { g with queue := g.queue.filter (· != region) ++ [region] }).coolRegion region
    (s, .done (leBytes 2 (s.rgt.queue.length - 1)))

/-- The 0-based queue position of a region (R47), for a STALE region. -/
def Rgt.queuePosition (g : Rgt) (region : Nat) : Option Nat :=
  if g.isStale region then some (g.queue.idxOf region) else none

/-- The GET_REGION payload (R51, Table 10-7). -/
def regionPayload (r : Region) (position : Option Nat) : List Byte :=
  leBytes 1 r.state.toNat ++ leBytes 1 r.heat ++ leBytes 4 r.stripeCount ++ leBytes 4 r.issueMark ++
    leBytes 2 r.recordCount ++ leOption 2 r.activation ++ leOption 2 position

/-- GET_REGION (R51). -/
def takeGetRegion (region : Nat) (s : State) : State × Reply :=
  if s.ses.state = .absent then (s, .refusedState)
  else match s.rgt.regions[region]? with
    | none => (s, .refuse .refusedRange)
    | some r => (s, .done (regionPayload r (s.rgt.queuePosition region)))

/-! ## The next batch (R58, R59) -/

/-- Whether an ACTIVE region has stripes left to hand out (source 1 of R58). -/
def Region.hasStripesLeft (r : Region) : Bool := r.state == .active && decide (r.issueMark < r.stripeCount)

/-- Of two regions, the one with the lower activation number. -/
def lowerActivation (best : Option (Nat × Region)) (next : Nat × Region) : Option (Nat × Region) :=
  match best with
  | none => some next
  | some b => if next.2.activation.getD 0 < b.2.activation.getD 0 then some next else some b

/-- Source 1 of R58: of the ACTIVE regions with stripes left, the one with the lowest activation number. -/
def Rgt.activeSource (g : Rgt) : Option Nat :=
  ((((List.range g.regions.length).zip g.regions).filter fun x => x.2.hasStripesLeft).foldl lowerActivation none).map (·.1)

/-- The head of the queue becomes ACTIVE (source 2 of R58). -/
def Rgt.activate (region : Nat) (g : Rgt) : Rgt :=
  { g with
    queue := g.queue.tail
    nextActivation := g.nextActivation.map (· + 1)
    regions := g.regions.modify region fun r =>
      { r with state := .active, activation := g.nextActivation, heat := 0, issueMark := 0 } }

/-- The region a batch is taken from, activating the head of the queue when source 1 has none (R58). -/
def Rgt.chooseRegion (g : Rgt) : Option (Nat × Rgt) :=
  match g.activeSource with
  | some r => some (r, g)
  | none =>
    match g.queue with
    | [] => none
    | r :: _ => some (r, g.activate r)

/-- The batch handed out of a region, and the issue mark's advance (R59). -/
def Rgt.takeBatch (rs b region : Nat) (g : Rgt) : Option (Batch × Rgt) :=
  match g.regions[region]? with
  | none => none
  | some r =>
    let length := min b (r.stripeCount - r.issueMark)
    some ({ region := region, first := region * rs + r.issueMark, length := length },
      { g with regions := g.regions.modify region fun r => { r with issueMark := r.issueMark + length } })

/-- The next batch, if one is left (R58, R59, R61). -/
def Rgt.nextBatch (rs b : Nat) (g : Rgt) : Option (Batch × Rgt) :=
  g.chooseRegion.bind fun x => Rgt.takeBatch rs b x.1 x.2

/-! ## Completion (R62, R63, R34) -/

/-- Whether some lane holds a batch in the region (R63). -/
def State.regionHeld (region : Nat) (s : State) : Bool :=
  allLanes.any fun n => s.lanes[n].batch.any fun b => b.region == region

/-- The region completion test at a batch end (R63). -/
def State.testRegion (region : Nat) (s : State) : State :=
  match s.rgt.regions[region]? with
  | none => s
  | some r =>
    if r.state = .active ∧ r.issueMark = r.stripeCount ∧ !s.regionHeld region then
      s.updRgt fun g =>
        { g with
          regions := g.regions.modify region fun r => { r with state := .rebuilt }
          rebuiltRegions := g.rebuiltRegions.map (· + 1) }
    else s

/-- Every region is REBUILT (R34). -/
def Rgt.allRebuilt (g : Rgt) : Bool := g.regions.all fun r => r.state == .rebuilt

end Sys2Proof.Machine
end

