-- ==== Sys2Proof/Machine/Routes.lean ====
section
/-! DEFINITION. RTU's dispositions and answers (chapter 4). The taking of route requests stands in Machine/RoutePort.lean. -/

namespace Sys2Proof.Machine

/-! ## Dispositions (R76 to R78) -/

/-- A stripe lies in a batch (R77). -/
def Batch.covers (b : Batch) (stripe : Nat) : Bool := decide (b.first ≤ stripe) && decide (stripe < b.first + b.length)

/-- The lane whose batch holds the stripe (R77). -/
def State.laneOf (stripe : Nat) (s : State) : Option (Fin 4) :=
  allLanes.find? fun n => s.lanes[n].batch.any fun b => b.covers stripe

/-- Result of the first step of a disposition (Table 4-3). -/
inductive FirstStep where
  | stale | locked | rebuilt
  deriving DecidableEq, Repr

/-- How the stage of the lane that holds a stripe reports it (Table 4-3, Table 6-2). An IDLE lane holds no batch. -/
def LaneStage.report : LaneStage → FirstStep
  | .idle => .rebuilt
  | .buffering => .stale
  | .locking => .stale
  | .reading => .locked
  | .solving => .locked
  | .writing => .locked
  | .settling => .locked
  | .holding => .locked

/-- The first step of a disposition (R77). In QUALIFYING and READY every stripe is STALE (Table 4-2). -/
def State.firstStep (stripe : Nat) (s : State) : FirstStep :=
  match s.rgt.regions[s.profile.regionOf stripe]? with
  | none => .stale
  | some r =>
    match r.state with
    | .stale => .stale
    | .rebuilt => .rebuilt
    | .active =>
      if r.issueMark ≤ stripe - s.profile.regionOf stripe * s.profile.rs then .stale
      else match s.laneOf stripe with
        | some n => s.lanes[n].stage.report
        | none => .rebuilt

/-- The second step for a rebuilt stripe (R78). -/
def recordEntry : Option Record → DispositionEntry
  | none => { disposition := .current, lost := 0, suspect := 0 }
  | some r =>
    if r.lost ≠ 0 then { disposition := .lost, lost := r.lost, suspect := r.suspect }
    else { disposition := .suspect, lost := 0, suspect := r.suspect }

/-- The disposition entry of a stripe (R76 to R78). -/
def State.disposition (s : State) (stripe : Nat) : DispositionEntry :=
  match s.firstStep stripe with
  | .stale => { disposition := .stale, lost := 0, suspect := 0 }
  | .locked => { disposition := .locked, lost := 0, suspect := 0 }
  | .rebuilt => recordEntry (s.lrl.find stripe)

/-- One disposition entry per stripe of a range, in ascending order (R75, R94). -/
def State.dispositions (s : State) (first count : Nat) : List DispositionEntry :=
  (List.range' first count).map s.disposition

/-! ## Answers (R71, R208) -/

/-- An answer is written at the tail of the answer queue. -/
def State.answer (a : Answer) (s : State) : State := s.updRtu fun r => { r with answers := r.answers ++ [a] }

/-- Kind codes of R207. -/
def kindQuery : Byte := 1
def kindClaim : Byte := 2
def kindRelease : Byte := 3

/-- An answer that carries no disposition and no number (R208). -/
def plainAnswer (tag kind : Byte) (status : RouteStatus) (stripe : Nat) : Answer :=
  { tag := tag, kind := kind, status := status, number := 0, stripe := stripe, entries := [] }

/-- The GRANTED answer of a claim, with the dispositions at the moment of the grant (R94, R95). -/
def State.grantedAnswer (tag : Byte) (first count : Nat) (s : State) : Answer :=
  { tag := tag, kind := kindClaim, status := .granted, number := count, stripe := first,
    entries := s.dispositions first count }

/-- A reservation ends (R73). -/
def State.dropReservation (s : State) : State := s.updRtu fun r => { r with reservations := r.reservations - 1 }

end Sys2Proof.Machine
end

