-- ==== Sys2Proof/Machine/Lanes.lean ====
section
/-! DEFINITION. What a lane submits: its reads at the entry into READING (R117) and its spare writes at the entry into
WRITING (R123). -/

namespace Sys2Proof.Machine

/-- The spare's position F; with no session it is 0, and nothing reads it then. -/
def State.spare (s : State) : Nat := s.ses.failedPos.getD 0

/-- Position F and the faulted survivor are not read (R117). -/
def State.isExcluded (s : State) (x : Nat) : Bool := s.ses.failedPos == some x || s.ses.faultedSurvivor == some x

/-- The stripes of a batch, in ascending order. -/
def Batch.stripes (b : Batch) : List Nat := List.range' b.first b.length

/-- The buffer for stripe i of the batch at position x: place i × N + x of the set (R111). -/
def bufferAt (bufs : List BufId) (n i x : Nat) : BufId := bufs.getD (i * n + x) 0

/-- The read record's cell of one strip at the entry into READING (R117). -/
def State.firstCell (s : State) (stripe x : Nat) : ReadCell :=
  if s.isExcluded x then { status := .excluded, left := 0, sawMissing := false, sawMask := 0 }
  else { status := .pending, left := (s.extents stripe x).length, sawMissing := false, sawMask := 0 }

/-- The read record at the entry into READING (R117). -/
def State.firstReads (s : State) (b : Batch) : List (List ReadCell) :=
  b.stripes.map fun stripe => (List.range s.profile.n).map fun x => s.firstCell stripe x

/-- The requests for one strip, the first extent before the second (R117, R123). -/
def State.stripRequests (s : State) (kind : RequestKind) (n : Fin 4) (buf : BufId) (stripe x : Nat) : List Request :=
  (s.extents stripe x).map fun e => newRequest kind x e buf (.lane n)

/-- The reads of a batch: ascending stripe, then ascending position, then extent (R117). -/
def State.readRequests (s : State) (n : Fin 4) (b : Batch) : List Request :=
  (List.range b.length).flatMap fun i => ((List.range s.profile.n).filter fun x => !s.isExcluded x).flatMap fun x =>
    s.stripRequests .read n (bufferAt s.lanes[n].bufs s.profile.n i x) (b.first + i) x

/-- The spare writes of a batch, in ascending stripe order (R123). -/
def State.writeRequests (s : State) (n : Fin 4) (b : Batch) : List Request :=
  (List.range b.length).flatMap fun i =>
    s.stripRequests .write n (bufferAt s.lanes[n].bufs s.profile.n i s.spare) (b.first + i) s.spare

/-- Requests are submitted in order, each with its decision (R136). -/
def State.submitAll (requests : List Request) (s : State) : State := requests.foldl State.submit s

/-- The lane enters READING, builds its read record and submits its reads (R117). -/
def State.enterReading (n : Fin 4) (s : State) : State :=
  match s.lanes[n].batch with
  | none => s
  | some b =>
    let requests := s.readRequests n b
    (s.updLane n fun l => { l with stage := .reading, reads := s.firstReads b, outstanding := requests.length }).submitAll
      requests

/-- The lane enters WRITING with its results and submits its spare writes (R121, R123). -/
def State.enterWriting (n : Fin 4) (results : List StripeResult) (s : State) : State :=
  match s.lanes[n].batch with
  | none => s
  | some b =>
    let requests := s.writeRequests n b
    (s.updLane n fun l => { l with stage := .writing, results := results, outstanding := requests.length }).submitAll
      requests

/-- A stripe's results before RCD has taken a block (R161). -/
def StripeResult.empty : StripeResult := { lost := 0, suspect := 0, contributors := [] }

/-- The lane enters SOLVING, and RCD creates its solve context (R120, R161). -/
def State.enterSolving (n : Fin 4) (s : State) : State :=
  let length := (s.lanes[n].batch.map (·.length)).getD 0
  (s.updLane n fun l => { l with stage := .solving }).updRcd fun r =>
    { r with contexts := r.contexts.set n (some { stripe := 0, block := 0, results := List.replicate length StripeResult.empty }) }

end Sys2Proof.Machine
end

