-- ==== Sys2Proof/Machine/Locks.lean ====
section
/-! DEFINITION. SLK (chapter 5): conflict, the grant rule, the wait-list scan, lane locks, CLAIM and the coverage question.
RELEASE stands in Machine/RoutePort.lean, because it may serve the holders. -/

namespace Sys2Proof.Machine

/-! ## Conflict and the grant rule (R88 to R90) -/

/-- Whether the owner is a claim, so that the entry's kind is WRITE (R87). -/
def LockOwner.isClaim : LockOwner → Bool
  | .lane _ => false
  | .claim _ => true

/-- A stripe lies in an entry (R87). -/
def LockEntry.covers (e : LockEntry) (stripe : Nat) : Bool := decide (e.first ≤ stripe) && decide (stripe < e.first + e.count)

/-- Two entries share a stripe (R87). -/
def LockEntry.overlaps (a b : LockEntry) : Bool :=
  decide (1 ≤ a.count) && decide (1 ≤ b.count) && decide (a.first < b.first + b.count) && decide (b.first < a.first + a.count)

/-- Two overlapping entries conflict unless both are WRITE (R89). -/
def LockEntry.conflicts (a b : LockEntry) : Bool := a.overlaps b && !(a.owner.isClaim && b.owner.isClaim)

/-- Held entries a class may have: 60 for claims, 4 for lanes (R88). -/
def heldLimit (isClaim : Bool) : Nat := if isClaim then 60 else 4

/-- Claims that may wait (R88). -/
def claimWaitLimit : Nat := 28

/-- The grant rule for `e`, with the held table and the older waiting requests (R90). -/
def grantable (held older : List LockEntry) (e : LockEntry) : Bool :=
  !held.any e.conflicts && !older.any e.overlaps &&
    decide ((held.filter fun h => h.owner.isClaim == e.owner.isClaim).length < heldLimit e.owner.isClaim)

/-! ## Grants and the scan (R91, R95, R101) -/

/-- What a grant by a scan brings about at the owner: a claim's GRANTED answer through its reservation (R95), or a lane's
entry into READING (R116). -/
def State.grantWaiting (e : LockEntry) (s : State) : State :=
  match e.owner with
  | .lane n => s.enterReading n
  | .claim tag => (s.answer (s.grantedAnswer tag e.first e.count)).dropReservation

/-- The scan: `rest` is still to be examined, `kept` has been examined and stays (R91). -/
def State.scanFrom : List LockEntry → List LockEntry → State → State
  | [], _, s => s
  | e :: rest, kept, s =>
    if grantable s.slk.held kept e then
      State.scanFrom rest kept
        ((s.updSlk fun k => { k with held := k.held ++ [e], waiting := kept ++ rest }).grantWaiting e)
    else State.scanFrom rest (kept ++ [e]) s

/-- SLK scans its wait list (R91). -/
def State.scanLocks (s : State) : State := State.scanFrom s.slk.waiting [] s

/-- The lane makes its lock request (R101). A grant at intake takes the lane into READING at the same event (log 25). -/
def State.requestLaneLock (n : Fin 4) (s : State) : State :=
  match s.lanes[n].batch with
  | none => s
  | some b =>
    let e : LockEntry := { owner := .lane n, first := b.first, count := b.length }
    if grantable s.slk.held s.slk.waiting e then (s.updSlk fun k => { k with held := k.held ++ [e] }).enterReading n
    else s.updSlk fun k => { k with waiting := k.waiting ++ [e] }

/-- The owner's entry leaves the held table. -/
def State.dropHeld (o : LockOwner) (s : State) : State :=
  s.updSlk fun k => { k with held := k.held.filter fun e => e.owner != o }

/-- The owner's request leaves the wait list. -/
def State.dropWaiting (o : LockOwner) (s : State) : State :=
  s.updSlk fun k => { k with waiting := k.waiting.filter fun e => e.owner != o }

/-! ## CLAIM (R93, R94) -/

/-- A range check of R75 and R93: a count from 1 to 16, and the range within T. -/
def Profile.rangeFits (p : Profile) (first count : Nat) : Bool := decide (1 ≤ count) && decide (count ≤ 16) && decide (first + count ≤ p.t)

/-- Whether a claim with the tag is held or waiting (R93). -/
def Slk.tagInUse (k : Slk) (tag : Byte) : Bool := (k.held ++ k.waiting).any fun e => e.owner == .claim tag

/-- How many claims wait (R88). -/
def Slk.waitingClaims (k : Slk) : Nat := k.waiting.countP fun e => e.owner.isClaim

/-- The first check of R93 that fails, or none. -/
def State.claimProblem (tag : Byte) (first count : Nat) (s : State) : Option RouteStatus :=
  if s.ses.state = .absent then some .noSession
  else if s.ses.state.isEnded then some .spareVoid
  else if !s.profile.rangeFits first count then some .range
  else if s.slk.tagInUse tag then some .tagInUse
  else if !grantable s.slk.held s.slk.waiting { owner := .claim tag, first := first, count := count } &&
    decide (claimWaitLimit ≤ s.slk.waitingClaims) then some .busy
  else none

/-- A CLAIM taken by SLK (R93, R94, R81). -/
def State.takeClaim (tag : Byte) (first count : Nat) (s : State) : State :=
  match s.claimProblem tag first count with
  | some status => s.answer (plainAnswer tag kindClaim status first)
  | none =>
    let e : LockEntry := { owner := .claim tag, first := first, count := count }
    if grantable s.slk.held s.slk.waiting e then
      ((s.updSlk fun k => { k with held := k.held ++ [e] }).answer (s.grantedAnswer tag first count)).contribute first count
    else
      ((s.updSlk fun k => { k with waiting := k.waiting ++ [e] }).updRtu fun r =>
        { r with reservations := r.reservations + 1 }).contribute first count

/-! ## Coverage (R105) and the end of a session (R106, R107) -/

/-- Whether a held claim covers the stripe (R105). -/
def Slk.heldClaimCovers (k : Slk) (stripe : Nat) : Bool := k.held.any fun e => e.owner.isClaim && e.covers stripe

/-- The answers to the waiting claims at the end or closing of a session, in wait-list order (R106, R107). -/
def Slk.closingAnswers (k : Slk) (status : RouteStatus) : List Answer :=
  k.waiting.filterMap fun e => match e.owner with
    | .lane _ => none
    | .claim tag => some (plainAnswer tag kindClaim status e.first)

/-- SLK empties both collections and answers every waiting claim through its reservation (R82, R106, R107). -/
def State.emptyLocks (status : RouteStatus) (s : State) : State :=
  (s.updRtu fun r => { r with answers := r.answers ++ s.slk.closingAnswers status, reservations := 0 }).updSlk fun _ => Slk.reset

end Sys2Proof.Machine
end

