-- ==== Sys2Proof/Machine/Qualification.lean ====
section
/-! DEFINITION. The qualification of the spare (section 2.4): the pattern, the write and the read of an attempt. What SES does
with an attempt's outcome stands in Machine/Completions.lean. -/

namespace Sys2Proof.Machine

/-- Byte i of block j of qualification strip k (R24). -/
def patternByte (k j i : Nat) : Byte := BitVec.ofNat 8 (i + 7 * j + 31 * k)

/-- The pattern of qualification strip k over L blocks (R24). -/
def patternBytes (k l : Nat) : List Byte :=
  (List.range l).flatMap fun j => (List.range 4096).map fun i => patternByte k j i

/-- The pattern buffer: place 0 of the qualification set (R111). -/
def Ses.patternBuf (e : Ses) : BufId := e.qualSet.getD 0 0

/-- The read-back buffer: place 1 of the qualification set (R111). -/
def Ses.readBackBuf (e : Ses) : BufId := e.qualSet.getD 1 0

/-- The qualification area's start, Aq. -/
def Ses.areaStart (e : Ses) : Nat := (e.qualArea.map (·.1)).getD 0

/-- The number of qualification strips, Kq. -/
def Ses.stripCount (e : Ses) : Nat := (e.qualArea.map (·.2)).getD 0

/-- The request of an attempt on strip k: one extent at position F (R14, R25, R26). -/
def State.qualRequest (s : State) (kind : RequestKind) (k : Nat) (buf : BufId) : Request :=
  newRequest kind s.spare (qualExtent s.ses.areaStart s.profile.l k) buf .qualification

/-- Sets the qualification progress. -/
def State.setProgress (q : QualProgress) (s : State) : State := s.updSes fun e => { e with qualProgress := some q }

/-- An attempt begins: the pattern is filled in, and its QWRITE submitted (R25), unless a quarantined request still names the
pattern buffer (R23; log 13). -/
def State.beginAttempt (q : QualProgress) (s : State) : State :=
  if s.mru.namesQuarantined s.ses.patternBuf then s.setProgress { q with held := .fill }
  else
    ((s.writeMem (blockAddress s.ses.patternBuf 0) (patternBytes q.strip s.profile.l)).setProgress
      { q with phase := .writing, held := .none }).submit (s.qualRequest .qwrite q.strip s.ses.patternBuf)

/-- The read-back of an attempt: its QREAD is submitted (R26), unless a quarantined request still names the read-back buffer
(R23; log 13). -/
def State.beginReadBack (q : QualProgress) (s : State) : State :=
  if s.mru.namesQuarantined s.ses.readBackBuf then s.setProgress { q with held := .read }
  else
    (s.setProgress { q with phase := .reading, held := .none }).submit (s.qualRequest .qread q.strip s.ses.readBackBuf)

/-- A step that waited for its buffer is taken when the buffer is free of quarantines (R23, R152). -/
def State.resumeHeldStep (s : State) : State :=
  match s.ses.qualProgress with
  | none => s
  | some q =>
    match q.held with
    | .none => s
    | .fill => s.beginAttempt q
    | .read => s.beginReadBack q

end Sys2Proof.Machine
end

