-- ==== Sys2Proof/Machine/Buffers.lean ====
section
/-! DEFINITION. SBP (section 6.2): buffer requests, grants, the scan of the wait list, and the return of sets. -/

namespace Sys2Proof.Machine

/-- The grant of a set to its owner: a lane enters LOCKING and makes its lock request (R115); qualification begins its first
attempt (R23). -/
def State.grantSet (owner : Owner) (bufs : List BufId) (s : State) : State :=
  match owner with
  | .lane n => (s.updLane n fun l => { l with bufs := bufs, stage := .locking }).requestLaneLock n
  | .qualification =>
    let s := s.updSes fun e => { e with qualSet := bufs }
    match s.ses.qualProgress with
    | none => s
    | some q => s.beginAttempt q

/-- A grant takes the lowest-numbered buffers of the free pool, as many as the size (R111). -/
def State.grantBuffers (r : BufRequest) (s : State) : State :=
  (s.updSbp fun p => { p with free := p.free.drop r.size }).grantSet r.owner (s.sbp.free.take r.size)

/-- A buffer request reaches SBP (R111). -/
def State.requestBuffers (r : BufRequest) (s : State) : State :=
  if s.sbp.waiting.isEmpty && decide (r.size ≤ s.sbp.free.length) then s.grantBuffers r
  else s.updSbp fun p => { p with waiting := p.waiting ++ [r] }

/-- The scan of the wait list over the requests still to be examined: it stops at the first head that does not fit (R112). -/
def State.scanBuffersFrom : List BufRequest → State → State
  | [], s => s
  | r :: rest, s =>
    if r.size ≤ s.sbp.free.length then
      State.scanBuffersFrom rest ((s.updSbp fun p => { p with waiting := rest }).grantBuffers r)
    else s

/-- SBP scans its wait list (R112). -/
def State.scanBuffers (s : State) : State := State.scanBuffersFrom s.sbp.waiting s

/-- The free pool with the buffers added, in ascending order. -/
def joinFree (free back : List BufId) : List BufId := (List.finRange 128).filter fun b => free.contains b || back.contains b

/-- A set leaves its owner: buffers that a quarantined request names pass to the quarantine hold, the others to the free pool
(R113). -/
def State.returnSet (bufs : List BufId) (s : State) : State :=
  let held := bufs.filter s.mru.namesQuarantined
  let back := bufs.filter fun b => !s.mru.namesQuarantined b
  s.updSbp fun p => { p with free := joinFree p.free back, quarantineHold := p.quarantineHold ++ held }

/-- Buffers of the quarantine hold that no quarantined request names any longer join the free pool (R113). -/
def State.releaseHold (s : State) : State :=
  let back := s.sbp.quarantineHold.filter fun b => !s.mru.namesQuarantined b
  s.updSbp fun p =>
    { p with free := joinFree p.free back, quarantineHold := p.quarantineHold.filter s.mru.namesQuarantined }

end Sys2Proof.Machine
end

