-- ==== Sys2Proof/Machine/Assignment.lean ====
section
/-! DEFINITION. RGT's assignment passes (R56 to R61): a lane is handed a batch and enters BUFFERING. -/

namespace Sys2Proof.Machine

/-- A lane is eligible in RUNNING (R56). -/
def State.eligible (n : Fin 4) (s : State) : Bool :=
  s.lanes[n].stage == .idle && s.ses.state == .running && decide (n.val < s.ses.laneCount)

/-- A lane is handed a batch, enters BUFFERING and makes its buffer request (R59, R109, R111). -/
def State.assign (n : Fin 4) (b : Batch) (s : State) : State :=
  (s.updLane n fun l => { l with batch := some b, stage := .buffering }).requestBuffers
    { owner := .lane n, size := s.profile.n * b.length }

/-- RGT serves one lane: none when no batch is left (R58, R59, R61). -/
def State.serveLane (n : Fin 4) (s : State) : Option State :=
  (s.rgt.nextBatch s.profile.rs (s.ses.batchSize.getD 0)).map fun x => (s.updRgt fun _ => x.2).assign n x.1

/-- A pass over the lanes of the list: each eligible one is served, until no batch is left (R56, R57, R61). -/
def State.passOver : List (Fin 4) → State → State
  | [], s => s
  | n :: rest, s =>
    if s.eligible n then
      match s.serveLane n with
      | none => s
      | some s' => State.passOver rest s'
    else State.passOver rest s

/-- A pass over all lanes, in ascending lane number (R57). -/
def State.assignmentPass (s : State) : State := State.passOver allLanes s

/-- The pass made at a STEP: LN0 is offered one batch, whatever the lane count (R60). -/
def State.stepPass (s : State) : State := if s.lanes[0].stage = .idle then (s.serveLane 0).getD s else s

end Sys2Proof.Machine
end

