-- ==== Sys2Proof/Machine/BatchEnd.lean ====
section
/-! DEFINITION. The end of a batch: SETTLING and HOLDING (R125 to R127), the outcome (R128), the seven steps of R129, and the
session's exits (R30, R31, R33, R34). -/

namespace Sys2Proof.Machine

/-! ## The session's exits -/

/-- Every region is REBUILT and every lane is IDLE (R34). -/
def State.rebuildDone (s : State) : Bool := s.rgt.allRebuilt && s.allIdle

/-- The state becomes COMPLETE, with REBUILD_COMPLETE (R34). -/
def State.complete (s : State) : State := (s.changeState .complete).setEvent .rebuildComplete

/-- COMPLETE when every region is REBUILT, and `other` otherwise. -/
def State.completeOr (other : SessionState) (s : State) : State :=
  if s.rgt.allRebuilt then s.complete else s.changeState other

/-- DRAINING is left when every lane is IDLE (R31). -/
def State.drainingExit (s : State) : State := if s.allIdle then s.completeOr .paused else s

/-- STEPPING is left when LN0 is IDLE, with STEP_DONE (R33). -/
def State.steppingExit (s : State) : State :=
  if s.lanes[0].stage = .idle then (s.setEvent .stepDone).completeOr .paused else s

/-- SES's completion test as it stands in each state when a lane goes IDLE (R31, R33, R34). In SUSPENDED it is the exit test
of R30, made apart. -/
def State.completionTest (s : State) : State :=
  match s.ses.state with
  | .running => if s.rebuildDone then s.complete else s
  | .draining => s.drainingExit
  | .stepping => s.steppingExit
  | _ => s

/-- The exit test of SUSPENDED when the last holder has left HOLDING (R30). -/
def State.suspendedExit (s : State) : State :=
  if s.ses.state = .suspended ∧ s.holdingOrder = [] then
    if s.rebuildDone then s.complete else s.changeState .running
  else s

/-! ## Offers (R125, R177, R179) -/

/-- The results of a stripe of the lane's batch. -/
def Lane.resultOf (l : Lane) (stripe : Nat) : StripeResult :=
  match l.batch with
  | none => StripeResult.empty
  | some b => l.results.getD (stripe - b.first) StripeResult.empty

/-- The record a stripe's results make (R125). -/
def Lane.recordOf (l : Lane) (stripe : Nat) : Record :=
  let r := l.resultOf stripe
  { stripe := stripe, lost := r.lost, suspect := r.suspect, contributors := r.contributors }

/-- A stripe's results call for a record: its lost mask or its suspect mask is nonempty (R125). -/
def StripeResult.needsRecord (r : StripeResult) : Bool := r.lost != 0 || r.suspect != 0

/-- The pending offers at the entry into SETTLING (R125). -/
def Lane.firstOffers (l : Lane) : List Nat :=
  match l.batch with
  | none => []
  | some b => b.stripes.filter fun stripe => (l.resultOf stripe).needsRecord

/-- The lane offers its pending records in order, head first, until one is turned away (R125, R127): true when all were
accepted. The list is the lane's pending offers. -/
def State.offerAll (n : Fin 4) : List Nat → State → State × Bool
  | [], s => (s, true)
  | stripe :: rest, s =>
    let (s, accepted) := s.offer (s.lanes[n].recordOf stripe)
    if accepted then State.offerAll n rest (s.updLane n fun l => { l with offers := rest }) else (s, false)

/-! ## The end of a batch (R128, R129) -/

/-- The outcome of a batch that ends: RECORDED when it produced an offer, which was then accepted, and CLEAN otherwise
(R128). -/
def Lane.endOutcome (l : Lane) : LaneOutcome := if l.results.any StripeResult.needsRecord then .recorded else .clean

/-- Step 5 of R129 at RGT: the rebuilt-stripe count rises, and the region completion test is made (R62, R63). -/
def State.reportBatch (b : Batch) (s : State) : State :=
  (s.updRgt fun g => { g with rebuiltStripes := g.rebuiltStripes.map (· + b.length) }).testRegion b.region

/-- Steps 1 and 2 of R129: the outcome is set, and the batch and its REBUILD entry are given up. -/
def State.giveUpBatch (n : Fin 4) (s : State) : State :=
  (s.updLane n fun l => { l with outcome := l.endOutcome, batch := none }).dropHeld (.lane n)

/-- Step 3 of R129: the buffer set returns to SBP. -/
def State.giveUpBuffers (n : Fin 4) (s : State) : State :=
  (s.returnSet s.lanes[n].bufs).updLane n fun l => { l with bufs := [] }

/-- Step 4 of R129: the lane's record is cleared, keeping its last outcome. -/
def State.clearLane (n : Fin 4) (s : State) : State := s.updLane n fun l => { Lane.reset with outcome := l.outcome }

/-- Step 7 of R129: in RUNNING, a pass over every eligible lane when SUSPENDED has just been left, and for this lane
otherwise. -/
def State.passAfterBatch (n : Fin 4) (returned : Bool) (s : State) : State :=
  if s.ses.state = .running then (if returned then s.assignmentPass else s.passOver [n]) else s

/-- A lane ends its batch (R129). -/
def State.endBatch (n : Fin 4) (s : State) : State :=
  match s.lanes[n].batch with
  | none => s
  | some b =>
    let suspended := s.ses.state == .suspended
    let s := (s.giveUpBatch n).scanLocks
    let s := (s.giveUpBuffers n).scanBuffers
    let s := ((s.clearLane n).reportBatch b).completionTest
    s.suspendedExit.passAfterBatch n suspended

/-! ## SETTLING and HOLDING (R125 to R127) -/

/-- A lane enters HOLDING, which makes a RUNNING session SUSPENDED (R30, R126). -/
def State.enterHolding (n : Fin 4) (s : State) : State :=
  let s := s.updLane n fun l => { l with stage := .holding }
  let s : State := { s with holdingOrder := s.holdingOrder ++ [n] }
  if s.ses.state = .running then s.changeState .suspended else s

/-- A lane enters SETTLING, makes its offers, and ends its batch or enters HOLDING (R125). -/
def State.enterSettling (n : Fin 4) (s : State) : State :=
  let offers := s.lanes[n].firstOffers
  match State.offerAll n offers (s.updLane n fun l => { l with stage := .settling, offers := offers }) with
  | (s, true) => s.endBatch n
  | (s, false) => s.enterHolding n

/-- The holders are served in holding order, oldest first, until one is turned away (R127). The list is the holding order. -/
def State.serveHolders : List (Fin 4) → State → State
  | [], s => s
  | n :: rest, s =>
    match State.offerAll n s.lanes[n].offers s with
    | (s, true) => State.serveHolders rest (({ s with holdingOrder := rest } : State).endBatch n)
    | (s, false) => s

/-- What follows a retirement (R127). -/
def State.afterRetirement (s : State) : State := State.serveHolders s.holdingOrder s

end Sys2Proof.Machine
end

