-- ==== Sys2Proof/Machine/SessionEnd.lean ====
section
/-! DEFINITION. The end of a session (R40, R106, R132, R155), what RESET_ENGINE shares with it (R133), and the escalation of
faults (R36 to R38, R119, R122). -/

namespace Sys2Proof.Machine

/-! ## Abandonment (R132, R133) -/

/-- A lane that holds a batch is abandoned: its set returns to SBP, its record is cleared, its outcome is ABANDONED (R132). -/
def State.abandonLane (s : State) (n : Fin 4) : State :=
  if s.lanes[n].holdsBatch then
    (s.returnSet s.lanes[n].bufs).updLane n fun _ => { Lane.reset with outcome := .abandoned }
  else s

/-- Qualification's request is withdrawn with SBP's wait list and its set returned (R40, R133). -/
def State.abandonQualification (s : State) : State :=
  (s.returnSet s.ses.qualSet).updSes fun e => { e with qualSet := [], qualProgress := none }

/-- All work is abandoned: MRU is cleared, SBP's wait list, the holding order and the solve contexts are emptied, lanes and
qualification return their buffers (R40, R132, R133, R155). -/
def State.abandonAll (s : State) : State :=
  let s := (s.clearAll).updSbp fun p => { p with waiting := [] }
  let s := (allLanes.foldl State.abandonLane s).abandonQualification
  ({ s with holdingOrder := [] } : State).updRcd fun r => { r with contexts := Vector.replicate 4 none }

/-- The session enters FAILED or BROKEN (R40). -/
def State.endSession (new : SessionState) (cause : Cause) (s : State) : State :=
  (((s.abandonAll).emptyLocks .spareVoid).updSes fun e => { e with cause := cause }).changeState new

/-! ## Faults (R36 to R38) -/

/-- The faulted position's status becomes MISSING in one stripe (R119, R122). -/
def missingAt (x : Nat) (row : List ReadCell) : List ReadCell :=
  row.modify x fun c => { c with status := .missing, left := 0 }

/-- How many of the lane's requests to position x have not settled (R119). -/
def Lane.unsettled (l : Lane) (x : Nat) : Nat :=
  (l.reads.map fun row => (row[x]?.map (·.left)).getD 0).sum

/-- What a first survivor fault does to one lane: in READING (R119, R120) and in SOLVING (R122). -/
def State.faultLane (x : Nat) (s : State) (n : Fin 4) : State :=
  match s.lanes[n].stage with
  | .reading =>
    let s := s.updLane n fun l =>
      { l with outstanding := l.outstanding - l.unsettled x, reads := l.reads.map (missingAt x) }
    if s.lanes[n].outstanding = 0 then s.enterSolving n else s
  | .solving => s.updLane n fun l => { l with reads := l.reads.map (missingAt x) }
  | _ => s

/-- A survivor becomes FAULTED, and MEMBER_FAULTED is set (Table 2-5). -/
def State.markFaulted (x : Nat) (s : State) : State :=
  (s.updSes fun e => { e with roles := e.roles.set x .faulted }).setEvent .memberFaulted

/-- The first survivor fault (Table 2-5, R38). -/
def State.firstFault (x : Nat) (s : State) : State :=
  let s := ((s.markFaulted x).updSes fun e => { e with faultedSurvivor := some x }).clearPosition x
  allLanes.foldl (State.faultLane x) s

/-- SES takes a fault of position x (R36, R37). -/
def State.takeFault (x : Nat) (s : State) : State :=
  if !s.ses.state.isOpen then s
  else match s.ses.roles[x]? with
    | none => s
    | some .faulted => s
    | some .spare => s.endSession .failed .spareLost
    | some .survivor =>
      match s.ses.faultedSurvivor with
      | none => s.firstFault x
      | some _ => (s.markFaulted x).endSession .broken .tooManyFaults

end Sys2Proof.Machine
end

