-- ==== Sys2Proof/Machine/Reconstruct.lean ====
section
/-! DEFINITION. RCD (chapter 8): the byte field, the two parity equations, the missing set, the solve cases of Table 8-2, the
fill, and the block RCD takes. -/

namespace Sys2Proof.Machine

/-! ## The byte field (R157 to R159) -/

/-- Doubling: a left shift, reduced by 0x11D when bit 8 comes out (R157). -/
def double (x : Byte) : Byte := if x.msb then (x <<< 1) ^^^ 0x1D else x <<< 1

/-- Repeated doubling and adding over `n` bits of y (R158). -/
def mulSteps : Nat → Byte → Byte → Byte
  | 0, _, _ => 0
  | n + 1, x, y => (if y.getLsbD 0 then x else 0) ^^^ mulSteps n (double x) (y >>> 1)

/-- The product of two bytes (R158). -/
def gmul (x y : Byte) : Byte := mulSteps 8 x y

/-- g^d, the generator doubled d times (R158, Table 8-1). -/
def gpow : Nat → Byte
  | 0 => 1
  | d + 1 => double (gpow d)

/-- Halving: the inverse of doubling (R159). -/
def halve (x : Byte) : Byte := if x.getLsbD 0 then (x >>> 1) ^^^ 0x8E else x >>> 1

/-- Halving a times: multiplication by g^(−a) (R159). -/
def halveTimes : Nat → Byte → Byte
  | 0, x => x
  | a + 1, x => halveTimes a (halve x)

/-- The byte whose product with c is 1; 0 for 0, which is never divided by (R159). -/
def inverse (c : Byte) : Byte :=
  (((List.range 256).map (BitVec.ofNat 8)).find? fun y => gmul c y == 1).getD 0

/-! ## One byte of every strip (R160) -/

/-- Byte i of block b of every position's strip, by position. -/
abbrev Column := List Byte

/-- The byte of data index d. -/
def Column.data (c : Column) (p : Profile) (s d : Nat) : Byte := c.getD (p.dataPos s d) 0

/-- The P byte. -/
def Column.p (c : Column) (p : Profile) (s : Nat) : Byte := c.getD (p.pPos s) 0

/-- The Q byte. -/
def Column.q (c : Column) (p : Profile) (s : Nat) : Byte := c.getD (p.qPos s) 0

/-- The data indices of a stripe other than those of the list. -/
def Profile.dataExcept (p : Profile) (out : List Nat) : List Nat := (List.range (p.n - 2)).filter fun d => !out.contains d

/-- The plain sum of the data over the indices. -/
def Column.sumP (c : Column) (p : Profile) (s : Nat) (ds : List Nat) : Byte :=
  ds.foldr (fun d acc => c.data p s d ^^^ acc) 0

/-- The weighted sum of the data over the indices. -/
def Column.sumQ (c : Column) (p : Profile) (s : Nat) (ds : List Nat) : Byte :=
  ds.foldr (fun d acc => gmul (gpow d) (c.data p s d) ^^^ acc) 0

/-! ## The solve cases (Table 8-2) -/

/-- What RCD does with a block. `useP` names the equation a lone data byte is found from; `inv` is the inverse of
g^a ⊕ g^b. -/
inductive SolveCase where
  /-- R164, R169: data a from P. -/
  | dataFromP (a : Nat)
  /-- R168: data a from Q. -/
  | dataFromQ (a : Nat)
  /-- R165, R170: P recomputed. -/
  | recomputeP
  /-- R166, R170: Q recomputed. -/
  | recomputeQ
  /-- R167: two data, a below b; `wantLow` when F holds a. -/
  | twoData (a b : Nat) (inv : Byte) (wantLow : Bool)
  /-- R168: data a from Q, then P. -/
  | pThroughQ (a : Nat)
  /-- R169: data a from P, then Q. -/
  | qThroughP (a : Nat)
  /-- R171: the block is lost. -/
  | fill
  deriving DecidableEq, Repr

/-- The two-data case of indices d (F's) and e (the other's) (R167). -/
def twoDataCase (d e : Nat) : SolveCase :=
  if d < e then .twoData d e (inverse (gpow d ^^^ gpow e)) true else .twoData e d (inverse (gpow e ^^^ gpow d)) false

/-- The case that fits a missing set (R163, Table 8-2). -/
def solveCase (p : Profile) (s f : Nat) (missing : List Nat) : SolveCase :=
  match missing.filter (· != f) with
  | [] =>
    match p.role s f with
    | .data a => .dataFromP a
    | .p => .recomputeP
    | .q => .recomputeQ
  | [x] =>
    match p.role s f, p.role s x with
    | .data d, .data e => twoDataCase d e
    | .data a, .p => .dataFromQ a
    | .p, .data a => .pThroughQ a
    | .data a, .q => .dataFromP a
    | .q, .data a => .qThroughP a
    | .p, _ => .recomputeP
    | .q, _ => .recomputeQ
  | _ => .fill

/-- Data a from the P equation (R164). -/
def Column.fromP (c : Column) (p : Profile) (s a : Nat) : Byte := c.p p s ^^^ c.sumP p s (p.dataExcept [a])

/-- Data a from the Q equation (R164, R168). -/
def Column.fromQ (c : Column) (p : Profile) (s a : Nat) : Byte :=
  halveTimes a (c.q p s ^^^ c.sumQ p s (p.dataExcept [a]))

/-- The spare's byte by the case; a filled block takes no byte from here (R164 to R170). -/
def SolveCase.value (k : SolveCase) (p : Profile) (s : Nat) (c : Column) : Byte :=
  match k with
  | .dataFromP a => c.fromP p s a
  | .dataFromQ a => c.fromQ p s a
  | .recomputeP => c.sumP p s (p.dataExcept [])
  | .recomputeQ => c.sumQ p s (p.dataExcept [])
  | .twoData a b inv wantLow =>
    let pxy := c.p p s ^^^ c.sumP p s (p.dataExcept [a, b])
    let qxy := c.q p s ^^^ c.sumQ p s (p.dataExcept [a, b])
    let low := gmul (gmul (gpow b) pxy ^^^ qxy) inv
    if wantLow then low else pxy ^^^ low
  | .pThroughQ a => c.fromQ p s a ^^^ c.sumP p s (p.dataExcept [a])
  | .qThroughP a => gmul (gpow a) (c.fromP p s a) ^^^ c.sumQ p s (p.dataExcept [a])
  | .fill => 0

/-- Whether the cross-check of R164 to R166 passes for a byte with F alone missing. -/
def SolveCase.agrees (k : SolveCase) (p : Profile) (s : Nat) (c : Column) : Bool :=
  match k with
  | .dataFromP a => c.fromQ p s a == c.fromP p s a
  | .recomputeP => c.sumQ p s (p.dataExcept []) == c.q p s
  | .recomputeQ => c.sumP p s (p.dataExcept []) == c.p p s
  | _ => true

/-! ## A block -/

/-- Applies `f` to each of the first `n` columns of the strips. -/
def mapColumns {α : Type} (f : Column → α) : Nat → List (List Byte) → List α
  | 0, _ => []
  | n + 1, strips => f (strips.map fun bytes => bytes.headD 0) :: mapColumns f n (strips.map List.tail)

/-- Bytes of a block (R110). -/
def blockBytes : Nat := 4096

/-- Block b of every position's strip of the stripe at place i, from the lane's buffers (R160). -/
def State.blockStrips (s : State) (n : Fin 4) (i b : Nat) : List (List Byte) :=
  (List.range s.profile.n).map fun x =>
    s.mem.bytesAt (blockAddress (bufferAt s.lanes[n].bufs s.profile.n i x) b) blockBytes

/-- Whether position x is missing from block b, given its cell of the read record (R162). -/
def State.isMissing (s : State) (cell : ReadCell) (b x : Nat) : Bool :=
  s.isExcluded x || match cell.status with
    | .missing => true
    | .part mask => Mask.holds mask b
    | _ => false

/-- The missing set of block b of the stripe at place i, in ascending position order (R162). -/
def State.missingSet (s : State) (n : Fin 4) (i b : Nat) : List Nat :=
  (List.range s.profile.n).filter fun x =>
    s.isMissing ((((s.lanes[n].reads.getD i [])[x]?)).getD { status := .good, left := 0, sawMissing := false, sawMask := 0 }) b x

/-- The fill of a lost block (R172). -/
def fillBytes (kind : FillKind) (stripe b : Nat) : List Byte :=
  match kind with
  | .zero => List.replicate blockBytes 0
  | .marked => leBytes 4 stripe ++ leBytes 1 b ++ List.replicate (blockBytes - 5) 0xDB

/-- The bytes RCD writes for block b of a stripe (R163, R171). -/
def State.solvedBytes (s : State) (k : SolveCase) (n : Fin 4) (i stripe b : Nat) : List Byte :=
  if k = .fill then fillBytes (s.ses.fillKind.getD .zero) stripe b
  else mapColumns (k.value s.profile stripe) blockBytes (s.blockStrips n i b)

/-- Whether the block enters the suspect mask: F alone is missing, the check setting is ON, and some byte disagrees (R164 to
R166). -/
def State.isSuspect (s : State) (k : SolveCase) (missing : List Nat) (n : Fin 4) (i stripe b : Nat) : Bool :=
  s.rcd.check && (missing.filter (· != s.spare)).isEmpty &&
    !(mapColumns (k.agrees s.profile stripe) blockBytes (s.blockStrips n i b)).all id

/-- Positions joined into a list in ascending order, none twice (R171). -/
def joinPositions (a b : List Nat) : List Nat := (List.range 16).filter fun x => a.contains x || b.contains x

/-- A block is added to its stripe's results (R164 to R166, R171). -/
def StripeResult.addBlock (r : StripeResult) (lost suspect : Bool) (b : Nat) (others : List Nat) : StripeResult :=
  if lost then { r with lost := r.lost ||| Mask.single b, contributors := joinPositions r.contributors others }
  else if suspect then { r with suspect := r.suspect ||| Mask.single b }
  else r

/-- The place after block b of stripe place i: none after the last block of the last stripe (R161). -/
def nextPlace (l length i b : Nat) : Option (Nat × Nat) :=
  if b + 1 < l then some (i, b + 1) else if i + 1 < length then some (i + 1, 0) else none

/-- Sets or deletes the solve context of a lane. -/
def State.setContext (n : Fin 4) (c : Option SolveContext) (s : State) : State :=
  s.updRcd fun r => { r with contexts := r.contexts.set n c }

/-- RCD takes the next block of the lane's batch, and reports the batch solved after the last (R121, R161). -/
def State.takeBlock (n : Fin 4) (s : State) : State :=
  match s.rcd.contexts[n], s.lanes[n].batch with
  | some c, some batch =>
    let stripe := batch.first + c.stripe
    let missing := s.missingSet n c.stripe c.block
    let k := solveCase s.profile stripe s.spare missing
    let others := missing.filter (· != s.spare)
    let suspect := s.isSuspect k missing n c.stripe stripe c.block
    let results := c.results.modify c.stripe fun r => r.addBlock (k = .fill) suspect c.block others
    let buf := bufferAt s.lanes[n].bufs s.profile.n c.stripe s.spare
    let s := s.writeMem (blockAddress buf c.block) (s.solvedBytes k n c.stripe stripe c.block)
    match nextPlace s.profile.l batch.length c.stripe c.block with
    | some (i, b) => s.setContext n (some { stripe := i, block := b, results := results })
    | none => (s.setContext n none).enterWriting n results
  | _, _ => s

end Sys2Proof.Machine
end

