-- ==== Sys2Proof/Machine/Completions.lean ====
section
/-! DEFINITION. MRU's completions, timeouts and quarantine ends (R142 to R152), and what a settlement does at its owner: a
lane (R118, R120, R123) or qualification (R25 to R27). -/

namespace Sys2Proof.Machine

/-- Outcomes of a settlement (R118, R143). -/
inductive Settlement where
  | good
  | medium (mask : Mask)
  | missing
  deriving DecidableEq, Repr

/-! ## A lane's settlement (R118, R120) -/

/-- A cell whose strip has one more settled request (R118). A cell that is not PENDING stays as it is. -/
def ReadCell.settle (c : ReadCell) (o : Settlement) : ReadCell :=
  if c.status = .pending then
    let mask := match o with
      | .medium m => c.sawMask ||| m
      | _ => c.sawMask
    let gone := c.sawMissing || o == .missing
    let left := c.left - 1
    let status : ReadStatus :=
      if left ≠ 0 then .pending else if gone then .missing else if mask ≠ 0 then .part mask else .good
    { status := status, left := left, sawMissing := gone, sawMask := mask }
  else c

/-- A READ of the lane has settled (R118, R120). The buffer's place in the set names the stripe (R111). -/
def State.settleRead (n : Fin 4) (r : Request) (o : Settlement) (s : State) : State :=
  if s.lanes[n].stage = .reading then
    let i := s.lanes[n].bufs.idxOf r.buf / s.profile.n
    let s := s.updLane n fun l =>
      { l with
        outstanding := l.outstanding - 1
        reads := l.reads.modify i fun row => row.modify r.position fun c => c.settle o }
    if s.lanes[n].outstanding = 0 then s.enterSolving n else s
  else s

/-- A WRITE of the lane has completed (R123). -/
def State.settleWrite (n : Fin 4) (s : State) : State :=
  if s.lanes[n].stage = .writing then
    let s := s.updLane n fun l => { l with outstanding := l.outstanding - 1 }
    if s.lanes[n].outstanding = 0 then s.enterSettling n else s
  else s

/-! ## Qualification's settlements (R25 to R27) -/

/-- The read-back buffer equals the pattern buffer over L blocks (R26). -/
def State.readBackMatches (s : State) : Bool :=
  s.mem.bytesAt (blockAddress s.ses.readBackBuf 0) (s.profile.l * blockBytes) ==
    s.mem.bytesAt (blockAddress s.ses.patternBuf 0) (s.profile.l * blockBytes)

/-- Whether an attempt passes: GOOD with every byte equal (R26). -/
def State.attemptPasses (o : Settlement) (s : State) : Bool := o == .good && s.readBackMatches

/-- Qualification finishes: its buffers return, the state becomes READY, and QUAL_DONE is set (R27). -/
def State.finishQualification (s : State) : State :=
  let s := (s.returnSet s.ses.qualSet).updSes fun e => { e with qualSet := [], qualProgress := none }
  ((s.scanBuffers).changeState .ready).setEvent .qualDone

/-- The outcome of an attempt (R27). -/
def State.attemptOutcome (q : QualProgress) (passed : Bool) (s : State) : State :=
  if passed then
    if q.strip + 1 < s.ses.stripCount then s.beginAttempt { q with strip := q.strip + 1, attempt := 1 }
    else s.finishQualification
  else if q.attempt < 5 then s.beginAttempt { q with attempt := q.attempt + 1 }
  else s.endSession .failed .qualMismatch

/-- Qualification's request has settled, taken by the phase (R23). -/
def State.settleQualification (o : Settlement) (s : State) : State :=
  match s.ses.qualProgress with
  | none => s
  | some q =>
    match q.phase with
    | .buffers => s
    | .writing => s.beginReadBack q
    | .reading => s.attemptOutcome q (s.attemptPasses o)

/-- MRU reports a settlement to the request's owner (R143, R144, R146, R149). -/
def State.settle (r : Request) (o : Settlement) (s : State) : State :=
  match r.owner with
  | none => s
  | some .qualification => s.settleQualification o
  | some (.lane n) => if r.kind.isWrite then s.settleWrite n else s.settleRead n r o

/-! ## Completions of an OUTSTANDING request (R143 to R147) -/

/-- A MEDIUM mask in strip block numbers: numbers at or above the block count are ignored, and the first strip block is
added (R144). -/
def Request.stripMask (r : Request) (mask : Mask) : Mask := (mask &&& (BitVec.ofNat 64 (2 ^ r.blocks - 1))) <<< r.firstBlock

/-- A request that has left the outstanding set ends with its tag free: `report` tells the owner, or fails the session; the freed
tag then goes to the tag wait order, and decisions follow (R139, R143 to R146; log 10). No record carries the tag while `report`
runs, so a request that it submits may take it: the model's choice (log 26). -/
def State.endWith (x : Nat) (report : State → State) (s : State) : State := (report s).serveTagWait.decideAfterFree x

/-- GOOD (R143). -/
def State.completeGood (r : Request) (s : State) : State :=
  (s.setTimeouts r.position 0).endWith r.position (State.settle r .good)

/-- MEDIUM (R144, R145). -/
def State.completeMedium (r : Request) (mask : Mask) (s : State) : State :=
  let s := s.setTimeouts r.position 0
  if !r.kind.isWrite then s.endWith r.position (State.settle r (.medium (r.stripMask mask)))
  else if r.rewritten then s.endWith r.position (State.endSession .failed .spareUnwritable)
  else (s.requeueHead { r with rewritten := true }).issueDecision r.position

/-- DEFER (R146). -/
def State.completeDefer (r : Request) (s : State) : State :=
  if r.defers < 7 then (s.requeueHead { r with defers := r.defers + 1 }).issueDecision r.position
  else if r.kind.isWrite then s.endWith r.position (State.endSession .failed .spareUnwritable)
  else s.endWith r.position (State.settle r .missing)

/-- LOST (R147): the request has ended and its tag is free when the fault is reported, so the tag wait order is served first
(R139; log 10). -/
def State.completeLost (r : Request) (s : State) : State := (s.serveTagWait.takeFault r.position).decideAfterFree r.position

/-- A quarantined request ends: its record is removed, and its tag is free (R152). -/
def State.removeQuarantined (tag : Nat) (s : State) : State :=
  s.updMru fun m => { m with quarantined := m.quarantined.filter fun r => r.tag != some tag }

/-- MRU reports the end of a quarantine to SBP: buffers that no quarantined request names any longer join the free pool, the
wait list is scanned (R113), and a held-back step of qualification is taken (R23). Decisions made here take no free tag while
positions wait for one (R139; log 10). -/
def State.reportQuarantineEnd (s : State) : State := s.releaseHold.scanBuffers.resumeHeldStep

/-- The end of a quarantine (R152): the request ends, SBP is told, the freed tag then goes to the tag wait order, and decisions
follow (R139; log 10). -/
def State.endQuarantine (tag : Nat) (s : State) : State := ((s.removeQuarantined tag).reportQuarantineEnd.serveTagWait).decideAll

/-! ## COMPLETION (R142, R209) -/

/-- Completion statuses of R209. -/
inductive CompletionStatus where
  | good | medium | defer | lost
  deriving DecidableEq, Repr

/-- The status of a status byte: none for 0x00 and for 0x05 and above (R209). -/
def completionStatus (b : Byte) : Option CompletionStatus :=
  if b = 1 then some .good
  else if b = 2 then some .medium
  else if b = 3 then some .defer
  else if b = 4 then some .lost
  else none

/-- The bytes the channel side has placed in the buffer's block range of a read (R143; log 6). A write places none. -/
def State.landData (r : Request) (data : List Byte) (s : State) : State :=
  if r.kind.isWrite then s
  else s.writeMem (blockAddress r.buf r.firstBlock) (data.take (r.blocks * blockBytes))

/-- MRU acts on a completion of an OUTSTANDING request, which has left the outstanding set (R142). -/
def State.completeRequest (r : Request) (status : CompletionStatus) (mask : Mask) (s : State) : State :=
  match status with
  | .good => s.completeGood r
  | .medium => s.completeMedium r mask
  | .defer => s.completeDefer r
  | .lost => s.completeLost r

/-- A completion arrives (R142, R209). An OUTSTANDING request has left its record, and so given up its tag, before its settlement
is reported: where R143 to R146 leave it open whether what the report submits may take that tag, it may (log 26). -/
def State.takeCompletion (tag : Nat) (status : Byte) (mask : Mask) (data : List Byte) (s : State) : State :=
  match completionStatus status with
  | none => s
  | some st =>
    match s.mru.findOutstanding tag with
    | some r => ((s.landData r data).leaveOutstanding r.position tag).completeRequest r st mask
    | none =>
      match s.mru.findQuarantined tag with
      | some r => (s.landData r data).endQuarantine tag
      | none => s

/-! ## Timeouts (R149, R150) -/

/-- The successor of a timed-out write (R149). -/
def Request.successor (r : Request) : Request := { r with tag := none, deadline := none }

/-- Step 3 of R149: a read settles MISSING, a write gets a successor at the head of its queue. -/
def State.serveTimedOut (r : Request) (s : State) : State :=
  if r.kind.isWrite then s.requeueHead r.successor else s.settle r .missing

/-- An OUTSTANDING request times out (R149). -/
def State.timeOut (r : Request) (tag : Nat) (s : State) : State :=
  let x := r.position
  let count := min 3 ((s.mru.pos x).timeouts + 1)
  let s := (s.leaveOutstanding x tag).updMru fun m =>
    { m with quarantined := m.quarantined ++ [r.quarantine (s.now + m.timeout)] }
  let s := (s.setEvent .memberTimeout).setTimeouts x count
  let s := if count < 3 then s.serveTimedOut r else s.takeFault x
  s.issueDecision x

end Sys2Proof.Machine
end

