-- ==== Sys2Proof/Machine/Commands.lean ====
section
/-! DEFINITION. The host commands that SES, the lanes, RCD, MGP and LRL take (chapters 2, 6, 8, 9, 10): session control,
settings, reports, FORGIVE and RESET_ENGINE. Each answers the state it leaves and the reply. -/

namespace Sys2Proof.Machine

/-- A command accepted with an empty payload. -/
def accepted (s : State) : State × Reply := (s, .done [])

/-! ## OPEN_SESSION (R21, R22) -/

/-- The fill kind of a field (R205). -/
def fillKindOf (v : Nat) : Option FillKind := if v = 0 then some .zero else if v = 1 then some .marked else none

/-- The roles at the opening of a session (R22). -/
def openingRoles (n f : Nat) : List MemberRole := (List.range n).map fun x => if x = f then .spare else .survivor

/-- The progress qualification begins with (R23). -/
def QualProgress.start : QualProgress := { strip := 0, attempt := 1, phase := .buffers, held := .none }

/-- The session record of an accepted OPEN_SESSION (R22, R23). -/
def Ses.opened (n f b lanes : Nat) (fill : FillKind) (aq kq : Nat) (skip : Bool) : Ses :=
  { state := .absent, cause := .none, failedPos := some f, roles := openingRoles n f, faultedSurvivor := none,
    batchSize := some b, laneCount := clampTo 1 4 lanes, fillKind := some fill,
    qualArea := if skip then none else some (aq, kq), qualProgress := if skip then none else some QualProgress.start, qualSet := [] }

/-- The payload of OPEN_SESSION (Table 10-7). -/
def openedPayload (state : SessionState) (lanes : Nat) : List Byte := leBytes 1 state.toNat ++ leBytes 1 (clampTo 1 4 lanes)

/-- OPEN_SESSION (R21, R22). -/
def takeOpenSession (f b lanes fill start aq kq skipQual : Nat) (s : State) : State × Reply :=
  if s.ses.state ≠ .absent then (s, .refusedState)
  else match s.geo.profile, fillKindOf fill with
    | none, _ => (s, .refuse .incomplete)
    | some _, none => (s, .refuse .refusedRange)
    | some p, some kind =>
      if p.n ≤ f ∨ b < 1 ∨ 4 < b ∨ p.regionCount ≤ start then (s, .refuse .refusedRange)
      else
        let skip : Bool := skipQual != 0
        match s.geo.sessionProblem p f aq kq skip with
        | some code => (s, .refuse code)
        | none =>
          let s := ((s.updSes fun _ => Ses.opened p.n f b lanes kind aq kq skip).updRgt (Rgt.build p start)).zeroTimeouts
          if skip then (s.changeState .ready, .done (openedPayload .ready lanes))
          else
            ((s.changeState .qualifying).requestBuffers { owner := .qualification, size := 2 },
              .done (openedPayload .qualifying lanes))

/-! ## START, PAUSE, RESUME, STEP, ABORT (R29 to R33, R39) -/

/-- START (R29). The pass may take a lane as far as READING at this event (R111, R115, R101), so that its stripes are LOCKED at
once, against the last bullets of R79 and R84 (log 25). -/
def takeStart (s : State) : State × Reply :=
  if s.ses.state = .ready then accepted (s.changeState .running).assignmentPass else (s, .refusedState)

/-- PAUSE (R31). Every lane may already be IDLE, so the exit of DRAINING is tested at once (log 20). -/
def takePause (s : State) : State × Reply :=
  if s.ses.state = .running ∨ s.ses.state = .suspended then accepted (s.changeState .draining).drainingExit
  else (s, .refusedState)

/-- RESUME (R32). Its pass may leave stripes LOCKED at this event, as at a START (log 25). -/
def takeResume (s : State) : State × Reply :=
  if s.ses.state = .paused then accepted (s.changeState .running).assignmentPass else (s, .refusedState)

/-- STEP (R33, R60). A step that leaves LN0 IDLE ends at once (log 20). Its batch's stripes may be LOCKED at this event, as at a
START (log 25). -/
def takeStep (s : State) : State × Reply :=
  if s.ses.state = .ready ∨ s.ses.state = .paused then accepted ((s.changeState .stepping).stepPass).steppingExit
  else (s, .refusedState)

/-- ABORT (R39). -/
def takeAbort (s : State) : State × Reply :=
  if s.ses.state.isOpen then accepted (s.endSession .failed .hostAbort) else (s, .refusedState)

/-! ## CLOSE_SESSION (R41, R107, R189) -/

/-- The states in which CLOSE_SESSION is accepted (R41). -/
def SessionState.canClose : SessionState → Bool
  | .ready => true
  | .paused => true
  | .complete => true
  | .failed => true
  | .broken => true
  | _ => false

/-- The session returns to ABSENT, with the region table and the record list emptied and the lane count and H kept (R41,
R42). -/
def State.forgetSession (s : State) : State :=
  ((s.updRgt fun g => Rgt.empty g.heatThreshold).updLrl fun _ => { records := [] }).updSes fun e => Ses.absent e.laneCount

/-- CLOSE_SESSION (R41). -/
def takeCloseSession (s : State) : State × Reply :=
  if s.ses.state.canClose then accepted (((s.emptyLocks .noSession).forgetSession).setEvent .stateChange)
  else (s, .refusedState)

/-! ## MEMBER_DOWN (R36) -/

/-- MEMBER_DOWN (R36). -/
def takeMemberDown (x : Nat) (s : State) : State × Reply :=
  if !s.ses.state.isOpen then (s, .refusedState)
  else if s.profile.n ≤ x then (s, .refuse .refusedRange)
  else accepted (s.takeFault x)

/-! ## Settings (R130, R173, R198, R200) -/

/-- SET_LANES (R130, R67): a rise in RUNNING is served by a pass. -/
def takeSetLanes (count : Nat) (s : State) : State × Reply :=
  let count' := clampTo 1 4 count
  let s' := s.updSes fun e => { e with laneCount := count' }
  (if s.ses.state = .running ∧ s.ses.laneCount < count' then s'.assignmentPass else s', .done (leBytes 1 count'))

/-- The states in which SET_CHECK is taken (R173). -/
def SessionState.canSetCheck : SessionState → Bool
  | .absent => true
  | .ready => true
  | .paused => true
  | .complete => true
  | _ => false

/-- SET_CHECK (R173, R205). -/
def takeSetCheck (v : Nat) (s : State) : State × Reply :=
  if !s.ses.state.canSetCheck then (s, .refuse .refusedBusy)
  else if 2 ≤ v then (s, .refuse .refusedRange)
  else (s.updRcd fun r => { r with check := v == 1 }, .done (leBytes 1 v))

/-- SET_EVENT_ENABLES (R198). -/
def takeSetEventEnables (events : Nat) (s : State) : State × Reply :=
  (s.updMgp (Mgp.setEnables (eventSetOf events)), .done (eventBytes (eventSetOf events)))

/-- ACK_EVENTS (R200). -/
def takeAckEvents (events : Nat) (s : State) : State × Reply :=
  let s := s.updMgp (Mgp.ackEvents (eventSetOf events))
  (s, .done (eventBytes s.mgp.status))

/-! ## GET_STATUS (R196, R211) -/

/-- A count reported absent in ABSENT (R68). -/
def State.sessionCount (s : State) (v : Nat) : Option Nat := if s.ses.state = .absent then none else some v

/-- The qualification progress as reported: in QUALIFYING only (R196). -/
def State.reportedProgress (s : State) : Option QualProgress := if s.ses.state = .qualifying then s.ses.qualProgress else none

/-- One position's entry of the report (Table 10-7). -/
def State.positionEntry (s : State) (x : Nat) : List Byte :=
  leOption 1 (s.ses.roles[x]?.map MemberRole.toNat) ++ leBytes 1 (s.mru.pos x).timeouts

/-- The number of position entries: N with a profile, 0 without (R211). -/
def State.positionEntries (s : State) : Nat := (s.geo.profile.map (·.n)).getD 0

/-- One lane's entry of the report (Table 10-7). -/
def Lane.statusEntry (l : Lane) : List Byte := leBytes 1 l.stage.toNat ++ leBytes 1 l.outcome.toNat

/-- The GET_STATUS payload (Table 10-3a, Table 10-7). -/
def State.statusPayload (s : State) : List Byte :=
  leBytes 1 s.ses.state.toNat ++ leBytes 1 s.ses.cause.toNat ++ leOption 1 s.ses.failedPos ++
    leOption 1 s.ses.faultedSurvivor ++ leOption 1 (s.reportedProgress.map (·.strip)) ++
    leOption 1 (s.reportedProgress.map (·.attempt)) ++ leOption 2 s.rgt.rebuiltRegions ++ leOption 4 s.rgt.rebuiltStripes ++
    leOption 2 (s.sessionCount s.lrl.records.length) ++ (allLanes.flatMap fun n => s.lanes[n].statusEntry) ++
    eventBytes s.mgp.status ++ eventBytes s.mgp.enables ++ leBytes 1 s.ses.laneCount ++ leBytes 1 s.mru.paceLimit ++
    leBytes 2 s.mru.paceWindow ++ leBytes 2 s.mru.timeout ++ leBytes 1 s.rgt.heatThreshold ++
    leBytes 1 (if s.rcd.check then 1 else 0) ++ leBytes 1 s.positionEntries ++
    (List.range s.positionEntries).flatMap s.positionEntry

/-- GET_STATUS (R196). -/
def takeGetStatus (s : State) : State × Reply := (s, .done s.statusPayload)

/-! ## FORGIVE (R181, R182) -/

/-- The FORGIVE payload (Table 10-7). -/
def forgivePayload (r : Record) (left : Nat) : List Byte := maskBytes r.lost ++ maskBytes r.suspect ++ leBytes 2 left

/-- FORGIVE (R181, R182). The list length is read after the retirement, before the holders are served. -/
def takeForgive (stripe : Nat) (s : State) : State × Reply :=
  if !s.ses.state.isOpen then (s, .refusedState)
  else if s.profile.t ≤ stripe then (s, .refuse .refusedRange)
  else match s.lrl.find stripe with
    | none => (s, .refuse .refusedRange)
    | some r =>
      if s.slk.heldClaimCovers stripe then (s, .refuse .refusedBusy)
      else
        let s := (s.retire stripe).1
        (s.afterRetirement, .done (forgivePayload r s.lrl.records.length))

/-! ## RESET_ENGINE (R202) -/

/-- RESET_ENGINE (R42, R83, R107, R133, R155, R161, R189, R202). -/
def takeResetEngine (s : State) : State × Reply :=
  let s := (s.abandonAll.zeroTimeouts).forgetSession
  accepted (((s.updSlk fun _ => Slk.reset).updRtu fun _ => Rtu.reset).updMgp (Mgp.onlyEvent .engineReset))

end Sys2Proof.Machine
end

