-- ==== Sys2Proof/Machine/HostPort.lean ====
section
/-! DEFINITION. The Management Port (sections 10.1 and 10.2): arrival, the taking of commands, decoding, and the reading of
responses. -/

namespace Sys2Proof.Machine

/-- Capacity of the command queue and of the response queue (R190). -/
def commandCapacity : Nat := 16

/-- Capacity of the response queue (R190). -/
def responseCapacity : Nat := 16

/-- A decoded command is passed to the block that owns what it concerns (R194, Table 10-2). -/
def runCommand : HostCommand → State → State × Reply
  | .setGeometry n l t rs k => takeSetGeometry n l t rs k
  | .setSegments position first elements => takeSetSegments position first elements
  | .openSession f b lanes fill startRegion aq kq skipQual => takeOpenSession f b lanes fill startRegion aq kq skipQual
  | .start => takeStart
  | .pause => takePause
  | .resume => takeResume
  | .step => takeStep
  | .abort => takeAbort
  | .closeSession => takeCloseSession
  | .promote region => takePromote region
  | .demote region => takeDemote region
  | .memberDown position => takeMemberDown position
  | .setPace w window => takeSetPace w window
  | .setTimeout ms => takeSetTimeout ms
  | .setHeat h => takeSetHeat h
  | .setLanes count => takeSetLanes count
  | .setCheck setting => takeSetCheck setting
  | .setEventEnables events => takeSetEventEnables events
  | .ackEvents events => takeAckEvents events
  | .getStatus => takeGetStatus
  | .getRegion region => takeGetRegion region
  | .listRecords first maxCount => takeListRecords first maxCount
  | .forgive stripe => takeForgive stripe
  | .resetEngine => takeResetEngine

/-- What a decoded message does (R194). -/
def runDecoded : Decoded → State → State × Reply
  | .unknown, s => (s, .refuse .unknownCommand)
  | .badLength, s => (s, .refuse .refusedRange)
  | .command c, s => runCommand c s

/-- The response joins the tail of the response queue (R192). -/
def State.respond (tag : BitVec 16) (r : Reply) (s : State) : State :=
  s.updMgp fun m => { m with responses := m.responses ++ [{ tag := tag, reply := r }] }

/-- A message that has left the command queue is decoded and run, and its one response is written (R192, R194). -/
def State.takeMessage (m : CommandMessage) (s : State) : State :=
  let result := runDecoded (decodeCommand m.opcode m.params) s
  result.1.respond m.tag result.2

/-- The head of the command queue leaves it. -/
def Mgp.dropHead (m : Mgp) : Mgp := { m with commands := m.commands.tail }

/-- MGP takes commands while there is one and the response queue has room (R192). The fuel bounds the commands taken. -/
def State.takeCommandsFuel : Nat → State → State
  | 0, s => s
  | fuel + 1, s =>
    match s.mgp.commands with
    | [] => s
    | m :: _ =>
      if s.mgp.responses.length < responseCapacity then
        State.takeCommandsFuel fuel ((s.updMgp Mgp.dropHead).takeMessage m)
      else s

/-- MGP takes what it can take (R192). -/
def State.takeCommands (s : State) : State := State.takeCommandsFuel s.mgp.commands.length s

/-- A message joins the tail of the command queue, or is discarded with COMMAND_OVERRUN (R191). -/
def State.queueCommand (m : CommandMessage) (s : State) : State :=
  if s.mgp.commands.length < commandCapacity then s.updMgp fun g => { g with commands := g.commands ++ [m] }
  else s.setEvent .commandOverrun

/-- A command message arrives from the host, and MGP takes what it can take (R191, R192). -/
def State.commandArrives (m : CommandMessage) (s : State) : State := ((s.beginEvent).queueCommand m).takeCommands

/-- The host reads the head response, or the empty indication (R193). -/
def State.readResponse (s : State) : State :=
  match s.mgp.responses with
  | [] => s.emit (.response emptyResponse)
  | r :: rest => (((s.updMgp fun m => { m with responses := rest }).emit (.response r.bytes))).takeCommands

end Sys2Proof.Machine
end

