-- ==== Sys2Proof/Machine/RoutePort.lean ====
section
/-! DEFINITION. The Route Port (chapters 4 and 5): arrival, the taking of route requests, QUERY, RELEASE, and the reading of
answers. -/

namespace Sys2Proof.Machine

/-- Capacity of the request queue (R69). -/
def requestCapacity : Nat := 32

/-- Entries of the answer queue (R69). -/
def answerCapacity : Nat := 64

/-! ## QUERY (R75, R81) -/

/-- The first check of R75 that fails, or none. -/
def State.queryProblem (first count : Nat) (s : State) : Option RouteStatus :=
  if s.ses.state = .absent then some .noSession
  else if s.ses.state.isEnded then some .spareVoid
  else if !s.profile.rangeFits first count then some .range
  else none

/-- The REPORTED answer (R75, R208). -/
def State.reportedAnswer (tag : Byte) (first count : Nat) (s : State) : Answer :=
  { tag := tag, kind := kindQuery, status := .reported, number := count, stripe := first, entries := s.dispositions first count }

/-- A QUERY taken by RTU (R75, R81). -/
def State.takeQuery (tag : Byte) (first count : Nat) (s : State) : State :=
  match s.queryProblem first count with
  | some status => s.answer (plainAnswer tag kindQuery status first)
  | none => (s.answer (s.reportedAnswer tag first count)).contribute first count

/-! ## RELEASE (R97 to R99) -/

/-- The held claim with the tag. -/
def Slk.heldClaim (k : Slk) (tag : Byte) : Option LockEntry := k.held.find? fun e => e.owner == .claim tag

/-- The waiting claim with the tag. -/
def Slk.waitingClaim (k : Slk) (tag : Byte) : Option LockEntry := k.waiting.find? fun e => e.owner == .claim tag

/-- The RELEASED answer, with the number of records retired (R208). -/
def releasedAnswer (tag : Byte) (retired : Nat) : Answer :=
  { tag := tag, kind := kindRelease, status := .released, number := retired, stripe := 0, entries := [] }

/-- The stripes a RELEASE of the claim retires: those of the overwritten list in its range, each once (R98). -/
def LockEntry.overwritten (e : LockEntry) (listed : List Nat) : List Nat := (listed.filter e.covers).eraseDups

/-- A RELEASE of a held claim: the four steps of R98, then the holders (R127). A stripe retired in step 1 becomes CURRENT
although another held claim may cover it, as R98 and R180 have it and against R80 (log 23). -/
def State.releaseHeld (tag : Byte) (e : LockEntry) (listed : List Nat) (s : State) : State :=
  let (s, retired) := State.retireAll (e.overwritten listed) s
  let s := ((s.dropHeld (.claim tag)).answer (releasedAnswer tag retired)).scanLocks
  if retired = 0 then s else s.afterRetirement

/-- A RELEASE of a waiting claim withdraws it (R99). -/
def State.withdraw (tag : Byte) (s : State) : State :=
  (((s.dropWaiting (.claim tag)).answer (plainAnswer tag kindRelease .withdrawn 0)).dropReservation).scanLocks

/-- A RELEASE taken by SLK (R97). -/
def State.takeRelease (tag : Byte) (listed : List Nat) (s : State) : State :=
  if s.ses.state = .absent then s.answer (plainAnswer tag kindRelease .noSession 0)
  else if s.ses.state.isEnded then s.answer (plainAnswer tag kindRelease .spareVoid 0)
  else match s.slk.heldClaim tag with
    | some e => s.releaseHeld tag e listed
    | none =>
      match s.slk.waitingClaim tag with
      | some _ => s.withdraw tag
      | none => s.answer (plainAnswer tag kindRelease .unknownTag 0)

/-! ## The taking of requests (R71, R207) -/

/-- The overwritten list that is read: as many stripes as byte 3 gives, at most 16 (R207). -/
def overwrittenList (r : RouteRequest) : List Nat := (r.listed.take (min 16 r.overCount.toNat)).map BitVec.toNat

/-- The answer to a request of unknown kind: RANGE with the kind copied; the stripe field is a free value (R207; log 8). -/
def unknownKindAnswer (r : RouteRequest) (draw : Nat) : Answer :=
  { tag := r.tag, kind := r.kind, status := .range, number := 0, stripe := (Config.unknownKindStripe draw).toNat, entries := [] }

/-- A request of unknown kind is answered (R207; log 8). -/
def State.takeUnknownKind (r : RouteRequest) (s : State) : State :=
  ({ s with freeCount := s.freeCount + 1 } : State).answer (unknownKindAnswer r s.freeCount)

/-- RTU takes a request that has left the request queue (R71, R207). -/
def State.takeRequest (r : RouteRequest) (s : State) : State :=
  if r.kind = kindQuery then s.takeQuery r.tag r.first.toNat r.count.toNat
  else if r.kind = kindClaim then s.takeClaim r.tag r.first.toNat r.count.toNat
  else if r.kind = kindRelease then s.takeRelease r.tag (overwrittenList r)
  else s.takeUnknownKind r

/-- An answer entry is neither filled nor reserved (R71). -/
def Rtu.hasRoom (r : Rtu) : Bool := decide (r.answers.length + r.reservations < answerCapacity)

/-- The head of the request queue leaves it. -/
def Rtu.dropHead (r : Rtu) : Rtu := { r with requests := r.requests.tail }

/-- RTU takes requests while there is one and an entry is free (R71). The fuel bounds the requests taken. -/
def State.takeRequestsFuel : Nat → State → State
  | 0, s => s
  | fuel + 1, s =>
    match s.rtu.requests with
    | [] => s
    | r :: _ => if s.rtu.hasRoom then State.takeRequestsFuel fuel ((s.updRtu Rtu.dropHead).takeRequest r) else s

/-- RTU takes what it can take (R71). -/
def State.takeRequests (s : State) : State := State.takeRequestsFuel s.rtu.requests.length s

/-- A request joins the tail of the request queue, or is discarded with ROUTE_OVERRUN (R70). -/
def State.queueRequest (r : RouteRequest) (s : State) : State :=
  if s.rtu.requests.length < requestCapacity then s.updRtu fun u => { u with requests := u.requests ++ [r] }
  else s.setEvent .routeOverrun

/-- A route request arrives from the front path, and RTU takes what it can take (R70, R71). -/
def State.requestArrives (r : RouteRequest) (s : State) : State := ((s.beginEvent).queueRequest r).takeRequests

/-- The front path reads the head answer, or the empty indication (R72). -/
def State.readAnswer (s : State) : State :=
  match s.rtu.answers with
  | [] => s.emit (.answer emptyAnswer)
  | a :: rest => (((s.updRtu fun u => { u with answers := rest }).emit (.answer a.bytes))).takeRequests

end Sys2Proof.Machine
end

