-- ==== Sys2Proof/Machine/Time.lean ====
section
/-! DEFINITION. The events that time brings about (R140, R149, R152): which are set, which is due first, and what each does
(log 2, log 3, log 4). -/

namespace Sys2Proof.Machine

/-- A time event: a deadline of an OUTSTANDING request, of a QUARANTINED request, or a pacing expiry. -/
inductive TimeEvent where
  | timeout (tag : Nat)
  | quarantineEnd (tag : Nat)
  | pacing (x : Nat)
  deriving DecidableEq, Repr

/-- The deadline of a request with its tag. -/
def Request.timed (make : Nat → TimeEvent) (r : Request) : Option (Nat × TimeEvent) :=
  match r.tag, r.deadline with
  | some t, some d => some (d, make t)
  | _, _ => none

/-- The pacing expiries that are set, by position. -/
def Mru.expiries (m : Mru) : List (Nat × TimeEvent) :=
  (List.range 16).filterMap fun x => (m.pos x).expiry.map fun e => (e, TimeEvent.pacing x)

/-- Every time event that is set, with its time. -/
def Mru.timeEvents (m : Mru) : List (Nat × TimeEvent) :=
  (m.positions.flatMap (·.outstanding)).filterMap (Request.timed .timeout) ++
    m.quarantined.filterMap (Request.timed .quarantineEnd) ++ m.expiries

/-- The earliest time in a list of time events. -/
def earliest : List (Nat × TimeEvent) → Option Nat
  | [] => none
  | (d, _) :: rest =>
    match earliest rest with
    | none => some d
    | some e => some (min d e)

/-- The time at which the event stands, if it is set and no other is set for an earlier time (log 3). -/
def Mru.standing (m : Mru) (e : TimeEvent) : Option Nat :=
  match m.timeEvents.find? fun x => x.2 == e with
  | none => none
  | some (d, _) => if earliest m.timeEvents = some d then some d else none

/-- The present time reaches `d`; it never goes back. -/
def State.reachTime (d : Nat) (s : State) : State := { s with now := max s.now d }

/-- What the event does (R140, R149, R152). -/
def State.runTimeEvent (e : TimeEvent) (s : State) : State :=
  match e with
  | .timeout tag =>
    match s.mru.findOutstanding tag with
    | none => s
    | some r => s.timeOut r tag
  | .quarantineEnd tag => s.endQuarantine tag
  | .pacing x => (s.setExpiry x none).issueDecision x

/-- A time event is taken when it stands; otherwise nothing happens (log 3). -/
def State.takeTimeEvent (e : TimeEvent) (s : State) : State :=
  match s.mru.standing e with
  | none => s.beginEvent
  | some d => ((s.beginEvent).reachTime d).runTimeEvent e

/-- The events due first: those set for the earliest time (R152; log 4). -/
def Mru.dueFirst (m : Mru) : List TimeEvent :=
  (m.timeEvents.filter fun x => earliest m.timeEvents = some x.1).map (·.2)

/-- One of several events due at the same time is taken: which one is a free choice (R152; log 4). -/
def State.takeOneOf (events : List TimeEvent) (s : State) : State :=
  match events with
  | [] => s.beginEvent
  | [e] => s.takeTimeEvent e
  | e :: rest =>
    ({ s with freeCount := s.freeCount + 1 } : State).takeTimeEvent
      ((e :: rest).getD (Config.tieChoice s.freeCount % (rest.length + 1)) e)

/-- With no command waiting, the part takes a time event that is due, or lets one millisecond pass (log 2). -/
def State.idle (s : State) : State :=
  match earliest s.mru.timeEvents with
  | some d => if d ≤ s.now then s.takeOneOf s.mru.dueFirst else { s.beginEvent with now := s.now + 1 }
  | none => { s.beginEvent with now := s.now + 1 }

end Sys2Proof.Machine
end

