-- ==== Sys2Proof/Machine/Events.lean ====
section
/-! DEFINITION. The meaning of every row of spec/opcode_table.json. A row that is a host command or a route request is the
arrival of the message it spells, with what the port then takes (log 1). -/

namespace Sys2Proof.Machine

/-- A host command's message arrives. -/
def hostCommand (tag : BitVec 16) (c : HostCommand) (s : State) : Host.Outcome State Fault Refusal :=
  .next (s.commandArrives (c.message tag))

/-! ## Power and the Management Port -/

/-- POWER_ON_RESET (R204). The queue of commands and the count of free values are the model's own and stay (log 14). -/
def execPowerOnReset (s : State) : Host.Outcome State Fault Refusal :=
  .next { State.reset with pending := s.pending, freeCount := s.freeCount }

/-- COMMAND_ARRIVAL (R191, R192, R205). Bytes that are no command message change nothing (log 19). -/
def execCommandArrival (message : List Byte) (s : State) : Host.Outcome State Fault Refusal :=
  match CommandMessage.read message with
  | some m => .next (s.commandArrives m)
  | none => .next s.beginEvent

/-- RESPONSE_READ (R193). -/
def execResponseRead (s : State) : Host.Outcome State Fault Refusal := .next s.beginEvent.readResponse

/-- UNKNOWN_COMMAND (R194). -/
def execUnknownCommand (tag : BitVec 16) (opcode : Byte) (params : List Byte) (s : State) : Host.Outcome State Fault Refusal :=
  .next (s.commandArrives { tag := tag, opcode := opcode, params := params })

/-! ## The 24 commands of Table 10-2 -/

/-- SET_GEOMETRY (R2, R3). -/
def execSetGeometry (tag : BitVec 16) (n l : Byte) (t rs : BitVec 32) (k : Byte) (s : State) :
    Host.Outcome State Fault Refusal :=
  hostCommand tag (.setGeometry n.toNat l.toNat t.toNat rs.toNat k.toNat) s

/-- SET_SEGMENTS (R8, R10). -/
def execSetSegments (tag : BitVec 16) (position first : Byte) (elements : List SegmentElement) (s : State) :
    Host.Outcome State Fault Refusal :=
  hostCommand tag (.setSegments position.toNat first.toNat elements) s

/-- OPEN_SESSION (R21, R22). -/
def execOpenSession (tag : BitVec 16) (f b lanes fill : Byte) (startRegion : BitVec 16) (aq : BitVec 48) (kq skipQual : Byte)
    (s : State) : Host.Outcome State Fault Refusal :=
  hostCommand tag
    (.openSession f.toNat b.toNat lanes.toNat fill.toNat startRegion.toNat aq.toNat kq.toNat skipQual.toNat) s

/-- START (R29). -/
def execStart (tag : BitVec 16) (s : State) : Host.Outcome State Fault Refusal := hostCommand tag .start s

/-- PAUSE (R31). -/
def execPause (tag : BitVec 16) (s : State) : Host.Outcome State Fault Refusal := hostCommand tag .pause s

/-- RESUME (R32). -/
def execResume (tag : BitVec 16) (s : State) : Host.Outcome State Fault Refusal := hostCommand tag .resume s

/-- STEP (R33). -/
def execStep (tag : BitVec 16) (s : State) : Host.Outcome State Fault Refusal := hostCommand tag .step s

/-- ABORT (R39). -/
def execAbort (tag : BitVec 16) (s : State) : Host.Outcome State Fault Refusal := hostCommand tag .abort s

/-- CLOSE_SESSION (R41). -/
def execCloseSession (tag : BitVec 16) (s : State) : Host.Outcome State Fault Refusal := hostCommand tag .closeSession s

/-- PROMOTE (R48). -/
def execPromote (tag : BitVec 16) (region : BitVec 16) (s : State) : Host.Outcome State Fault Refusal :=
  hostCommand tag (.promote region.toNat) s

/-- DEMOTE (R49). -/
def execDemote (tag : BitVec 16) (region : BitVec 16) (s : State) : Host.Outcome State Fault Refusal :=
  hostCommand tag (.demote region.toNat) s

/-- MEMBER_DOWN (R36). -/
def execMemberDown (tag : BitVec 16) (position : Byte) (s : State) : Host.Outcome State Fault Refusal :=
  hostCommand tag (.memberDown position.toNat) s

/-- SET_PACE (R141). -/
def execSetPace (tag : BitVec 16) (w : Byte) (window : BitVec 16) (s : State) : Host.Outcome State Fault Refusal :=
  hostCommand tag (.setPace w.toNat window.toNat) s

/-- SET_TIMEOUT (R151). -/
def execSetTimeout (tag : BitVec 16) (ms : BitVec 16) (s : State) : Host.Outcome State Fault Refusal :=
  hostCommand tag (.setTimeout ms.toNat) s

/-- SET_HEAT (R54). -/
def execSetHeat (tag : BitVec 16) (h : BitVec 16) (s : State) : Host.Outcome State Fault Refusal :=
  hostCommand tag (.setHeat h.toNat) s

/-- SET_LANES (R130). -/
def execSetLanes (tag : BitVec 16) (count : Byte) (s : State) : Host.Outcome State Fault Refusal :=
  hostCommand tag (.setLanes count.toNat) s

/-- SET_CHECK (R173). -/
def execSetCheck (tag : BitVec 16) (setting : Byte) (s : State) : Host.Outcome State Fault Refusal :=
  hostCommand tag (.setCheck setting.toNat) s

/-- SET_EVENT_ENABLES (R198). -/
def execSetEventEnables (tag : BitVec 16) (events : BitVec 16) (s : State) : Host.Outcome State Fault Refusal :=
  hostCommand tag (.setEventEnables events.toNat) s

/-- ACK_EVENTS (R200). -/
def execAckEvents (tag : BitVec 16) (events : BitVec 16) (s : State) : Host.Outcome State Fault Refusal :=
  hostCommand tag (.ackEvents events.toNat) s

/-- GET_STATUS (R196). -/
def execGetStatus (tag : BitVec 16) (s : State) : Host.Outcome State Fault Refusal := hostCommand tag .getStatus s

/-- GET_REGION (R51). -/
def execGetRegion (tag : BitVec 16) (region : BitVec 16) (s : State) : Host.Outcome State Fault Refusal :=
  hostCommand tag (.getRegion region.toNat) s

/-- LIST_RECORDS (R185). -/
def execListRecords (tag : BitVec 16) (first : BitVec 32) (maxCount : Byte) (s : State) : Host.Outcome State Fault Refusal :=
  hostCommand tag (.listRecords first.toNat maxCount.toNat) s

/-- FORGIVE (R181, R182). -/
def execForgive (tag : BitVec 16) (stripe : BitVec 32) (s : State) : Host.Outcome State Fault Refusal :=
  hostCommand tag (.forgive stripe.toNat) s

/-- RESET_ENGINE (R202). -/
def execResetEngine (tag : BitVec 16) (s : State) : Host.Outcome State Fault Refusal := hostCommand tag .resetEngine s

/-! ## The Route Port -/

/-- ROUTE_REQUEST_ARRIVAL (R70, R71, R207). Bytes that are no route request change nothing (log 19). -/
def execRouteRequestArrival (message : List Byte) (s : State) : Host.Outcome State Fault Refusal :=
  match RouteRequest.read message with
  | some r => .next (s.requestArrives r)
  | none => .next s.beginEvent

/-- ANSWER_READ (R72). -/
def execAnswerRead (s : State) : Host.Outcome State Fault Refusal := .next s.beginEvent.readAnswer

/-- The request a QUERY or a CLAIM is (R207). -/
def rangeRequest (kind tag count : Byte) (first : BitVec 32) : RouteRequest :=
  { kind := kind, tag := tag, count := count, overCount := 0, first := first, listed := [] }

/-- The request a RELEASE is (R207). -/
def releaseRequest (tag : Byte) (overwritten : List (BitVec 32)) : RouteRequest :=
  { kind := kindRelease, tag := tag, count := 0, overCount := BitVec.ofNat 8 (min 255 overwritten.length), first := 0,
    listed := overwritten }

/-- QUERY (R75). -/
def execQuery (tag count : Byte) (first : BitVec 32) (s : State) : Host.Outcome State Fault Refusal :=
  .next (s.requestArrives (rangeRequest kindQuery tag count first))

/-- CLAIM (R93). -/
def execClaim (tag count : Byte) (first : BitVec 32) (s : State) : Host.Outcome State Fault Refusal :=
  .next (s.requestArrives (rangeRequest kindClaim tag count first))

/-- RELEASE (R97). -/
def execRelease (tag : Byte) (overwritten : List (BitVec 32)) (s : State) : Host.Outcome State Fault Refusal :=
  .next (s.requestArrives (releaseRequest tag overwritten))

/-- UNKNOWN_ROUTE_KIND (R207). -/
def execUnknownRouteKind (request : RouteRequest) (s : State) : Host.Outcome State Fault Refusal :=
  .next (s.requestArrives request)

/-! ## The Member Port, RCD and time -/

/-- COMPLETION (R142, R209). The position byte is not used. Bytes that are no completion change nothing (log 19). -/
def execCompletion (tag status position : Byte) (mask data : List Byte) (s : State) : Host.Outcome State Fault Refusal :=
  match Completion.read ([tag, status, position] ++ mask) with
  | some c => .next (s.beginEvent.takeCompletion c.tag.toNat c.status c.mask data)
  | none => .next s.beginEvent

/-- RCD_TAKE_BLOCK (R161). -/
def execRcdTakeBlock (lane : Fin 4) (s : State) : Host.Outcome State Fault Refusal := .next (s.beginEvent.takeBlock lane)

/-- PACING_EXPIRY (R140; log 3). -/
def execPacingExpiry (position : Fin 16) (s : State) : Host.Outcome State Fault Refusal :=
  .next (s.takeTimeEvent (.pacing position.val))

/-- TIMEOUT (R149; log 3). -/
def execTimeout (tag : Byte) (s : State) : Host.Outcome State Fault Refusal := .next (s.takeTimeEvent (.timeout tag.toNat))

/-- QUARANTINE_END (R152; log 3). -/
def execQuarantineEnd (tag : Byte) (s : State) : Host.Outcome State Fault Refusal :=
  .next (s.takeTimeEvent (.quarantineEnd tag.toNat))

end Sys2Proof.Machine
end

