-- ==== Sys2Proof/Machine/Dispatch.lean ====
section
/-! DEFINITION. The meaning of every command: one arm for each row of spec/opcode_table.json. -/

namespace Sys2Proof.Machine

def exec (i : Instr) (s : State) : Host.Outcome State Fault Refusal :=
  match i with
  | .powerOnReset => Sys2Proof.Machine.execPowerOnReset s
  | .commandArrival message => Sys2Proof.Machine.execCommandArrival message s
  | .responseRead => Sys2Proof.Machine.execResponseRead s
  | .unknownCommand tag opcode params => Sys2Proof.Machine.execUnknownCommand tag opcode params s
  | .setGeometry tag n l t rs k => Sys2Proof.Machine.execSetGeometry tag n l t rs k s
  | .setSegments tag position first elements => Sys2Proof.Machine.execSetSegments tag position first elements s
  | .openSession tag f b lanes fill startRegion aq kq skipQual => Sys2Proof.Machine.execOpenSession tag f b lanes fill startRegion aq kq skipQual s
  | .start tag => Sys2Proof.Machine.execStart tag s
  | .pause tag => Sys2Proof.Machine.execPause tag s
  | .resume tag => Sys2Proof.Machine.execResume tag s
  | .step tag => Sys2Proof.Machine.execStep tag s
  | .abort tag => Sys2Proof.Machine.execAbort tag s
  | .closeSession tag => Sys2Proof.Machine.execCloseSession tag s
  | .promote tag region => Sys2Proof.Machine.execPromote tag region s
  | .demote tag region => Sys2Proof.Machine.execDemote tag region s
  | .memberDown tag position => Sys2Proof.Machine.execMemberDown tag position s
  | .setPace tag w window => Sys2Proof.Machine.execSetPace tag w window s
  | .setTimeout tag ms => Sys2Proof.Machine.execSetTimeout tag ms s
  | .setHeat tag h => Sys2Proof.Machine.execSetHeat tag h s
  | .setLanes tag count => Sys2Proof.Machine.execSetLanes tag count s
  | .setCheck tag setting => Sys2Proof.Machine.execSetCheck tag setting s
  | .setEventEnables tag events => Sys2Proof.Machine.execSetEventEnables tag events s
  | .ackEvents tag events => Sys2Proof.Machine.execAckEvents tag events s
  | .getStatus tag => Sys2Proof.Machine.execGetStatus tag s
  | .getRegion tag region => Sys2Proof.Machine.execGetRegion tag region s
  | .listRecords tag first maxCount => Sys2Proof.Machine.execListRecords tag first maxCount s
  | .forgive tag stripe => Sys2Proof.Machine.execForgive tag stripe s
  | .resetEngine tag => Sys2Proof.Machine.execResetEngine tag s
  | .routeRequestArrival message => Sys2Proof.Machine.execRouteRequestArrival message s
  | .answerRead => Sys2Proof.Machine.execAnswerRead s
  | .query tag count first => Sys2Proof.Machine.execQuery tag count first s
  | .claim tag count first => Sys2Proof.Machine.execClaim tag count first s
  | .release tag overwritten => Sys2Proof.Machine.execRelease tag overwritten s
  | .unknownRouteKind request => Sys2Proof.Machine.execUnknownRouteKind request s
  | .completion tag status position mask data => Sys2Proof.Machine.execCompletion tag status position mask data s
  | .rcdTakeBlock lane => Sys2Proof.Machine.execRcdTakeBlock lane s
  | .pacingExpiry position => Sys2Proof.Machine.execPacingExpiry position s
  | .timeout tag => Sys2Proof.Machine.execTimeout tag s
  | .quarantineEnd tag => Sys2Proof.Machine.execQuarantineEnd tag s

end Sys2Proof.Machine
end

