-- ==== Sys2Proof/Safety.lean ====
section
/-! DEFINITION. What it means that the part is safe: a step never stops, and the invariants of the chapters hold from one
event to the next. Each is a plain predicate on a state; the statements about them stand in Certificates/Slice0. -/

namespace Sys2Proof.Machine

/-- The part never stops: a step answers a next state. -/
def Answers (o : Host.Outcome State Fault Refusal) : Prop := ∃ t, o = .next t

/-! ## When a port takes what arrives at once -/

/-- The command queue is empty and the response queue has room, so that a command that arrives is taken at once (R192). -/
def State.HostReady (s : State) : Prop := s.mgp.commands = [] ∧ s.mgp.responses.length < 16

/-- The request queue is empty and an answer entry is free, so that a route request that arrives is taken at once (R71). -/
def State.RouteReady (s : State) : Prop := s.rtu.requests = [] ∧ s.rtu.answers.length + s.rtu.reservations < 64

/-! ## Vocabulary of the statements -/

/-- Two states agree in everything but the record of the messages that left the part in the latest event (log 7). -/
def State.Matches (t u : State) : Prop := t.beginEvent = u.beginEvent

/-- The outcome is a next state that matches `u`. -/
def Becomes (o : Host.Outcome State Fault Refusal) (u : State) : Prop := ∃ t, o = .next t ∧ t.Matches u

/-- The status set becomes `set`, and the event line follows it (R199). -/
def Mgp.withStatus (m : Mgp) (set : EventSet) : Mgp := { m with status := set, line := (set &&& m.enables) != 0 }

/-- The status set gains the events of `set`, and the event line follows it (R198, R199). -/
def State.noting (set : EventSet) (s : State) : State := { s with mgp := s.mgp.withStatus (s.mgp.status ||| set) }

/-- The session state becomes `new`, with STATE_CHANGE (R20). -/
def State.entering (new : SessionState) (s : State) : State :=
  State.noting (Event.bit .stateChange) { s with ses := { s.ses with state := new } }

/-- An answer joins the tail of the answer queue. -/
def State.answering (a : Answer) (s : State) : State := { s with rtu := { s.rtu with answers := s.rtu.answers ++ [a] } }

/-- The one response to a command stands at the tail of the response queue, behind the responses that were there. -/
def Responded (s t : State) (tag : BitVec 16) (r : Reply) : Prop :=
  t.mgp.commands = s.mgp.commands ∧ t.mgp.responses = s.mgp.responses ++ [{ tag := tag, reply := r }]

/-- The status set has gained the events of `set` and no other, the enable set stays, and the event line follows. -/
def Noted (s t : State) (set : EventSet) : Prop :=
  t.mgp.status = s.mgp.status ||| set ∧ t.mgp.enables = s.mgp.enables ∧
    t.mgp.line = (((s.mgp.status ||| set) &&& s.mgp.enables) != 0)

/-- Neither event set nor the event line has changed. -/
def EventsKept (s t : State) : Prop :=
  t.mgp.status = s.mgp.status ∧ t.mgp.enables = s.mgp.enables ∧ t.mgp.line = s.mgp.line

/-- Nothing has changed but MRU, the lane records, RCD's contexts, the buffer memory, MGP's status set and the messages sent. -/
def BlocksKept (s t : State) : Prop :=
  t.geo = s.geo ∧ t.ses = s.ses ∧ t.rgt = s.rgt ∧ t.rtu = s.rtu ∧ t.slk = s.slk ∧ t.sbp = s.sbp ∧ t.lrl = s.lrl ∧
    t.rcd.check = s.rcd.check ∧ t.holdingOrder = s.holdingOrder ∧ t.mgp.commands = s.mgp.commands ∧
    t.mgp.responses = s.mgp.responses ∧ t.mgp.enables = s.mgp.enables ∧ t.freeCount = s.freeCount ∧ t.pending = s.pending

/-- The bytes of a 16-bit field, the least significant first. -/
def bytes16 (v : BitVec 16) : List Byte := [v.extractLsb' 0 8, v.extractLsb' 8 8]

/-- The bytes of a 32-bit field. -/
def bytes32 (v : BitVec 32) : List Byte :=
  [v.extractLsb' 0 8, v.extractLsb' 8 8, v.extractLsb' 16 8, v.extractLsb' 24 8]

/-- The bytes of a 48-bit field. -/
def bytes48 (v : BitVec 48) : List Byte :=
  [v.extractLsb' 0 8, v.extractLsb' 8 8, v.extractLsb' 16 8, v.extractLsb' 24 8, v.extractLsb' 32 8, v.extractLsb' 40 8]

/-- The bytes of a 64-bit field. -/
def bytes64 (v : BitVec 64) : List Byte := (List.range 8).map fun i => v.extractLsb' (8 * i) 8

/-- The bytes of a command message: tag, opcode, parameter length, parameters (R205). -/
def commandMessage (tag : BitVec 16) (opcode : Byte) (params : List Byte) : List Byte :=
  bytes16 tag ++ [opcode, BitVec.ofNat 8 params.length] ++ params

/-- The bytes of a route request: the 8-byte header, then the listed stripes (R207). -/
def routeMessage (r : RouteRequest) : List Byte :=
  [r.kind, r.tag, r.count, r.overCount] ++ bytes32 r.first ++ r.listed.flatMap bytes32

/-- A RELEASE lists as many stripes as byte 3 gives, and no list follows any other kind (R207). -/
def ListsAsCounted (r : RouteRequest) : Prop :=
  (r.kind = 3 → r.listed.length = r.overCount.toNat) ∧ (r.kind ≠ 3 → r.listed = [])

/-- The parameter length Table 10-3 gives each code but SET_SEGMENTS. -/
def parameterLengths : List (Nat × Nat) :=
  [(0x01, 11), (0x03, 14), (0x04, 0), (0x05, 0), (0x06, 0), (0x07, 0), (0x08, 0), (0x09, 0), (0x0A, 2), (0x0B, 2), (0x0C, 1),
    (0x0D, 3), (0x0E, 2), (0x0F, 2), (0x10, 1), (0x11, 1), (0x12, 2), (0x13, 2), (0x14, 0), (0x15, 2), (0x16, 5), (0x17, 4),
    (0x18, 0)]

/-- The parameters have the length Table 10-3 gives the code; a length field holds at most 255 (R194, R205). -/
def lengthFits (m : CommandMessage) : Bool :=
  if m.opcode.toNat = 0x02 then
    3 ≤ m.params.length && m.params.length = 3 + 8 * (m.params.getD 2 0).toNat && m.params.length ≤ 255
  else parameterLengths.contains (m.opcode.toNat, m.params.length)

/-- The states named in the Accepted in column of Table 10-2; for SET_CHECK, those in which it is not REFUSED_BUSY. -/
def acceptedIn : HostCommand → List SessionState
  | .setGeometry _ _ _ _ _ => [.absent]
  | .setSegments _ _ _ => [.absent]
  | .openSession _ _ _ _ _ _ _ _ => [.absent]
  | .start => [.ready]
  | .pause => [.running, .suspended]
  | .resume => [.paused]
  | .step => [.ready, .paused]
  | .abort => openStates
  | .closeSession => [.ready, .paused, .complete, .failed, .broken]
  | .promote _ => openStates
  | .demote _ => openStates
  | .memberDown _ => openStates
  | .setCheck _ => [.absent, .ready, .paused, .complete]
  | .getRegion _ => openStates ++ [.failed, .broken]
  | .listRecords _ _ => openStates ++ [.failed, .broken]
  | .forgive _ => openStates
  | _ => .absent :: openStates ++ [.failed, .broken]
where
  /-- The open states of Table 2-2. -/
  openStates : List SessionState := [.qualifying, .ready, .running, .suspended, .draining, .paused, .stepping, .complete]

/-- The answer to a command outside its states. -/
def refusalOf : HostCommand → Reply
  | .setCheck _ => { code := .refusedBusy, reason := .none, payload := [] }
  | _ => { code := .refusedState, reason := .session, payload := [] }

/-- An outstanding request that is quarantined when every position is cleared: no owner, and a new deadline (R155). -/
def Request.cutOff (until' : Nat) (r : Request) : Request := { r with owner := none, deadline := some until' }

/-- The sets of the lanes that hold batches, and qualification's, have left their owners: a buffer that a quarantined request
names has joined the quarantine hold, any other the free pool (R113, R132, R133). -/
def BuffersReturned (s t : State) : Prop :=
  let named := fun (buf : BufId) => t.mru.quarantined.any fun r => r.buf == buf
  let back := ((List.finRange 4).flatMap fun n => if s.lanes[n].batch = none then [] else s.lanes[n].bufs) ++ s.ses.qualSet
  (∀ buf, buf ∈ t.sbp.free ↔ buf ∈ s.sbp.free ∨ (buf ∈ back ∧ named buf = false)) ∧
    t.sbp.quarantineHold = s.sbp.quarantineHold ++ back.filter named

/-- What the end of a session leaves (R40, R106, R132, R155), from `s`, the state at the event. -/
def SessionEnded (s t : State) (new : SessionState) (cause : Cause) : Prop :=
  t.ses.state = new ∧ t.ses.cause = cause ∧ t.ses.qualProgress = none ∧ t.ses.qualSet = [] ∧
    (∀ n : Fin 4, t.lanes[n] =
      if s.lanes[n].batch = none then s.lanes[n] else { Lane.reset with outcome := .abandoned }) ∧
    t.holdingOrder = [] ∧ t.slk.held = [] ∧ t.slk.waiting = [] ∧ t.rtu.requests = s.rtu.requests ∧ t.rtu.reservations = 0 ∧
    t.rtu.answers = s.rtu.answers ++ s.slk.waiting.filterMap (fun e => match e.owner with
      | .lane _ => none
      | .claim tag =>
        some { tag := tag, kind := 2, status := .spareVoid, number := 0, stripe := e.first, entries := [] }) ∧
    t.rgt = s.rgt ∧ t.lrl = s.lrl ∧ t.sbp.waiting = [] ∧ BuffersReturned s t ∧ (∀ n : Fin 4, t.rcd.contexts[n] = none) ∧
    t.rcd.check = s.rcd.check ∧
    (∀ x, (t.mru.pos x).queue = [] ∧ (t.mru.pos x).outstanding = [] ∧ (t.mru.pos x).expiry = none ∧
      (t.mru.pos x).history = (s.mru.pos x).history ∧ (t.mru.pos x).timeouts = (s.mru.pos x).timeouts) ∧
    t.mru.tagWait = [] ∧
    t.mru.quarantined = s.mru.quarantined.map (fun r => { r with owner := none }) ++
      (s.mru.positions.flatMap (·.outstanding)).map (Request.cutOff (s.now + s.mru.timeout)) ∧
    t.mem = s.mem ∧ t.geo = s.geo ∧ t.now = s.now

/-- Two requests differ at most in tag, defer retries, rewrite, owner and deadline. -/
def Request.SameWork (a b : Request) : Prop :=
  a.position = b.position ∧ a.kind = b.kind ∧ a.address = b.address ∧ a.blocks = b.blocks ∧ a.buf = b.buf ∧
    a.firstBlock = b.firstBlock

/-- A request as its owner submitted it and MRU re-queues it: without the tag and the deadline of an issue. -/
def Request.work (r : Request) : Request := { r with tag := none, deadline := none }

/-- The bytes of `data` stand in the buffer memory from address `a` on, and every other byte is as before. -/
def Landed (s t : State) (a : Nat) (data : List Byte) : Prop :=
  ∀ x, t.mem.read x = if a ≤ x ∧ x < a + data.length then data.getD (x - a) 0 else s.mem.read x

/-- Byte `i` of block `b` of every position's strip of the stripe at place `place`, as the lane's buffers hold them (R160). -/
def State.columnAt (s : State) (n : Fin 4) (place b i : Nat) : Column :=
  (List.range s.profile.n).map fun x => s.mem.read (blockAddress (bufferAt s.lanes[n].bufs s.profile.n place x) b + i)

/-- Byte `i` of the fill of block `b` of a stripe (R172). -/
def fillByte (kind : FillKind) (stripe b i : Nat) : Byte :=
  match kind with
  | .zero => 0
  | .marked => if i < 4 then BitVec.ofNat 8 (stripe / 256 ^ i) else if i = 4 then BitVec.ofNat 8 b else 0xDB

/-- The requests of a position that are queued or outstanding. -/
def PosState.live (p : PosState) : List Request := p.queue ++ p.outstanding

/-- What the requests of a position ask for, the outstanding ones in the order of their issue and then the queued ones, head
first. -/
def PosState.works (p : PosState) : List Request := (p.outstanding ++ p.queue).map Request.work

/-- What a first survivor fault of position x does to the lanes (R119, R120, R122): x is MISSING in every stripe of a lane in
READING or SOLVING; in READING the outstanding count falls by the lane's requests to x that have not settled, and at 0 the
lane enters SOLVING. -/
def LanesFaulted (s t : State) (x : Nat) : Prop :=
  ∀ n : Fin 4,
    let unsettled := (s.lanes[n].reads.map fun row => (row[x]?.map (·.left)).getD 0).sum
    let reads := s.lanes[n].reads.map fun row => row.modify x fun c => { c with status := .missing, left := 0 }
    let left := s.lanes[n].outstanding - unsettled
    let fresh := List.replicate ((s.lanes[n].batch.map (·.length)).getD 0) StripeResult.empty
    (s.lanes[n].stage = .reading → left ≠ 0 →
      t.lanes[n] = { s.lanes[n] with outstanding := left, reads := reads } ∧ t.rcd.contexts[n] = s.rcd.contexts[n]) ∧
    (s.lanes[n].stage = .reading → left = 0 →
      t.lanes[n] = { s.lanes[n] with stage := .solving, outstanding := 0, reads := reads } ∧
      t.rcd.contexts[n] = some { stripe := 0, block := 0, results := fresh }) ∧
    (s.lanes[n].stage = .solving →
      t.lanes[n] = { s.lanes[n] with reads := reads } ∧ t.rcd.contexts[n] = s.rcd.contexts[n]) ∧
    (s.lanes[n].stage ≠ .reading → s.lanes[n].stage ≠ .solving →
      t.lanes[n] = s.lanes[n] ∧ t.rcd.contexts[n] = s.rcd.contexts[n])

/-- LRL has taken the pending offers of lane n, whose batch is b, in order and as many as the list has room for (R125, R177,
R179): their records stand in the list, each region counts its own, and RECORD_ADDED is set if there was one. -/
def OffersTaken (s v : State) (n : Fin 4) (b : Batch) : Prop :=
  let taken := s.lanes[n].offers.take (256 - s.lrl.records.length)
  let record := fun (stripe : Nat) =>
    let r := s.lanes[n].results.getD (stripe - b.first) StripeResult.empty
    ({ stripe := stripe, lost := r.lost, suspect := r.suspect, contributors := r.contributors } : Record)
  ∃ (records : List Record) (g : Rgt),
    (records.Pairwise fun x y => x.stripe < y.stripe) ∧ (∀ x, x ∈ records ↔ x ∈ s.lrl.records ∨ x ∈ taken.map record) ∧
    (∀ k : Nat, g.regions[k]? = s.rgt.regions[k]?.map fun (r : Region) =>
      ({ r with recordCount := r.recordCount + (taken.filter fun stripe => stripe / s.profile.rs == k).length } : Region)) ∧
    ({ g with regions := s.rgt.regions } : Rgt) = s.rgt ∧
    v = { s with
      lrl := { records := records }
      rgt := g
      lanes := s.lanes.set n { s.lanes[n] with offers := s.lanes[n].offers.drop taken.length }
      mgp := if taken = [] then s.mgp else s.mgp.withStatus (s.mgp.status ||| Event.bit .recordAdded) }

/-- The request with the tag has left MRU, and its tag is free: no record carries it, unless a request without a tag has taken
it at its first issue in the same event (R134, R135, R143; log 26). -/
def RequestEnded (s t : State) (tag : Nat) : Prop :=
  t.mru.records.length + 1 = s.mru.records.length ∧
    ∀ q ∈ t.mru.records, q.tag = some tag → ∃ q' ∈ s.mru.records, q'.tag = none ∧ q'.work = q.work

/-- MRU has put a request back at the HEAD of its position's queue as `again`, with its tag, and made a decision: what the
position's requests ask for stands in the order of R137. Its owner has not been told (R145, R146). -/
def RequestResent (s t : State) (r again : Request) (tag : Nat) : Prop :=
  (t.mru.pos r.position).works =
      (((s.mru.pos r.position).outstanding.filter fun q => q.tag != some tag) ++
        again :: (s.mru.pos r.position).queue).map Request.work ∧
    (∃ r' ∈ (t.mru.pos r.position).live, r'.work = again.work ∧ r'.tag = some tag) ∧
    BlocksKept s t ∧ EventsKept s t ∧ t.lanes = s.lanes ∧ t.rcd = s.rcd ∧ t.now = s.now

/-- The tag is free: no record carries it, unless a request without a tag has taken it in the same event (R135, R139). -/
def TagFreed (s t : State) (tag : Nat) : Prop :=
  ∀ q ∈ t.mru.records, q.tag = some tag → ∃ q' ∈ s.mru.records, q'.tag = none ∧ q'.SameWork q

/-- The state `s` without the OUTSTANDING request with the tag, at the position (R142, R149). -/
def State.without (s : State) (position tag : Nat) : State :=
  s.updPos position fun p => { p with outstanding := p.outstanding.filter fun q => q.tag != some tag }

/-- Every lane's lock request that waits names the lane's batch (R101). -/
def State.RequestsNameBatches (s : State) : Prop :=
  ∀ e ∈ s.slk.waiting, ∀ (n : Fin 4) (b : Batch), e.owner = .lane n → s.lanes[n].batch = some b →
    e.first = b.first ∧ e.count = b.length

/-- The row of bytes `c` satisfies the P equation of stripe s: P is the sum of the data bytes (R160). -/
def PEquation (p : Profile) (s : Nat) (c : Nat → Byte) : Prop :=
  c (p.pPos s) = (List.range (p.n - 2)).foldr (fun d acc => c (p.dataPos s d) ^^^ acc) 0

/-- The row of bytes `c` satisfies the Q equation of stripe s: Q is the sum of the data bytes, each times its power of the
generator (R160). -/
def QEquation (p : Profile) (s : Nat) (c : Nat → Byte) : Prop :=
  c (p.qPos s) = (List.range (p.n - 2)).foldr (fun d acc => gmul (gpow d) (c (p.dataPos s d)) ^^^ acc) 0

/-- The row of bytes `c` satisfies both parity equations of stripe s (R160). -/
def ParityHolds (p : Profile) (s : Nat) (c : Nat → Byte) : Prop := PEquation p s c ∧ QEquation p s c

/-- An issue decision for position x may issue its head now, given a tag: conditions 1 and 2 of R138. -/
def State.MayIssue (s : State) (x : Nat) : Prop :=
  (s.mru.pos x).outstanding.length < 4 ∧
    ((s.mru.pos x).history.countP fun t => decide (s.now < t + s.mru.paceWindow)) < s.mru.paceLimit

/-- k is the lowest-numbered tag that none of the requests carries (R135). -/
def LowestFreeOf (requests : List Request) (k : Nat) : Prop :=
  (k < 256 ∧ ∀ q ∈ requests, q.tag ≠ some k) ∧ ∀ j, j < k → ∃ q ∈ requests, q.tag = some j

/-- The lowest-numbered free tag is k (R135). -/
def State.LowestFree (s : State) (k : Nat) : Prop := LowestFreeOf s.mru.records k

/-- Every tag belongs to a request (R135). -/
def State.NoTagFree (s : State) : Prop := ∀ k < 256, ∃ q ∈ s.mru.records, q.tag = some k

/-- At an issue decision in `s`, position x issues the requests `issued`, which stood at the head of its queue, in order: each with
its own tag or the lowest one free by then, and with its deadline (R135, R138). -/
def IssuesInOrder (s : State) (x : Nat) (issued : List Request) : Prop :=
  issued.length ≤ (s.mru.pos x).queue.length ∧
    ∀ (i : Nat) (q r : Request), issued[i]? = some q → (s.mru.pos x).queue[i]? = some r →
      ∃ k, (r.tag = some k ∨ (r.tag = none ∧ LowestFreeOf (s.mru.records ++ issued.take i) k)) ∧
        q = { r with tag := some k, deadline := some (s.now + s.mru.timeout) }

/-- An issue decision for position x takes `s` to `t` (R138 to R140). Heads are issued while conditions 1 and 2 hold and a tag is
there, each joining the outstanding set and the history and sending its member request. A head that then wants only a tag waits
for one; a head held back by pacing alone gets a new expiry; an emptied queue has none. Nothing else changes. -/
def DecisionMade (s t : State) (x : Nat) : Prop :=
  let p := s.mru.pos x
  let p' := t.mru.pos x
  let recent := p'.history.countP fun i => decide (s.now < i + s.mru.paceWindow)
  let wantsTag := ∃ r rest, p'.queue = r :: rest ∧ r.tag = none ∧ t.NoTagFree
  let paced := p'.queue ≠ [] ∧ p'.outstanding.length < 4 ∧ s.mru.paceLimit ≤ recent ∧ ¬wantsTag
  (∃ issued : List Request, IssuesInOrder s x issued ∧ p'.outstanding = p.outstanding ++ issued ∧
    p'.queue = p.queue.drop issued.length ∧
    p'.history = (if issued = [] then p.history else (List.replicate issued.length s.now ++ p.history).take 32) ∧
    t.sent = s.sent ++ issued.map (fun q => .memberRequest (q.bytes (q.tag.getD 0))) ∧
    (issued ≠ [] → s.MayIssue x ∧ p'.outstanding.length ≤ 4 ∧ recent ≤ s.mru.paceLimit)) ∧
  (p'.queue = [] ∨ ¬t.MayIssue x ∨ wantsTag) ∧ p'.timeouts = p.timeouts ∧
  (p'.queue = [] → p'.expiry = none) ∧
  (paced → p'.expiry = some (p'.history.getD (s.mru.paceLimit - 1) 0 + s.mru.paceWindow)) ∧
  (p'.queue ≠ [] → ¬paced → p'.expiry = p.expiry) ∧
  (t.MayIssue x → p'.queue ≠ [] → x ∈ t.mru.tagWait) ∧
  t.mru.tagWait.filter (· != x) = s.mru.tagWait.filter (· != x) ∧
  t = { s with
    mru := { s.mru with positions := s.mru.positions.set x p', tagWait := t.mru.tagWait }
    sent := t.sent }

/-- Issue decisions for the positions of the list, one after another, take `s` to `t`. -/
def DecisionsRun : List Nat → State → State → Prop
  | [], s, t => t = s
  | x :: rest, s, t => ∃ v, DecisionMade s v x ∧ DecisionsRun rest v t

/-- RGT's pass over the lanes of the list, in that order (R57), from the state `g` of RGT to the end state `t`. A lane that is
eligible is handed the batch that is next when the lanes before it have been served (R58, R59), and stays IDLE when none is
left (R61). -/
def PassRuns (eligible : Fin 4 → Prop) (t : State) : List (Fin 4) → Rgt → Prop
  | [], g => t.rgt = g
  | n :: rest, g =>
    (¬eligible n ∧ PassRuns eligible t rest g) ∨
    (∃ b g', eligible n ∧ g.nextBatch t.profile.rs (t.ses.batchSize.getD 0) = some (b, g') ∧ t.lanes[n].batch = some b ∧
      t.lanes[n].stage ≠ .idle ∧ PassRuns eligible t rest g') ∨
    (eligible n ∧ g.nextBatch t.profile.rs (t.ses.batchSize.getD 0) = none ∧ t.lanes[n].stage = .idle ∧
      PassRuns eligible t rest g)

/-- Two states agree in everything but MRU and the messages sent. -/
def SameOutsideMru (t u : State) : Prop := ({ t with mru := u.mru, sent := u.sent } : State) = u

/-- Every lock or buffer request that waits is a claim's, or that of a lane other than n which is at work. -/
def State.WaitersAtWork (s : State) (n : Fin 4) : Prop :=
  (∀ w ∈ s.slk.waiting, w.owner.isClaim = true ∨ ∃ m : Fin 4, m ≠ n ∧ w.owner = .lane m ∧ s.lanes[m].stage ≠ .idle) ∧
    ∀ w ∈ s.sbp.waiting, ∃ m : Fin 4, m ≠ n ∧ w.owner = .lane m ∧ s.lanes[m].stage ≠ .idle

/-! ## Invariants -/

/-- The event line is asserted exactly while the status set and the enable set have a member in common (R199). -/
def State.LineFollows (s : State) : Prop := s.mgp.line = ((s.mgp.status &&& s.mgp.enables) != 0)

/-- Both queues of the Management Port stay within their capacity, and a command waits only while the response queue is full
(R190, R192). -/
def State.HostQueuesFit (s : State) : Prop :=
  s.mgp.commands.length ≤ 16 ∧ s.mgp.responses.length ≤ 16 ∧ (s.mgp.commands = [] ∨ s.mgp.responses.length = 16)

/-- The tags of the claims among lock entries. -/
def claimTags (entries : List LockEntry) : List Byte :=
  entries.filterMap fun e => match e.owner with
    | .lane _ => none
    | .claim tag => some tag

/-- The Route Port's room: the reservation count is the number of waiting claims, no claim shares its tag with another, the
answers filled and reserved fit the answer queue, and a request waits only while they fill it (R69, R71, R88, R93). -/
def State.RouteRoom (s : State) : Prop :=
  s.rtu.requests.length ≤ 32 ∧ s.rtu.reservations = (claimTags s.slk.waiting).length ∧ s.rtu.reservations ≤ 28 ∧
    s.rtu.answers.length + s.rtu.reservations ≤ 64 ∧
    (s.rtu.requests = [] ∨ s.rtu.answers.length + s.rtu.reservations = 64) ∧
    (claimTags (s.slk.held ++ s.slk.waiting)).Nodup

/-- Two lock entries share a stripe. -/
def LockEntry.Meets (a b : LockEntry) : Prop :=
  ∃ stripe, (a.first ≤ stripe ∧ stripe < a.first + a.count) ∧ b.first ≤ stripe ∧ stripe < b.first + b.count

/-- Two lock entries share a stripe and are not both claims (R89). -/
def LockEntry.Clashes (a b : LockEntry) : Prop := a.Meets b ∧ ¬(a.owner.isClaim = true ∧ b.owner.isClaim = true)

/-- The held entries of the class of `e`. -/
def classHeld (held : List LockEntry) (e : LockEntry) : List LockEntry :=
  held.filter fun h => h.owner.isClaim == e.owner.isClaim

/-- The three conditions of R90 on a request, with the held table and the requests older than it on the wait list. -/
def MayBeGranted (held older : List LockEntry) (e : LockEntry) : Prop :=
  (∀ h ∈ held, ¬e.Clashes h) ∧ (∀ w ∈ older, ¬e.Meets w) ∧
    (classHeld held e).length < (if e.owner.isClaim then 60 else 4)

/-- SLK examines waiting requests one at a time (R91). Of those still to be examined, from the oldest on, `granted` are granted,
in order, each meeting R90 with the held table and the older waiting requests as they stand then; `stay` are the requests that
wait in the end. `held` is the held table, and `older` the requests that have been examined and stay. -/
def ScanRuns : List LockEntry → (held older granted stay : List LockEntry) → Prop
  | [], _, older, granted, stay => granted = [] ∧ stay = older
  | e :: rest, held, older, granted, stay =>
    (MayBeGranted held older e ∧ ∃ g, granted = e :: g ∧ ScanRuns rest (held ++ [e]) older g stay) ∨
      (¬MayBeGranted held older e ∧ ScanRuns rest held (older ++ [e]) granted stay)

/-- No two held entries clash, each class keeps to its held slots, and no waiting request meets the three conditions of R90
(R88, R89, R92). -/
def State.LocksApart (s : State) : Prop :=
  (s.slk.held.Pairwise fun a b => ¬a.Clashes b) ∧
    (s.slk.held.filter fun e => e.owner.isClaim).length ≤ 60 ∧ (s.slk.held.filter fun e => !e.owner.isClaim).length ≤ 4 ∧
    ∀ older e younger, s.slk.waiting = older ++ e :: younger → ¬MayBeGranted s.slk.held older e

/-- The oldest buffer request that waits does not fit the free pool (R111, R112). -/
def State.BufferHeadWaits (s : State) : Prop := ∀ r rest, s.sbp.waiting = r :: rest → s.sbp.free.length < r.size

/-- What waits, holds or is solved is a lane at that stage (R109, R115, R116, R120, R126): a lane stands at most once in SBP's
wait list (in BUFFERING), in SLK's (in LOCKING) and in the holding order (in HOLDING), RCD has a context for lanes in SOLVING
only, and a lane that is IDLE or in BUFFERING has no buffers. Qualification waits and has buffers in QUALIFYING only (R23). -/
def State.StagesFit (s : State) : Prop :=
  ((s.sbp.waiting.map (·.owner)).Nodup ∧ (∀ w ∈ s.sbp.waiting, ∀ n : Fin 4, w.owner = .lane n → s.lanes[n].stage = .buffering) ∧
      ∀ w ∈ s.sbp.waiting, w.owner = .qualification → s.ses.state = .qualifying ∧ s.ses.qualSet = [] ∧
        ∃ q, s.ses.qualProgress = some q ∧ q.phase = .buffers ∧ q.held = .none) ∧
    (((s.slk.waiting.filter fun e => !e.owner.isClaim).map (·.owner)).Nodup ∧
      ∀ e ∈ s.slk.waiting, ∀ n : Fin 4, e.owner = .lane n → s.lanes[n].stage = .locking) ∧
    (s.holdingOrder.Nodup ∧ ∀ n ∈ s.holdingOrder, s.lanes[n].stage = .holding) ∧
    (∀ n : Fin 4, s.rcd.contexts[n] ≠ none → s.lanes[n].stage = .solving) ∧
    (∀ n : Fin 4, s.lanes[n].stage = .idle ∨ s.lanes[n].stage = .buffering → s.lanes[n].bufs = []) ∧
    (s.ses.qualSet ≠ [] → s.ses.state = .qualifying)

/-- Each of the 128 strip buffers is in exactly one place: the free pool, the quarantine hold, a lane's set or qualification's
(R110). The free pool is ascending, so that its head holds the lowest-numbered buffers (R111). -/
def State.BuffersInPlace (s : State) : Prop :=
  s.sbp.free.Pairwise (· < ·) ∧
    (s.sbp.free ++ s.sbp.quarantineHold ++ ((List.finRange 4).flatMap fun n => s.lanes[n].bufs) ++ s.ses.qualSet).Perm
      (List.finRange 128)

/-- The record list is in ascending order of stripe, with no stripe twice, and holds at most 256 records (R174, R176). -/
def State.RecordsInOrder (s : State) : Prop :=
  (s.lrl.records.Pairwise fun a b => a.stripe < b.stripe) ∧ s.lrl.records.length ≤ 256

/-- The schedule queue holds exactly the STALE regions, each once (R46, R47). -/
def State.QueueHoldsStale (s : State) : Prop := s.rgt.queue.Nodup ∧ ∀ r, r ∈ s.rgt.queue ↔ s.rgt.isStale r = true

/-- Three of the limits of Table 7-2 at every position: at most 4 outstanding, a pacing history of at most 32, a timeout count
of at most 3. A pacing expiry is set only while a request is queued (R140). -/
def State.IssueLimits (s : State) : Prop :=
  ∀ p ∈ s.mru.positions, p.outstanding.length ≤ 4 ∧ p.history.length ≤ 32 ∧ p.timeouts ≤ 3 ∧
    (p.queue = [] → p.expiry = none)

/-- The records of each position name it, and no two request records carry the same tag (R134, R135). -/
def State.TagsHeldOnce (s : State) : Prop :=
  s.mru.positions.length = 16 ∧
    (∀ x, ∀ r ∈ (s.mru.pos x).queue ++ (s.mru.pos x).outstanding, r.position = x) ∧ (s.mru.records.filterMap (·.tag)).Nodup

/-- No position waits for a tag while one is free (R139). -/
def State.TagOrderServed (s : State) : Prop := s.mru.tagWait = [] ∨ s.NoTagFree

/-- The settings lie in their ranges (R54, R130, R141, R151). -/
def State.SettingsInRange (s : State) : Prop :=
  (1 ≤ s.mru.paceLimit ∧ s.mru.paceLimit ≤ 32) ∧ (1 ≤ s.mru.paceWindow ∧ s.mru.paceWindow ≤ 1000) ∧
    (100 ≤ s.mru.timeout ∧ s.mru.timeout ≤ 60000) ∧ s.rgt.heatThreshold ≤ 255 ∧
    (1 ≤ s.ses.laneCount ∧ s.ses.laneCount ≤ 4)

/-- The buffer memory keeps its canonical form. The rest says that every block the part can name lies in a buffer: strips
have at most 64 blocks, a request's block range ends by block 64, and RCD's next block is below 64 (R110, R134, R161). -/
def State.MemoryCanonical (s : State) : Prop :=
  s.mem.wf = true ∧ (∀ p, s.geo.profile = some p → p.l ≤ 64) ∧ (∀ r ∈ s.mru.records, r.firstBlock + r.blocks ≤ 64) ∧
    ∀ n : Fin 4, ∀ c, s.rcd.contexts[n] = some c → c.block < 64

/-- The fields of a profile lie in the ranges of Table 1-1. -/
def Profile.Fits (p : Profile) : Prop :=
  (4 ≤ p.n ∧ p.n ≤ 16) ∧ (1 ≤ p.l ∧ p.l ≤ 64) ∧ (∃ i < 13, p.rs = 2 ^ (i + 4)) ∧ (12 ≤ p.k ∧ p.k ≤ 30) ∧
    1 ≤ p.t ∧ p.t ≤ p.rs * 16384

/-- The segment table has 16 rows of 16 entries (R7). -/
def Geo.Shaped (g : Geo) : Prop := g.segments.length = 16 ∧ ∀ row ∈ g.segments, row.length = 16

/-- A set profile lies in the ranges of Table 1-1, and the segment table keeps its shape (R1, R7). -/
def State.GeometryInRange (s : State) : Prop := (∀ p, s.geo.profile = some p → p.Fits) ∧ s.geo.Shaped

end Sys2Proof.Machine
end

