-- ==== Sys2Proof/Certificates/Slice0/Obligations.lean ====
section
/-! DEFINITION. The statements for the provers, by chapter: the step and the Management Port, geometry, sessions, the rebuild
order, settings and reports, the Route Port, lanes and member requests, reconstruction, and the invariants every step keeps. -/

open Sys2Proof Sys2Proof.Machine

/-! ## The step -/

/-- A step takes the command at the front of the queue and runs it on the state with the rest of the queue. -/
def Obligations.StepTakesFrontCommand : Prop :=
  ∀ (s : State) (c : Instr) (rest : List Instr), s.pending = c :: rest → step s = exec c { s with pending := rest }

/-- Every command answers a next state, in every state, and leaves the queue of waiting commands unchanged; so does a step with
none waiting: a millisecond passes while no time event is due, and otherwise an event set for the earliest time is taken (the
model's choice, logs 2 and 4). -/
def Obligations.EveryStepAnswers : Prop :=
  (∀ (c : Instr) (s : State), ∃ t, exec c s = .next t ∧ t.pending = s.pending) ∧
  ∀ s : State, s.pending = [] →
    ((∀ e ∈ s.mru.timeEvents, s.now < e.1) → step s = .next { s with now := s.now + 1, sent := [] }) ∧
    ((∃ e ∈ s.mru.timeEvents, e.1 ≤ s.now) →
      ∃ e ∈ s.mru.timeEvents, (∀ x ∈ s.mru.timeEvents, e.1 ≤ x.1) ∧
        ∃ k, step s = .next (({ s with freeCount := k } : State).takeTimeEvent e.2))

/-- POWER_ON_RESET leaves every piece of state at the value the manual gives it. -/
def Obligations.PowerOnResetValues : Prop :=
  ∀ s : State, ∃ t, exec .powerOnReset s = .next t ∧
    (t.mgp.commands = [] ∧ t.mgp.responses = [] ∧ t.mgp.status = 0 ∧ t.mgp.enables = 0 ∧ t.mgp.line = false) ∧
    (t.geo.profile = none ∧ ∀ x j, t.geo.entry x j = none) ∧
    (t.ses.state = .absent ∧ t.ses.cause = .none ∧ t.ses.failedPos = none ∧ t.ses.roles = [] ∧
      t.ses.faultedSurvivor = none ∧ t.ses.batchSize = none ∧ t.ses.laneCount = 4 ∧ t.ses.fillKind = none ∧
      t.ses.qualArea = none ∧ t.ses.qualProgress = none ∧ t.ses.qualSet = []) ∧
    (t.rgt.regions = [] ∧ t.rgt.queue = [] ∧ t.rgt.nextActivation = none ∧ t.rgt.rebuiltRegions = none ∧
      t.rgt.rebuiltStripes = none ∧ t.rgt.heatThreshold = 32) ∧
    (t.rtu.requests = [] ∧ t.rtu.answers = [] ∧ t.rtu.reservations = 0) ∧ (t.slk.held = [] ∧ t.slk.waiting = []) ∧
    (∀ n : Fin 4, t.lanes[n].stage = .idle ∧ t.lanes[n].outcome = .none ∧ t.lanes[n].batch = none ∧ t.lanes[n].bufs = [] ∧
      t.lanes[n].reads = [] ∧ t.lanes[n].results = [] ∧ t.lanes[n].offers = [] ∧ t.lanes[n].outstanding = 0) ∧
    t.holdingOrder = [] ∧ ((∀ b : BufId, b ∈ t.sbp.free) ∧ t.sbp.quarantineHold = [] ∧ t.sbp.waiting = []) ∧
    (∀ x, (t.mru.pos x).queue = [] ∧ (t.mru.pos x).outstanding = [] ∧ (t.mru.pos x).history = [] ∧
      (t.mru.pos x).timeouts = 0 ∧ (t.mru.pos x).expiry = none) ∧
    (t.mru.quarantined = [] ∧ t.mru.tagWait = [] ∧ t.mru.paceLimit = 8 ∧ t.mru.paceWindow = 20 ∧ t.mru.timeout = 8000) ∧
    ((∀ n : Fin 4, t.rcd.contexts[n] = none) ∧ t.rcd.check = true) ∧ t.lrl.records = []

/-- State.reset meets every invariant stated below. -/
def Obligations.ResetMeetsInvariants : Prop :=
  State.reset.LineFollows ∧ State.reset.HostQueuesFit ∧ State.reset.RouteRoom ∧ State.reset.LocksApart ∧
    State.reset.BufferHeadWaits ∧ State.reset.StagesFit ∧ State.reset.BuffersInPlace ∧ State.reset.RecordsInOrder ∧
    State.reset.QueueHoldsStale ∧ State.reset.IssueLimits ∧ State.reset.TagsHeldOnce ∧ State.reset.TagOrderServed ∧
    State.reset.SettingsInRange ∧ State.reset.GeometryInRange ∧ State.reset.MemoryCanonical

/-! ## The Management Port -/

/-- R191: a command message joins the tail of the command queue, or, with 16 waiting, is discarded with COMMAND_OVERRUN. MGP
then takes what R192 lets it take: nothing while the response queue is full. -/
def Obligations.CommandQueuesOrIsDiscarded : Prop :=
  ∀ (m : CommandMessage) (s : State), m.params.length ≤ 255 →
    let done := exec (.commandArrival (commandMessage m.tag m.opcode m.params)) s
    (s.mgp.commands.length < 16 →
      Becomes done ({ s.beginEvent with mgp := { s.mgp with commands := s.mgp.commands ++ [m] } } : State).takeCommands) ∧
    (16 ≤ s.mgp.commands.length →
      Becomes done (s.beginEvent.noting (Event.bit .commandOverrun)).takeCommands ∧
      (16 ≤ s.mgp.responses.length → Becomes done (s.noting (Event.bit .commandOverrun))))

/-- R192: MGP takes the head of the command queue while the response queue holds fewer than 16, and each command taken writes
one response with its tag at the tail. -/
def Obligations.CommandsTakenInOrder : Prop :=
  (∀ s : State, s.mgp.commands = [] ∨ 16 ≤ s.mgp.responses.length → s.takeCommands = s) ∧
    (∀ (s : State) (m : CommandMessage) (rest : List CommandMessage), s.mgp.commands = m :: rest →
      s.mgp.responses.length < 16 →
      s.takeCommands = (({ s with mgp := { s.mgp with commands := rest } } : State).takeMessage m).takeCommands) ∧
    ∀ (m : CommandMessage) (s : State), ∃ r, Responded s (s.takeMessage m) m.tag r

/-- R193: a read hands the host the head response and lets MGP take the next command; a read of an empty queue hands it the
empty indication and changes nothing. What the host is handed stands in `sent` (log 7). -/
def Obligations.ResponseReadFromHead : Prop :=
  ∀ s : State,
    (s.mgp.responses = [] → exec .responseRead s = .next { s with sent := [.response [0, 0, 0, 0, 0, 0]] }) ∧
    ∀ r rest, s.mgp.responses = r :: rest →
      exec .responseRead s = .next ({ s with mgp := { s.mgp with responses := rest },
                                             sent := [.response r.bytes] } : State).takeCommands ∧
      (rest.length < 16 → s.mgp.commands = [] →
        exec .responseRead s = .next { s with mgp := { s.mgp with responses := rest }, sent := [.response r.bytes] })

/-- R194: the opcode is checked first, then the parameter length against Table 10-3; a message that passes both is the command
of its opcode with the parameters it carries, and its tag is copied into the one response. -/
def Obligations.DecodeChecksInOrder : Prop :=
  ∀ (m : CommandMessage) (s : State), m.params.length ≤ 255 → s.HostReady →
    let done := exec (.commandArrival (commandMessage m.tag m.opcode m.params)) s
    (m.opcode.toNat = 0 ∨ 24 < m.opcode.toNat →
      Becomes done (s.respond m.tag { code := .unknownCommand, reason := .none, payload := [] }) ∧
      Becomes (exec (.unknownCommand m.tag m.opcode m.params) s)
        (s.respond m.tag { code := .unknownCommand, reason := .none, payload := [] })) ∧
    (1 ≤ m.opcode.toNat → m.opcode.toNat ≤ 24 → lengthFits m = false →
      Becomes done (s.respond m.tag { code := .refusedRange, reason := .none, payload := [] })) ∧
    (lengthFits m = true → ∃ c : HostCommand, c.opcode = m.opcode ∧ c.params = m.params ∧
      done = .next ((runCommand c s.beginEvent).1.respond m.tag (runCommand c s.beginEvent).2))

/-- The model's choice (logs 1 and 19): each row of the table that is one host command or one route request is, in every state,
the arrival of the bytes of its message. The bytes are those of R205 (tag, code of Table 10-2, parameter length, parameters of
Table 10-3 in order, each field little-endian) and of R207; byte 3 of a RELEASE row's message is the length of its list. -/
def Obligations.RowsSpellTheirMessages : Prop :=
  ∀ (tag : BitVec 16) (s : State),
    (∀ (n l : Byte) (t rs : BitVec 32) (k : Byte), exec (.setGeometry tag n l t rs k) s =
      exec (.commandArrival (commandMessage tag 0x01 ([n, l] ++ bytes32 t ++ bytes32 rs ++ [k]))) s) ∧
    (∀ (x f : Byte) (elements : List SegmentElement), elements.length ≤ 31 → exec (.setSegments tag x f elements) s =
      exec (.commandArrival (commandMessage tag 0x02 ([x, f, BitVec.ofNat 8 elements.length] ++
        elements.flatMap fun e => bytes48 e.base ++ [e.kind, e.unread]))) s) ∧
    (∀ (f b lanes fill : Byte) (start : BitVec 16) (aq : BitVec 48) (kq skip : Byte),
      exec (.openSession tag f b lanes fill start aq kq skip) s =
        exec (.commandArrival (commandMessage tag 0x03 ([f, b, lanes, fill] ++ bytes16 start ++ bytes48 aq ++ [kq, skip]))) s) ∧
    exec (.start tag) s = exec (.commandArrival (commandMessage tag 0x04 [])) s ∧
    exec (.pause tag) s = exec (.commandArrival (commandMessage tag 0x05 [])) s ∧
    exec (.resume tag) s = exec (.commandArrival (commandMessage tag 0x06 [])) s ∧
    exec (.step tag) s = exec (.commandArrival (commandMessage tag 0x07 [])) s ∧
    exec (.abort tag) s = exec (.commandArrival (commandMessage tag 0x08 [])) s ∧
    exec (.closeSession tag) s = exec (.commandArrival (commandMessage tag 0x09 [])) s ∧
    (∀ region, exec (.promote tag region) s = exec (.commandArrival (commandMessage tag 0x0A (bytes16 region))) s) ∧
    (∀ region, exec (.demote tag region) s = exec (.commandArrival (commandMessage tag 0x0B (bytes16 region))) s) ∧
    (∀ x, exec (.memberDown tag x) s = exec (.commandArrival (commandMessage tag 0x0C [x])) s) ∧
    (∀ w window, exec (.setPace tag w window) s = exec (.commandArrival (commandMessage tag 0x0D ([w] ++ bytes16 window))) s) ∧
    (∀ ms, exec (.setTimeout tag ms) s = exec (.commandArrival (commandMessage tag 0x0E (bytes16 ms))) s) ∧
    (∀ h, exec (.setHeat tag h) s = exec (.commandArrival (commandMessage tag 0x0F (bytes16 h))) s) ∧
    (∀ count, exec (.setLanes tag count) s = exec (.commandArrival (commandMessage tag 0x10 [count])) s) ∧
    (∀ setting, exec (.setCheck tag setting) s = exec (.commandArrival (commandMessage tag 0x11 [setting])) s) ∧
    (∀ events, exec (.setEventEnables tag events) s = exec (.commandArrival (commandMessage tag 0x12 (bytes16 events))) s) ∧
    (∀ events, exec (.ackEvents tag events) s = exec (.commandArrival (commandMessage tag 0x13 (bytes16 events))) s) ∧
    exec (.getStatus tag) s = exec (.commandArrival (commandMessage tag 0x14 [])) s ∧
    (∀ region, exec (.getRegion tag region) s = exec (.commandArrival (commandMessage tag 0x15 (bytes16 region))) s) ∧
    (∀ first max, exec (.listRecords tag first max) s = exec (.commandArrival (commandMessage tag 0x16 (bytes32 first ++ [max]))) s) ∧
    (∀ stripe, exec (.forgive tag stripe) s = exec (.commandArrival (commandMessage tag 0x17 (bytes32 stripe))) s) ∧
    exec (.resetEngine tag) s = exec (.commandArrival (commandMessage tag 0x18 [])) s ∧
    (∀ (t count : Byte) (first : BitVec 32), exec (.query t count first) s =
      exec (.routeRequestArrival (routeMessage ⟨1, t, count, 0, first, []⟩)) s) ∧
    (∀ (t count : Byte) (first : BitVec 32), exec (.claim t count first) s =
      exec (.routeRequestArrival (routeMessage ⟨2, t, count, 0, first, []⟩)) s) ∧
    (∀ (t : Byte) (listed : List (BitVec 32)), listed.length ≤ 255 → exec (.release t listed) s =
      exec (.routeRequestArrival (routeMessage ⟨3, t, 0, BitVec.ofNat 8 listed.length, 0, listed⟩)) s) ∧
    ∀ r : RouteRequest, ListsAsCounted r → exec (.unknownRouteKind r) s = exec (.routeRequestArrival (routeMessage r)) s

/-- R205, R207, R209: the bytes of a message are read as what was written. A command message, a route request and a completion
are read from exactly the bytes that spell them, header fields and lists included, and a command whose parameters fit their
widths is decoded from its own parameter bytes, with every parameter. -/
def Obligations.MessagesReadAsWritten : Prop :=
  (∀ (bytes : List Byte) (m : CommandMessage), CommandMessage.read bytes = some m ↔
    bytes = commandMessage m.tag m.opcode m.params ∧ m.params.length ≤ 255) ∧
  (∀ c : HostCommand, c.fits → decodeCommand c.opcode c.params = .command c) ∧
  (∀ (bytes : List Byte) (r : RouteRequest), RouteRequest.read bytes = some r ↔ bytes = routeMessage r ∧ ListsAsCounted r) ∧
  ∀ (bytes : List Byte) (c : Completion), Completion.read bytes = some c ↔
    bytes = [c.tag, c.status, c.position] ++ bytes64 c.mask

/-- Table 10-2, R195: a command given in a state outside its accepted states is answered REFUSED_STATE (SET_CHECK:
REFUSED_BUSY). A reply other than DONE has an empty payload and leaves the state as it was; its reason is NOT_STALE for a region
of PROMOTE or DEMOTE that is not STALE, SESSION for every other REFUSED_STATE, and NONE otherwise. -/
def Obligations.RefusalsChangeNothing : Prop :=
  (∀ (tag : BitVec 16) (c : HostCommand) (s : State), c.fits → s.HostReady → s.ses.state ∉ acceptedIn c →
    Becomes (exec (.commandArrival (commandMessage tag c.opcode c.params)) s) (s.respond tag (refusalOf c))) ∧
  ∀ (c : HostCommand) (s : State),
    ((runCommand c s).2.code ≠ .done → (runCommand c s).1 = s ∧ (runCommand c s).2.payload = []) ∧
    ((runCommand c s).2.code ≠ .refusedState → (runCommand c s).2.reason = .none) ∧
    ((runCommand c s).2.code = .refusedState →
      (runCommand c s).2.reason = .session ∨
      ((runCommand c s).2.reason = .notStale ∧ ∃ (n : Nat) (r : Region), (c = .promote n ∨ c = .demote n) ∧
        s.rgt.regions[n]? = some r ∧ r.state ≠ .stale))

/-! ## Geometry -/

/-- R2, R3: SET_GEOMETRY sets the profile and unsets every entry in ABSENT with every field in range, and is refused
otherwise. -/
def Obligations.SetGeometryResult : Prop :=
  ∀ (tag : BitVec 16) (n l : Byte) (t rs : BitVec 32) (k : Byte) (s : State), s.HostReady →
    let p : Profile := { n := n.toNat, l := l.toNat, t := t.toNat, rs := rs.toNat, k := k.toNat }
    let need := (p.t * p.l + 2 ^ p.k - 1) / 2 ^ p.k
    (s.ses.state ≠ .absent →
      Becomes (exec (.setGeometry tag n l t rs k) s)
        (s.respond tag { code := .refusedState, reason := .session, payload := [] })) ∧
    (s.ses.state = .absent → ¬p.Fits →
      Becomes (exec (.setGeometry tag n l t rs k) s)
        (s.respond tag { code := .refusedRange, reason := .none, payload := [] })) ∧
    (s.ses.state = .absent → p.Fits →
      Becomes (exec (.setGeometry tag n l t rs k) s)
        (State.respond tag { code := .done, reason := .none,
                             payload := leBytes 2 ((p.t + p.rs - 1) / p.rs) ++ leBytes 4 need ++
                               leBytes 2 (p.n * min need 16) }
          { s with geo := { profile := some p, segments := List.replicate 16 (List.replicate 16 none) } }))

/-- R8 to R10: the checks of Table 1-4 in order, and the load of an accepted list, whole. The entry at index j after the load
is `after j`. -/
def Obligations.SetSegmentsResult : Prop :=
  ∀ (tag : BitVec 16) (x f : Byte) (elements : List SegmentElement) (s : State), s.HostReady → s.geo.Shaped →
    elements.length ≤ 31 →
    let done := exec (.setSegments tag x f elements) s
    let count := elements.length
    let value := fun (e : SegmentElement) => if e.kind = 0 then some e.base.toNat else none
    let after := fun (j : Nat) =>
      if f.toNat ≤ j ∧ j < f.toNat + count then (elements[j - f.toNat]?).bind value else s.geo.entry x.toNat j
    (s.ses.state ≠ .absent → Becomes done (s.respond tag { code := .refusedState, reason := .session, payload := [] })) ∧
    (s.ses.state = .absent → s.geo.profile = none →
      Becomes done (s.respond tag { code := .incomplete, reason := .none, payload := [] })) ∧
    ∀ p, s.ses.state = .absent → s.geo.profile = some p → p.Fits →
      let inList := x.toNat < p.n ∧ 1 ≤ count ∧ count ≤ 16 ∧ f.toNat + count ≤ 16
      let basesFit := ∀ e ∈ elements, e.kind = 1 ∨
        (e.kind = 0 ∧ e.base.toNat % 8 = 0 ∧ e.base.toNat + 2 ^ p.k ≤ 2 ^ 48)
      let overlap := ∃ i j a b, f.toNat ≤ i ∧ i < f.toNat + count ∧ j < 16 ∧ i ≠ j ∧ after i = some a ∧ after j = some b ∧
        a < b + 2 ^ p.k ∧ b < a + 2 ^ p.k
      (¬(inList ∧ basesFit) → Becomes done (s.respond tag { code := .refusedRange, reason := .none, payload := [] })) ∧
      (inList → basesFit → overlap → Becomes done (s.respond tag { code := .overlap, reason := .none, payload := [] })) ∧
      (inList → basesFit → ¬overlap → ∃ g : Geo, g.profile = some p ∧
        (∀ y j, g.entry y j = if y = x.toNat then after j else s.geo.entry y j) ∧
        Becomes done (State.respond tag { code := .done, reason := .none, payload := leBytes 2 (g.missingBases p) }
          { s with geo := g }))

/-- R5, R6, R11, R12: the placement of P, Q and data rotates with the stripe, gives each position one strip, and answers the role
of each position. A strip is one extent where it fits its segment, and two where it crosses into the next; a strip length that
divides the segment, as every power of two does, never splits. -/
def Obligations.PlacementAndExtents : Prop :=
  (∀ (p : Profile) (s : Nat), 4 ≤ p.n →
      (p.pPos s = p.n - 1 - s % p.n ∧ p.qPos s = (p.pPos s + 1) % p.n ∧
        ∀ d, p.dataPos s d = (p.qPos s + 1 + d) % p.n) ∧
      (p.pPos s < p.n ∧ p.qPos s < p.n ∧ p.pPos s ≠ p.qPos s) ∧
      (∀ d, d < p.n - 2 → p.dataPos s d < p.n ∧ p.dataPos s d ≠ p.pPos s ∧ p.dataPos s d ≠ p.qPos s ∧
        ∀ e, e < p.n - 2 → p.dataPos s d = p.dataPos s e → d = e) ∧
      (∀ x, x < p.n → x = p.pPos s ∨ x = p.qPos s ∨ ∃ d, d < p.n - 2 ∧ x = p.dataPos s d) ∧
      (∀ x, x < p.n → p.role (s + p.n) x = p.role s x) ∧
      (p.role s (p.pPos s) = .p ∧ p.role s (p.qPos s) = .q) ∧
      (∀ x, x < p.n → x ≠ p.pPos s → x ≠ p.qPos s → ∃ d, p.role s x = .data d ∧ d ≤ p.n - 3 ∧
        (d : Int) = ((x : Int) - p.qPos s - 1) % p.n) ∧
      (p.n = 5 → p.pPos 7 = 2 ∧ p.qPos 7 = 3 ∧ p.dataPos 7 0 = 4 ∧ p.dataPos 7 1 = 0 ∧ p.dataPos 7 2 = 1)) ∧
  ∀ (g : Geo) (p : Profile) (s x : Nat), p.Fits →
    let seg := 2 ^ p.k
    let j := (s * p.l) / seg
    let e := (s * p.l) % seg
    (∀ base, g.entry x j = some base → e + p.l ≤ seg →
      g.extents p s x = [{ address := base + e, blocks := p.l, firstBlock := 0 }]) ∧
    (∀ base next, g.entry x j = some base → g.entry x (j + 1) = some next → seg < e + p.l →
      g.extents p s x =
        [{ address := base + e, blocks := seg - e, firstBlock := 0 },
          { address := next, blocks := p.l - (seg - e), firstBlock := seg - e }] ∧
      p.l - (seg - e) ≤ seg) ∧
    (seg % p.l = 0 → e + p.l ≤ seg) ∧ ((∃ i, p.l = 2 ^ i) → e + p.l ≤ seg) ∧
    (p.l = 24 → p.k = 16 → ∀ b₀ b₁, g.entry x 0 = some b₀ → g.entry x 1 = some b₁ →
      g.extents p 2730 x =
        [{ address := b₀ + 65520, blocks := 16, firstBlock := 0 }, { address := b₁, blocks := 8, firstBlock := 16 }])

/-! ## Sessions -/

/-- R21, R15 to R17: the checks of OPEN_SESSION in ABSENT, in order; a refused OPEN_SESSION changes nothing. -/
def Obligations.OpenSessionChecks : Prop :=
  ∀ (tag : BitVec 16) (f b lanes fill : Byte) (start : BitVec 16) (aq : BitVec 48) (kq skip : Byte) (s : State),
    s.HostReady → s.ses.state = .absent →
    let refused := fun (code : ResultCode) =>
      Becomes (exec (.openSession tag f b lanes fill start aq kq skip) s)
        (s.respond tag { code := code, reason := .none, payload := [] })
    (s.geo.profile = none → refused .incomplete) ∧
    ∀ p, s.geo.profile = some p →
      let fieldsFit := f.toNat < p.n ∧ 1 ≤ b.toNat ∧ b.toNat ≤ 4 ∧ start.toNat < (p.t + p.rs - 1) / p.rs ∧ fill.toNat ≤ 1
      let complete := p.t * p.l ≤ 16 * 2 ^ p.k ∧
        ∀ x j, x < p.n → j < (p.t * p.l + 2 ^ p.k - 1) / 2 ^ p.k → s.geo.entry x j ≠ none
      let areaFits := 1 ≤ kq.toNat ∧ kq.toNat ≤ 8 ∧ aq.toNat + kq.toNat * p.l ≤ 2 ^ 48
      let areaShared := ∃ j base, j < 16 ∧ s.geo.entry f.toNat j = some base ∧ aq.toNat < base + 2 ^ p.k ∧
        base < aq.toNat + kq.toNat * p.l
      (¬fieldsFit → refused .refusedRange) ∧
      (fieldsFit → ¬complete → refused .incomplete) ∧
      (fieldsFit → complete → skip = 0 → ¬areaFits → refused .refusedRange) ∧
      (fieldsFit → complete → skip = 0 → areaFits → areaShared → refused .overlap) ∧
      (fieldsFit → complete → (skip ≠ 0 ∨ (areaFits ∧ ¬areaShared)) → ∃ t payload,
        exec (.openSession tag f b lanes fill start aq kq skip) s = .next t ∧
        Responded s t tag { code := .done, reason := .none, payload := payload } ∧ t.ses.state ≠ .absent)

/-- R22, R23, R44: what an accepted OPEN_SESSION leaves. With SKIP_QUAL set the session is READY; with it clear it is
QUALIFYING, and its buffer request is granted at once or waits. -/
def Obligations.OpenSessionAccepted : Prop :=
  ∀ (tag : BitVec 16) (f b lanes fill : Byte) (start : BitVec 16) (aq : BitVec 48) (kq skip : Byte) (s : State)
    (p : Profile), s.HostReady → s.ses.state = .absent → s.geo.profile = some p → f.toNat < p.n → 1 ≤ b.toNat →
    b.toNat ≤ 4 → start.toNat < p.regionCount → fill.toNat ≤ 1 →
    s.geo.sessionProblem p f.toNat aq.toNat kq.toNat (skip != 0) = none →
    let count := if lanes.toNat < 1 then 1 else if 4 < lanes.toNat then 4 else lanes.toNat
    let entered : SessionState := if skip = 0 then .qualifying else .ready
    ∃ t, exec (.openSession tag f b lanes fill start aq kq skip) s = .next t ∧
      Responded s t tag { code := .done, reason := .none,
                          payload := leBytes 1 entered.toNat ++ leBytes 1 count } ∧
      Noted s t (Event.bit .stateChange) ∧
      (t.ses.state = entered ∧ t.ses.cause = .none ∧ t.ses.failedPos = some f.toNat ∧ t.ses.faultedSurvivor = none ∧
        t.ses.batchSize = some b.toNat ∧ t.ses.laneCount = count ∧
        t.ses.fillKind = some (if fill = 0 then .zero else .marked) ∧ t.ses.roles.length = p.n ∧
        ∀ x, x < p.n → t.ses.roles[x]? = some (if x = f.toNat then .spare else .survivor)) ∧
      (t.rgt.regions = (List.range p.regionCount).map (fun r =>
          { state := .stale, stripeCount := p.regionStripes r, issueMark := 0, heat := 0, recordCount := 0,
            activation := none }) ∧
        t.rgt.queue = List.range' start.toNat (p.regionCount - start.toNat) ++ List.range start.toNat ∧
        t.rgt.nextActivation = some 1 ∧ t.rgt.rebuiltRegions = some 0 ∧ t.rgt.rebuiltStripes = some 0 ∧
        t.rgt.heatThreshold = s.rgt.heatThreshold) ∧
      (∀ x, (t.mru.pos x).timeouts = 0 ∧ (x ≠ f.toNat → (t.mru.pos x).queue = (s.mru.pos x).queue ∧
        (t.mru.pos x).outstanding = (s.mru.pos x).outstanding)) ∧
      (t.geo = s.geo ∧ t.slk = s.slk ∧ t.lrl = s.lrl ∧ t.lanes = s.lanes ∧ t.rtu = s.rtu ∧ t.rcd = s.rcd ∧ t.now = s.now ∧
        t.holdingOrder = s.holdingOrder ∧ t.mru.quarantined = s.mru.quarantined) ∧
      (skip ≠ 0 → t.ses.qualArea = none ∧ t.ses.qualProgress = none ∧ t.sbp = s.sbp ∧ t.mem = s.mem) ∧
      (skip = 0 → t.ses.qualArea = some (aq.toNat, kq.toNat) ∧
        (s.sbp.waiting = [] → 2 ≤ s.sbp.free.length →
          t.ses.qualSet = s.sbp.free.take 2 ∧ t.sbp.free = s.sbp.free.drop 2 ∧ t.sbp.waiting = [] ∧
          (s.mru.namesQuarantined (s.sbp.free.getD 0 0) = false →
            t.ses.qualProgress = some { strip := 0, attempt := 1, phase := .writing, held := .none })) ∧
        (s.sbp.waiting ≠ [] ∨ s.sbp.free.length < 2 →
          t.sbp.waiting = s.sbp.waiting ++ [{ owner := .qualification, size := 2 }] ∧ t.mem = s.mem ∧
          t.ses.qualProgress = some { strip := 0, attempt := 1, phase := .buffers, held := .none }))

/-- R29, R32, R56 to R59, R61: START in READY and RESUME in PAUSED make the session RUNNING, and a pass serves the IDLE lanes below
the lane count in ascending order: each is handed the batch that is next when the lanes before it have been served, until none is
left (`PassRuns`). -/
def Obligations.StartAndResumeAssignBatches : Prop :=
  ∀ (tag : BitVec 16) (i : Instr) (s : State), s.HostReady →
    (i = .start tag ∧ s.ses.state = .ready) ∨ (i = .resume tag ∧ s.ses.state = .paused) →
    ∃ t, exec i s = .next t ∧ t.ses = { s.ses with state := .running } ∧
      Responded s t tag { code := .done, reason := .none, payload := [] } ∧ Noted s t (Event.bit .stateChange) ∧
      PassRuns (fun n => n.val < s.ses.laneCount ∧ s.lanes[n].stage = .idle) t [0, 1, 2, 3] s.rgt ∧
      (∀ n : Fin 4, n.val < s.ses.laneCount → s.lanes[n].stage = .idle →
        t.lanes[n].batch.isSome = true ∨ t.rgt.nextBatch s.profile.rs (s.ses.batchSize.getD 0) = none) ∧
      (∀ n : Fin 4, s.ses.laneCount ≤ n.val ∨ s.lanes[n].stage ≠ .idle ∨ t.lanes[n].stage = .idle →
        t.lanes[n] = s.lanes[n]) ∧
      (t.geo = s.geo ∧ t.lrl = s.lrl ∧ t.rtu = s.rtu ∧ t.rcd = s.rcd ∧ t.now = s.now ∧ t.mem = s.mem ∧
        t.holdingOrder = s.holdingOrder ∧ t.mru.quarantined = s.mru.quarantined ∧ t.rgt.rebuiltRegions = s.rgt.rebuiltRegions ∧
        t.rgt.rebuiltStripes = s.rgt.rebuiltStripes)

/-- R31: PAUSE in RUNNING or SUSPENDED leaves the session DRAINING. With every lane IDLE already, DRAINING is left at the same
event (the model's choice, log 20). -/
def Obligations.PauseDrains : Prop :=
  ∀ (tag : BitVec 16) (s : State), s.HostReady → s.ses.state = .running ∨ s.ses.state = .suspended →
    let idle := ∀ n : Fin 4, s.lanes[n].stage = .idle
    let rebuilt := ∀ r ∈ s.rgt.regions, r.state = .rebuilt
    let done : Reply := { code := .done, reason := .none, payload := [] }
    (¬idle → Becomes (exec (.pause tag) s) (State.respond tag done (s.entering .draining))) ∧
    (idle → ¬rebuilt → Becomes (exec (.pause tag) s) (State.respond tag done (s.entering .paused))) ∧
    (idle → rebuilt → Becomes (exec (.pause tag) s)
      (State.respond tag done ((s.entering .complete).noting (Event.bit .rebuildComplete))))

/-- R33, R60: STEP in READY or PAUSED, with LN0 IDLE and a batch left, makes the session STEPPING and gives LN0 that batch,
whatever the lane count; no other lane changes. -/
def Obligations.StepGivesLane0OneBatch : Prop :=
  ∀ (tag : BitVec 16) (s : State) (b : Batch) (g : Rgt), s.HostReady → s.ses.state = .ready ∨ s.ses.state = .paused →
    s.lanes[0].stage = .idle → s.rgt.nextBatch s.profile.rs (s.ses.batchSize.getD 0) = some (b, g) →
    ∃ t, exec (.step tag) s = .next t ∧ t.ses = { s.ses with state := .stepping } ∧
      Responded s t tag { code := .done, reason := .none, payload := [] } ∧ Noted s t (Event.bit .stateChange) ∧
      t.rgt = g ∧ t.lanes[0].batch = some b ∧ t.lanes[0].stage ≠ .idle ∧
      (∀ n : Fin 4, n ≠ 0 → t.lanes[n] = s.lanes[n]) ∧
      t.geo = s.geo ∧ t.lrl = s.lrl ∧ t.rtu = s.rtu ∧ t.rcd = s.rcd ∧ t.now = s.now ∧ t.mem = s.mem

/-- R39, R40: ABORT in an open state ends the session in FAILED with cause HOST_ABORT (`SessionEnded`): lanes abandoned, queues
emptied, requests quarantined, strip buffers returned to the free pool or the quarantine hold. -/
def Obligations.AbortEndsSession : Prop :=
  ∀ (tag : BitVec 16) (s : State), s.HostReady → s.ses.state ∈ acceptedIn .abort →
    ∃ t, exec (.abort tag) s = .next t ∧ SessionEnded s t .failed .hostAbort ∧
      Responded s t tag { code := .done, reason := .none, payload := [] } ∧ Noted s t (Event.bit .stateChange) ∧
      t.ses.roles = s.ses.roles ∧ t.ses.failedPos = s.ses.failedPos ∧ t.ses.faultedSurvivor = s.ses.faultedSurvivor

/-- R41: CLOSE_SESSION in READY, PAUSED, COMPLETE, FAILED or BROKEN empties the region table, the record list and SLK, answers
each waiting claim NO_SESSION in wait-list order, and returns the session to ABSENT with the lane count kept. -/
def Obligations.CloseSessionForgets : Prop :=
  ∀ (tag : BitVec 16) (s : State), s.HostReady → s.ses.state ∈ acceptedIn .closeSession →
    Becomes (exec (.closeSession tag) s)
      (State.respond tag { code := .done, reason := .none, payload := [] } (State.noting (Event.bit .stateChange)
        { s with
          ses := { state := .absent, cause := .none, failedPos := none, roles := [], faultedSurvivor := none,
                   batchSize := none, laneCount := s.ses.laneCount, fillKind := none, qualArea := none,
                   qualProgress := none, qualSet := [] }
          rgt := { regions := [], queue := [], nextActivation := none, rebuiltRegions := none, rebuiltStripes := none,
                   heatThreshold := s.rgt.heatThreshold }
          lrl := { records := [] }
          slk := { held := [], waiting := [] }
          rtu := { s.rtu with
                   reservations := 0
                   answers := s.rtu.answers ++ s.slk.waiting.filterMap fun e => match e.owner with
                     | .lane _ => none
                     | .claim tag => some { tag := tag, kind := 2, status := .noSession, number := 0, stripe := e.first,
                                            entries := [] } } }))

/-- R36 to R38: MEMBER_DOWN in an open state, for each row of Table 2-5, and for a position of N or more. At a first survivor
fault the position is cleared (R154), and while no dropped request held a tag no other position is touched (R139); the lanes act
as R119, R120 and R122 give (`LanesFaulted`). An ended session returns the strip buffers (R113, R132). -/
def Obligations.MemberDownEscalates : Prop :=
  ∀ (tag : BitVec 16) (x : Byte) (s : State), s.HostReady → s.ses.state ∈ acceptedIn (.memberDown x.toNat) →
    let done : Reply := { code := .done, reason := .none, payload := [] }
    let role := s.ses.roles[x.toNat]?
    (s.profile.n ≤ x.toNat → Becomes (exec (.memberDown tag x) s)
      (s.respond tag { code := .refusedRange, reason := .none, payload := [] })) ∧
    (x.toNat < s.profile.n → role = some .faulted → Becomes (exec (.memberDown tag x) s) (s.respond tag done)) ∧
    (x.toNat < s.profile.n → role = some .spare → ∃ t, exec (.memberDown tag x) s = .next t ∧
      SessionEnded s t .failed .spareLost ∧ Responded s t tag done ∧ Noted s t (Event.bit .stateChange) ∧
      t.ses.roles = s.ses.roles) ∧
    (x.toNat < s.profile.n → role = some .survivor → s.ses.faultedSurvivor ≠ none →
      ∃ t, exec (.memberDown tag x) s = .next t ∧ SessionEnded s t .broken .tooManyFaults ∧ Responded s t tag done ∧
        Noted s t (Event.bit .stateChange ||| Event.bit .memberFaulted) ∧
        t.ses.roles = s.ses.roles.set x.toNat .faulted ∧ t.ses.faultedSurvivor = s.ses.faultedSurvivor) ∧
    (x.toNat < s.profile.n → role = some .survivor → s.ses.faultedSurvivor = none →
      ∃ t, exec (.memberDown tag x) s = .next t ∧ Responded s t tag done ∧ Noted s t (Event.bit .memberFaulted) ∧
        t.ses = { s.ses with roles := s.ses.roles.set x.toNat .faulted, faultedSurvivor := some x.toNat } ∧
        t.mru.pos x.toNat = { s.mru.pos x.toNat with queue := [], outstanding := [], expiry := none } ∧
        t.mru.quarantined = s.mru.quarantined ++
          (s.mru.pos x.toNat).outstanding.map (fun r => { r with deadline := some (s.now + s.mru.timeout) }) ∧
        ((∀ q ∈ (s.mru.pos x.toNat).queue, q.tag = none) → t.sent = [] ∧
          t.mru.tagWait = s.mru.tagWait.erase x.toNat ∧ ∀ y, y ≠ x.toNat → t.mru.pos y = s.mru.pos y) ∧
        LanesFaulted s t x.toNat ∧
        t.rgt = s.rgt ∧ t.lrl = s.lrl ∧ t.slk = s.slk ∧ t.sbp = s.sbp ∧ t.rtu = s.rtu ∧ t.mem = s.mem ∧ t.geo = s.geo ∧
        t.holdingOrder = s.holdingOrder ∧ t.now = s.now)

/-- R202, R42, R83, R107, R113, R133, R155, R189: RESET_ENGINE in every state. Geometry, the settings and the two queues of MGP
are kept; ENGINE_RESET is the one event left; the strip buffers of lanes and qualification return to SBP. -/
def Obligations.ResetEngineResult : Prop :=
  ∀ (tag : BitVec 16) (s : State), s.HostReady →
    ∃ t, exec (.resetEngine tag) s = .next t ∧ Responded s t tag { code := .done, reason := .none, payload := [] } ∧
      (t.mgp.status = Event.bit .engineReset ∧ t.mgp.enables = s.mgp.enables ∧
        t.mgp.line = ((Event.bit .engineReset &&& s.mgp.enables) != 0)) ∧
      t.ses = { state := .absent, cause := .none, failedPos := none, roles := [], faultedSurvivor := none, batchSize := none,
                laneCount := s.ses.laneCount, fillKind := none, qualArea := none, qualProgress := none, qualSet := [] } ∧
      (∀ n : Fin 4, t.lanes[n] =
        if s.lanes[n].batch = none then s.lanes[n] else { Lane.reset with outcome := .abandoned }) ∧
      t.holdingOrder = [] ∧ t.sbp.waiting = [] ∧ BuffersReturned s t ∧
      (t.rgt.regions = [] ∧ t.rgt.queue = [] ∧ t.rgt.nextActivation = none ∧ t.rgt.rebuiltRegions = none ∧
        t.rgt.rebuiltStripes = none ∧ t.rgt.heatThreshold = s.rgt.heatThreshold) ∧
      t.slk.held = [] ∧ t.slk.waiting = [] ∧ t.lrl.records = [] ∧
      (t.rtu.requests = [] ∧ t.rtu.answers = [] ∧ t.rtu.reservations = 0) ∧
      (∀ n : Fin 4, t.rcd.contexts[n] = none) ∧ t.rcd.check = s.rcd.check ∧ t.geo = s.geo ∧ t.now = s.now ∧ t.mem = s.mem ∧
      (∀ x, (t.mru.pos x).queue = [] ∧ (t.mru.pos x).outstanding = [] ∧ (t.mru.pos x).expiry = none ∧
        (t.mru.pos x).history = (s.mru.pos x).history ∧ (t.mru.pos x).timeouts = 0) ∧
      (t.mru.tagWait = [] ∧ t.mru.paceLimit = s.mru.paceLimit ∧ t.mru.paceWindow = s.mru.paceWindow ∧
        t.mru.timeout = s.mru.timeout ∧
        t.mru.quarantined = s.mru.quarantined.map (fun r => { r with owner := none }) ++
          (s.mru.positions.flatMap (·.outstanding)).map (Request.cutOff (s.now + s.mru.timeout)))

/-! ## The rebuild order -/

/-- R48, R49, R52, R53: PROMOTE and DEMOTE in an open state, with the checks in order. A contribution adds 1 to the heat of each
STALE region it touches, up to 255, and moves those at H or above to the head of the queue in ascending number, with heat 0. A
PROMOTE and a contribution of one region are taken one after the other by these rules; that this leaves heat 1 behind a PROMOTE
when H is 2 or more, against the third bullet of R50, is the model's choice (log 24). -/
def Obligations.QueueReordersAndHeatRises : Prop :=
  (∀ (tag region : BitVec 16) (s : State), s.HostReady → s.ses.state ∈ acceptedIn (.promote region.toNat) →
      let n := region.toNat
      let others := s.rgt.queue.filter (· != n)
      let cooled := s.rgt.regions.modify n fun r => { r with heat := 0 }
      (s.rgt.regions.length ≤ n → ∀ i, i = .promote tag region ∨ i = .demote tag region →
        Becomes (exec i s) (s.respond tag { code := .refusedRange, reason := .none, payload := [] })) ∧
      ∀ r, s.rgt.regions[n]? = some r →
        (r.state ≠ .stale → ∀ i, i = .promote tag region ∨ i = .demote tag region →
          Becomes (exec i s) (s.respond tag { code := .refusedState, reason := .notStale, payload := [] })) ∧
        (r.state = .stale →
          Becomes (exec (.promote tag region) s) (State.respond tag { code := .done, reason := .none, payload := [0, 0] }
            { s with rgt := { s.rgt with queue := n :: others, regions := cooled } }) ∧
          Becomes (exec (.demote tag region) s)
            (State.respond tag { code := .done, reason := .none, payload := leBytes 2 ((others ++ [n]).length - 1) }
              { s with rgt := { s.rgt with queue := others ++ [n], regions := cooled } }))) ∧
  ∀ (g : Rgt) (rs s1 s2 : Nat), 1 ≤ rs → s1 ≤ s2 →
    let t := g.contribute rs s1 s2
    let touched := fun (r : Nat) => decide (s1 / rs ≤ r) && decide (r ≤ s2 / rs)
    let gains := fun (r : Nat) (x : Region) => touched r && x.state == .stale
    let hot := fun (r : Nat) (x : Region) =>
      gains r x && decide (1 ≤ g.heatThreshold) && decide (g.heatThreshold ≤ min 255 (x.heat + 1))
    let moved := (List.range g.regions.length).filter fun r => g.regions[r]?.any (hot r)
    t.queue = moved ++ g.queue.filter (fun r => !moved.contains r) ∧
      (∀ r : Nat, t.regions[r]? = g.regions[r]?.map fun (x : Region) =>
        ({ x with heat := if hot r x then 0 else if gains r x then min 255 (x.heat + 1) else x.heat } : Region)) ∧
      t.nextActivation = g.nextActivation ∧ t.rebuiltRegions = g.rebuiltRegions ∧ t.rebuiltStripes = g.rebuiltStripes ∧
      t.heatThreshold = g.heatThreshold

/-- R58, R59, R61: the next batch comes from the ACTIVE region with stripes left that has the lowest activation number, and
else from the head of the queue, which becomes ACTIVE; with neither there is none. -/
def Obligations.NextBatchFromTwoSources : Prop :=
  ∀ (g : Rgt) (rs b : Nat),
    let left := fun (r : Region) => r.state = .active ∧ r.issueMark < r.stripeCount
    (∀ (n : Nat) (r : Region), g.regions[n]? = some r → left r →
      ∃ (n' : Nat) (r' : Region), g.regions[n']? = some r' ∧ left r' ∧ r'.activation.getD 0 ≤ r.activation.getD 0 ∧
        g.nextBatch rs b = some ({ region := n', first := n' * rs + r'.issueMark,
                                   length := min b (r'.stripeCount - r'.issueMark) },
          { g with regions := g.regions.modify n' fun x =>
            { x with issueMark := x.issueMark + min b (r'.stripeCount - r'.issueMark) } })) ∧
    ((∀ (n : Nat) (r : Region), g.regions[n]? = some r → ¬left r) →
      (g.queue = [] → g.nextBatch rs b = none) ∧
      ∀ (n : Nat) (rest : List Nat) (r : Region), g.queue = n :: rest → g.regions[n]? = some r →
        g.nextBatch rs b = some ({ region := n, first := n * rs, length := min b r.stripeCount },
          { g with
            queue := rest
            nextActivation := g.nextActivation.map (· + 1)
            regions := g.regions.modify n fun x =>
              { x with state := .active, activation := g.nextActivation, heat := 0, issueMark := min b r.stripeCount } }))

/-- R62, R63, R128, R129: the end of a lane's batch. The count of rebuilt stripes rises by its length, the outcome says whether
it produced a record, and the region completion test makes a region REBUILT. The lane's lock leaves the held table, and its
buffers return (R113). The session leaves RUNNING, SUSPENDED, DRAINING or STEPPING as R30, R31, R33 and R34 give: COMPLETE with
REBUILD_COMPLETE, PAUSED, STEP_DONE, or back to RUNNING. In RUNNING a pass follows, over this lane, or over every IDLE one where
SUSPENDED has just been left: in ascending order each lane gets the batch that is next then (`PassRuns`, R56 to R59). -/
def Obligations.BatchEndCountsAndClears : Prop :=
  (∀ (n : Fin 4) (s : State) (b : Batch), s.lanes[n].batch = some b →
    (s.endBatch n).rgt.rebuiltStripes = s.rgt.rebuiltStripes.map (· + b.length) ∧
    (s.endBatch n).lanes[n].outcome =
      (if s.lanes[n].results.any (fun r => r.lost != 0 || r.suspect != 0) then .recorded else .clean) ∧
    (s.endBatch n).lrl = s.lrl ∧
    (s.ses.state ≠ .running → s.ses.state ≠ .suspended → (s.endBatch n).lanes[n].stage = .idle ∧
      (s.endBatch n).lanes[n].batch = none ∧ (s.endBatch n).lanes[n].bufs = [])) ∧
  (∀ (region : Nat) (s : State) (r : Region), s.rgt.regions[region]? = some r →
    ((r.state = .active ∧ r.issueMark = r.stripeCount ∧
        ∀ (n : Fin 4) (b : Batch), s.lanes[n].batch = some b → b.region ≠ region) →
      s.testRegion region = { s with rgt := { s.rgt with
        regions := s.rgt.regions.modify region fun x => { x with state := .rebuilt }
        rebuiltRegions := s.rgt.rebuiltRegions.map (· + 1) } }) ∧
    (¬(r.state = .active ∧ r.issueMark = r.stripeCount ∧
        ∀ (n : Fin 4) (b : Batch), s.lanes[n].batch = some b → b.region ≠ region) → s.testRegion region = s)) ∧
  ∀ (n : Fin 4) (s : State) (b : Batch), s.lanes[n].batch = some b → s.WaitersAtWork n →
    let t := s.endBatch n
    let named := fun (buf : BufId) => s.mru.quarantined.any fun r => r.buf == buf
    let after := ({ s with lanes := s.lanes.set n Lane.reset } : State).testRegion b.region
    let counted := { after.rgt with rebuiltStripes := after.rgt.rebuiltStripes.map (· + b.length) }
    let rebuilt := ∀ r ∈ after.rgt.regions, r.state = .rebuilt
    let idle := ∀ m : Fin 4, m ≠ n → s.lanes[m].stage = .idle
    let complete := { s.ses with state := .complete }
    let completed := Event.bit .stateChange ||| Event.bit .rebuildComplete
    let served := fun (m : Fin 4) => m.val < s.ses.laneCount →
      t.lanes[m].batch.isSome = true ∨ t.rgt.nextBatch s.profile.rs (s.ses.batchSize.getD 0) = none
    (t.sbp.quarantineHold = s.sbp.quarantineHold ++ s.lanes[n].bufs.filter named ∧
      (∀ e ∈ s.slk.held, e.owner ≠ .lane n → e ∈ t.slk.held) ∧
      (s.ses.state ≠ .running → s.ses.state ≠ .suspended → ∀ e ∈ t.slk.held, e.owner ≠ .lane n)) ∧
    (s.slk.waiting = [] → s.sbp.waiting = [] → s.ses.state ≠ .running → s.ses.state ≠ .suspended →
      t.slk = { held := s.slk.held.filter (fun e => e.owner != .lane n), waiting := [] } ∧ t.sbp.waiting = [] ∧
      (∀ buf, buf ∈ t.sbp.free ↔ buf ∈ s.sbp.free ∨ (buf ∈ s.lanes[n].bufs ∧ named buf = false)) ∧
      (∀ m : Fin 4, m ≠ n → t.lanes[m] = s.lanes[m]) ∧ t.mru = s.mru ∧ t.rtu = s.rtu ∧ t.mem = s.mem) ∧
    (s.ses.state = .running →
      (rebuilt → idle → t.ses = complete ∧ Noted s t completed) ∧
      (¬(rebuilt ∧ idle) → t.ses = s.ses ∧ EventsKept s t ∧ served n ∧
        PassRuns (fun m => m.val < s.ses.laneCount) t [n] counted)) ∧
    (s.ses.state = .suspended →
      (s.holdingOrder ≠ [] → t.ses = s.ses ∧ EventsKept s t ∧ t.lanes[n].stage = .idle) ∧
      (s.holdingOrder = [] → rebuilt → idle → t.ses = complete ∧ Noted s t completed) ∧
      (s.holdingOrder = [] → ¬(rebuilt ∧ idle) → t.ses = { s.ses with state := .running } ∧
        Noted s t (Event.bit .stateChange) ∧ (∀ m : Fin 4, m = n ∨ s.lanes[m].stage = .idle → served m) ∧
        PassRuns (fun m => m.val < s.ses.laneCount ∧ (m = n ∨ s.lanes[m].stage = .idle)) t [0, 1, 2, 3] counted)) ∧
    (s.ses.state ≠ .running → s.ses.state ≠ .suspended → t.rgt = counted) ∧
    (s.ses.state = .draining →
      (idle → rebuilt → t.ses = complete ∧ Noted s t completed) ∧
      (idle → ¬rebuilt → t.ses = { s.ses with state := .paused } ∧ Noted s t (Event.bit .stateChange)) ∧
      (¬idle → t.ses = s.ses ∧ EventsKept s t)) ∧
    (s.ses.state = .stepping → n = 0 →
      (rebuilt → t.ses = complete ∧ Noted s t (completed ||| Event.bit .stepDone)) ∧
      (¬rebuilt → t.ses = { s.ses with state := .paused } ∧ Noted s t (Event.bit .stateChange ||| Event.bit .stepDone)))

/-! ## Settings, events and reports -/

/-- R151, R54, R173, R141, R130, R67: SET_TIMEOUT, SET_HEAT, SET_CHECK, SET_PACE and SET_LANES make the clamped value the setting
and answer it. SET_CHECK refuses a value of 2 or more in the states that take it. After SET_PACE every position whose queue is not
empty makes an issue decision under the new W and window (`DecisionMade`, R139; that it sets an expiry only when pacing alone holds the head
back is log 10's), in some order, and a position with an empty queue
stays as it was. A rise of the lane count in RUNNING is served by a pass over the IDLE lanes below it, in ascending order, each with
the batch that is next then (`PassRuns`, R57, R59). -/
def Obligations.SettingsTakenAndClamped : Prop :=
  (∀ (tag v : BitVec 16) (setting : Byte) (s : State), s.HostReady →
    let ms := if v.toNat < 100 then 100 else if 60000 < v.toNat then 60000 else v.toNat
    let h := if 255 < v.toNat then 255 else v.toNat
    Becomes (exec (.setTimeout tag v) s) (State.respond tag { code := .done, reason := .none, payload := leBytes 2 ms }
      { s with mru := { s.mru with timeout := ms } }) ∧
    Becomes (exec (.setHeat tag v) s) (State.respond tag { code := .done, reason := .none, payload := leBytes 1 h }
      { s with rgt := { s.rgt with heatThreshold := h } }) ∧
    (s.ses.state ∈ acceptedIn (.setCheck setting.toNat) →
      (setting.toNat ≤ 1 → Becomes (exec (.setCheck tag setting) s)
        (State.respond tag { code := .done, reason := .none, payload := [setting] }
          { s with rcd := { s.rcd with check := setting == 1 } })) ∧
      (1 < setting.toNat → Becomes (exec (.setCheck tag setting) s)
        (s.respond tag { code := .refusedRange, reason := .none, payload := [] })))) ∧
  (∀ (tag : BitVec 16) (w : Byte) (window : BitVec 16) (s : State), s.HostReady →
    let w' := if w.toNat < 1 then 1 else if 32 < w.toNat then 32 else w.toNat
    let window' := if window.toNat < 1 then 1 else if 1000 < window.toNat then 1000 else window.toNat
    ∃ t, exec (.setPace tag w window) s = .next t ∧
      Responded s t tag { code := .done, reason := .none, payload := leBytes 1 w' ++ leBytes 2 window' } ∧ EventsKept s t ∧
      t.mru.paceLimit = w' ∧ t.mru.paceWindow = window' ∧ t.mru.timeout = s.mru.timeout ∧
      t.mru.quarantined = s.mru.quarantined ∧ (∀ x, (t.mru.pos x).timeouts = (s.mru.pos x).timeouts) ∧
      (∀ x, (s.mru.pos x).queue = [] → t.mru.pos x = s.mru.pos x) ∧
      (s.TagOrderServed → ∃ (order : List Nat) (u : State), order.Nodup ∧
        (∀ x, x ∈ order ↔ x < 16 ∧ (s.mru.pos x).queue ≠ []) ∧
        DecisionsRun order { s with mru := { s.mru with paceLimit := w', paceWindow := window' }, sent := [] } u ∧
        t = u.respond tag { code := .done, reason := .none, payload := leBytes 1 w' ++ leBytes 2 window' }) ∧
      t.geo = s.geo ∧ t.ses = s.ses ∧ t.rgt = s.rgt ∧ t.rtu = s.rtu ∧ t.slk = s.slk ∧ t.lanes = s.lanes ∧ t.sbp = s.sbp ∧
      t.rcd = s.rcd ∧ t.lrl = s.lrl ∧ t.mem = s.mem ∧ t.now = s.now ∧ t.holdingOrder = s.holdingOrder) ∧
  ∀ (tag : BitVec 16) (v : Byte) (s : State), s.HostReady →
    let count := if v.toNat < 1 then 1 else if 4 < v.toNat then 4 else v.toNat
    (s.ses.state ≠ .running ∨ count ≤ s.ses.laneCount →
      Becomes (exec (.setLanes tag v) s) (State.respond tag { code := .done, reason := .none, payload := leBytes 1 count }
        { s with ses := { s.ses with laneCount := count } })) ∧
    (s.ses.state = .running → s.ses.laneCount < count → ∃ t, exec (.setLanes tag v) s = .next t ∧
      t.ses = { s.ses with laneCount := count } ∧
      Responded s t tag { code := .done, reason := .none, payload := leBytes 1 count } ∧ EventsKept s t ∧
      (∀ n : Fin 4, n.val < count → s.lanes[n].stage = .idle →
        t.lanes[n].batch.isSome = true ∨ t.rgt.nextBatch s.profile.rs (s.ses.batchSize.getD 0) = none) ∧
      PassRuns (fun n => n.val < count ∧ s.lanes[n].stage = .idle) t [0, 1, 2, 3] s.rgt ∧
      ∀ n : Fin 4, count ≤ n.val ∨ s.lanes[n].stage ≠ .idle ∨ t.lanes[n].stage = .idle → t.lanes[n] = s.lanes[n])

/-- R200, with SET_EVENT_ENABLES of R198: ACK_EVENTS removes the carried events that are members of the status set and answers
what is left; SET_EVENT_ENABLES replaces the enable set whole. Bits 11 to 15 are not read, and the line follows. -/
def Obligations.EnableAndAcknowledgeEvents : Prop :=
  ∀ (tag events : BitVec 16) (s : State), s.HostReady →
    let carried : EventSet := events.setWidth 11
    let left := s.mgp.status &&& ~~~carried
    Becomes (exec (.ackEvents tag events) s) (State.respond tag { code := .done, reason := .none, payload := leBytes 2 left.toNat }
      { s with mgp := { s.mgp with status := left, line := (left &&& s.mgp.enables) != 0 } }) ∧
    Becomes (exec (.setEventEnables tag events) s)
      (State.respond tag { code := .done, reason := .none, payload := leBytes 2 carried.toNat }
        { s with mgp := { s.mgp with enables := carried, line := (s.mgp.status &&& carried) != 0 } })

/-- R196, R211: GET_STATUS changes nothing and reports each field of Table 10-7 at its offset. -/
def Obligations.StatusReport : Prop :=
  ∀ (tag : BitVec 16) (s : State), s.HostReady → ∃ payload,
    Becomes (exec (.getStatus tag) s) (s.respond tag { code := .done, reason := .none, payload := payload }) ∧
    let p := (s.geo.profile.map (·.n)).getD 0
    let at' := fun (o w : Nat) => (payload.drop o).take w
    let absentOr := fun (v : Nat) => if s.ses.state = .absent then none else some v
    let progress := if s.ses.state = .qualifying then s.ses.qualProgress else none
    payload.length = 35 + 2 * p ∧ at' 0 1 = leBytes 1 s.ses.state.toNat ∧ at' 1 1 = leBytes 1 s.ses.cause.toNat ∧
      at' 2 1 = leOption 1 s.ses.failedPos ∧ at' 3 1 = leOption 1 s.ses.faultedSurvivor ∧
      at' 4 1 = leOption 1 (progress.map (·.strip)) ∧ at' 5 1 = leOption 1 (progress.map (·.attempt)) ∧
      at' 6 2 = leOption 2 s.rgt.rebuiltRegions ∧ at' 8 4 = leOption 4 s.rgt.rebuiltStripes ∧
      at' 12 2 = leOption 2 (absentOr s.lrl.records.length) ∧
      (∀ n : Fin 4, at' (14 + 2 * n) 2 = leBytes 1 s.lanes[n].stage.toNat ++ leBytes 1 s.lanes[n].outcome.toNat) ∧
      at' 22 2 = leBytes 2 s.mgp.status.toNat ∧ at' 24 2 = leBytes 2 s.mgp.enables.toNat ∧
      at' 26 1 = leBytes 1 s.ses.laneCount ∧ at' 27 1 = leBytes 1 s.mru.paceLimit ∧ at' 28 2 = leBytes 2 s.mru.paceWindow ∧
      at' 30 2 = leBytes 2 s.mru.timeout ∧ at' 32 1 = leBytes 1 s.rgt.heatThreshold ∧
      at' 33 1 = [if s.rcd.check then 1 else 0] ∧ at' 34 1 = leBytes 1 p ∧
      ∀ x, x < p → at' (35 + 2 * x) 2 =
        leOption 1 (s.ses.roles[x]?.map MemberRole.toNat) ++ leBytes 1 (s.mru.pos x).timeouts

/-- R51, R185: GET_REGION and LIST_RECORDS, in every state but ABSENT, change nothing, and answer the region record, or the
records from the first stripe on with the more flag. -/
def Obligations.RegionAndRecordReports : Prop :=
  ∀ (tag region : BitVec 16) (first : BitVec 32) (max : Byte) (s : State), s.HostReady → s.ses.state ≠ .absent →
    let range : Reply := { code := .refusedRange, reason := .none, payload := [] }
    (s.rgt.regions[region.toNat]? = none → Becomes (exec (.getRegion tag region) s) (s.respond tag range)) ∧
    (∀ r, s.rgt.regions[region.toNat]? = some r → Becomes (exec (.getRegion tag region) s)
      (s.respond tag { code := .done, reason := .none,
                       payload := leBytes 1 r.state.toNat ++ leBytes 1 r.heat ++ leBytes 4 r.stripeCount ++
                         leBytes 4 r.issueMark ++ leBytes 2 r.recordCount ++ leOption 2 r.activation ++
                         leOption 2 (if r.state = .stale then some (s.rgt.queue.idxOf region.toNat) else none) })) ∧
    (max.toNat < 1 ∨ 8 < max.toNat → Becomes (exec (.listRecords tag first max) s) (s.respond tag range)) ∧
    (1 ≤ max.toNat → max.toNat ≤ 8 →
      let above := s.lrl.records.filter fun r => decide (first.toNat ≤ r.stripe)
      Becomes (exec (.listRecords tag first max) s)
        (s.respond tag { code := .done, reason := .none,
                         payload := leBytes 1 (min max.toNat above.length) ++
                           leBytes 1 (if max.toNat < above.length then 1 else 0) ++
                           (above.take max.toNat).flatMap fun r =>
                             leBytes 4 r.stripe ++ leBytes 8 r.lost.toNat ++ leBytes 8 r.suspect.toNat ++
                               leBytes 2 (positionSet r.contributors).toNat }))

/-- R181, R182: FORGIVE in an open state, with its checks in order; an accepted one retires the record, answers its masks and
the length left, and serves the holders. -/
def Obligations.ForgiveRetiresOneRecord : Prop :=
  ∀ (tag : BitVec 16) (stripe : BitVec 32) (s : State), s.HostReady → s.ses.state ∈ acceptedIn (.forgive stripe.toNat) →
    let n := stripe.toNat
    let covered := ∃ e ∈ s.slk.held, e.owner.isClaim = true ∧ e.first ≤ n ∧ n < e.first + e.count
    let range : Reply := { code := .refusedRange, reason := .none, payload := [] }
    (s.profile.t ≤ n → Becomes (exec (.forgive tag stripe) s) (s.respond tag range)) ∧
    (n < s.profile.t → (∀ r ∈ s.lrl.records, r.stripe ≠ n) → Becomes (exec (.forgive tag stripe) s) (s.respond tag range)) ∧
    ∀ r, n < s.profile.t → s.lrl.records.find? (fun r => r.stripe == n) = some r →
      (covered → Becomes (exec (.forgive tag stripe) s)
        (s.respond tag { code := .refusedBusy, reason := .none, payload := [] })) ∧
      (¬covered →
        let kept := s.lrl.records.filter fun r => r.stripe != n
        let retired : State := { s with
          lrl := { records := kept }
          rgt := { s.rgt with regions := s.rgt.regions.modify (n / s.profile.rs) fun x =>
            { x with recordCount := x.recordCount - 1 } } }
        let done : Reply := { code := .done, reason := .none,
                              payload := leBytes 8 r.lost.toNat ++ leBytes 8 r.suspect.toNat ++ leBytes 2 kept.length }
        (s.holdingOrder = [] → Becomes (exec (.forgive tag stripe) s) (retired.respond tag done)) ∧
        exec (.forgive tag stripe) s = .next (retired.beginEvent.afterRetirement.respond tag done))

/-- R205, R206, R208 to R211: the codes and the layouts of what the part sends. Fields are little-endian, absent ones all ones;
the codes are those of R206, R208, Table 10-4 and Table 10-8; a response, a route answer, a record and a member request hold
each field at its offset. -/
def Obligations.MessageCodesAndLayouts : Prop :=
  (∀ w v : Nat, (leBytes w v).length = w ∧ (∀ i, i < w → (leBytes w v)[i]? = some (BitVec.ofNat 8 (v / 256 ^ i))) ∧
    leOption w none = List.replicate w 0xFF ∧ leOption w (some v) = leBytes w v) ∧
  (∀ (m : Mask) (b : Nat), b < 64 → (bytes64 m).length = 8 ∧ ((bytes64 m).getD (b / 8) 0).getLsbD (b % 8) = m.getLsbD b) ∧
  ([ResultCode.done, .refusedState, .refusedRange, .refusedBusy, .incomplete, .overlap, .unknownCommand].map ResultCode.toNat =
      [0x01, 0x02, 0x03, 0x04, 0x05, 0x06, 0x07] ∧
    [Reason.none, .session, .notStale].map Reason.toNat = [0x00, 0x01, 0x02]) ∧
  ([RouteStatus.reported, .granted, .released, .withdrawn, .unknownTag, .range, .tagInUse, .busy, .noSession,
      .spareVoid].map RouteStatus.toNat = [0x01, 0x02, 0x03, 0x04, 0x05, 0x06, 0x07, 0x08, 0x09, 0x0A] ∧
    [Disposition.current, .stale, .locked, .lost, .suspect].map Disposition.toNat = [0x01, 0x02, 0x03, 0x04, 0x05]) ∧
  ([SessionState.absent, .qualifying, .ready, .running, .suspended, .draining, .paused, .stepping, .complete, .failed,
      .broken].map SessionState.toNat = [0x00, 0x01, 0x02, 0x03, 0x04, 0x05, 0x06, 0x07, 0x08, 0x09, 0x0A] ∧
    [Cause.none, .qualMismatch, .spareLost, .spareUnwritable, .hostAbort, .tooManyFaults].map Cause.toNat =
      [0x00, 0x01, 0x02, 0x03, 0x04, 0x05] ∧
    [MemberRole.spare, .survivor, .faulted].map MemberRole.toNat = [0x01, 0x02, 0x03] ∧
    [LaneStage.idle, .buffering, .locking, .reading, .solving, .writing, .settling, .holding].map LaneStage.toNat =
      [0x00, 0x01, 0x02, 0x03, 0x04, 0x05, 0x06, 0x07] ∧
    [LaneOutcome.none, .clean, .recorded, .abandoned].map LaneOutcome.toNat = [0x00, 0x01, 0x02, 0x03] ∧
    [RegionState.stale, .active, .rebuilt].map RegionState.toNat = [0x01, 0x02, 0x03]) ∧
  ([Event.stateChange, .qualDone, .rebuildComplete, .recordAdded, .listFull, .memberFaulted, .memberTimeout, .stepDone,
      .commandOverrun, .routeOverrun, .engineReset].map Event.bit = (List.range 11).map (BitVec.twoPow 11)) ∧
  (∀ r : Response, r.bytes = bytes16 r.tag ++ [BitVec.ofNat 8 r.reply.code.toNat, BitVec.ofNat 8 r.reply.reason.toNat] ++
    bytes16 (BitVec.ofNat 16 r.reply.payload.length) ++ r.reply.payload) ∧
  (∀ a : Answer, a.bytes = [a.tag, a.kind, BitVec.ofNat 8 a.status.toNat, BitVec.ofNat 8 a.number] ++
    bytes32 (BitVec.ofNat 32 a.stripe) ++
    a.entries.flatMap fun e => BitVec.ofNat 8 e.disposition.toNat :: (bytes64 e.lost ++ bytes64 e.suspect)) ∧
  (∀ r : Record, r.bytes = bytes32 (BitVec.ofNat 32 r.stripe) ++ bytes64 r.lost ++ bytes64 r.suspect ++
    bytes16 (positionSet r.contributors)) ∧
  (∀ (positions : List Nat) (x : Nat), x < 16 → ((positionSet positions).getLsbD x = true ↔ x ∈ positions)) ∧
  ∀ (r : Request) (tag : Nat), r.bytes tag = [BitVec.ofNat 8 tag, BitVec.ofNat 8 r.position,
      (if r.kind = .write ∨ r.kind = .qwrite then 0x01 else 0x00), BitVec.ofNat 8 r.blocks] ++
    bytes48 (BitVec.ofNat 48 r.address) ++ bytes32 (BitVec.ofNat 32 (r.buf.val * 262144 + r.firstBlock * 4096))

/-! ## The Route Port -/

/-- R70: a route request joins the tail of the request queue, or, with 32 waiting, is discarded with ROUTE_OVERRUN. RTU then
takes what R71 lets it take: nothing while every answer entry is filled or reserved. -/
def Obligations.RequestQueuesOrIsDiscarded : Prop :=
  ∀ (r : RouteRequest) (s : State), ListsAsCounted r →
    let done := exec (.routeRequestArrival (routeMessage r)) s
    (s.rtu.requests.length < 32 →
      Becomes done ({ s.beginEvent with rtu := { s.rtu with requests := s.rtu.requests ++ [r] } } : State).takeRequests) ∧
    (32 ≤ s.rtu.requests.length →
      Becomes done (s.beginEvent.noting (Event.bit .routeOverrun)).takeRequests ∧
      (64 ≤ s.rtu.answers.length + s.rtu.reservations → Becomes done (s.noting (Event.bit .routeOverrun))))

/-- R71, R72, R207: RTU takes the head request while an answer entry is neither filled nor reserved; a read takes the head
answer, or hands over the empty indication; a request of unknown kind is answered RANGE with its kind copied, and the stripe
of that answer is a free value (log 8). What the front path is handed stands in `sent` (log 7). -/
def Obligations.RequestsTakenAndAnswersRead : Prop :=
  (∀ s : State, s.rtu.requests = [] ∨ 64 ≤ s.rtu.answers.length + s.rtu.reservations → s.takeRequests = s) ∧
  (∀ (s : State) (r : RouteRequest) (rest : List RouteRequest), s.rtu.requests = r :: rest →
    s.rtu.answers.length + s.rtu.reservations < 64 →
    s.takeRequests = (({ s with rtu := { s.rtu with requests := rest } } : State).takeRequest r).takeRequests) ∧
  (∀ s : State, s.rtu.answers = [] → exec .answerRead s = .next { s with sent := [.answer [0, 0, 0, 0, 0, 0, 0, 0]] }) ∧
  (∀ (s : State) (a : Answer) (rest : List Answer), s.rtu.answers = a :: rest →
    exec .answerRead s = .next ({ s with rtu := { s.rtu with answers := rest }, sent := [.answer a.bytes] } : State).takeRequests) ∧
  ∀ (r : RouteRequest) (s : State), s.RouteReady → r.kind ≠ 1 → r.kind ≠ 2 → r.kind ≠ 3 → ListsAsCounted r →
    ∃ stripe, stripe < 2 ^ 32 ∧ ∀ i, i = .unknownRouteKind r ∨ i = .routeRequestArrival (routeMessage r) →
      Becomes (exec i s) (State.answering
        { tag := r.tag, kind := r.kind, status := .range, number := 0, stripe := stripe, entries := [] }
        { s with freeCount := s.freeCount + 1 })

/-- R75, R81: QUERY, with its checks in order; a QUERY that passes them is answered with one disposition for each stripe and
adds heat. -/
def Obligations.QueryAnswered : Prop :=
  ∀ (tag count : Byte) (first : BitVec 32) (s : State), s.RouteReady →
    let done := exec (.query tag count first) s
    let refusal := fun (status : RouteStatus) => s.answering
      { tag := tag, kind := 1, status := status, number := 0, stripe := first.toNat, entries := [] }
    let ended := s.ses.state = .failed ∨ s.ses.state = .broken
    let fits := 1 ≤ count.toNat ∧ count.toNat ≤ 16 ∧ first.toNat + count.toNat ≤ s.profile.t
    (s.ses.state = .absent → Becomes done (refusal .noSession)) ∧
    (ended → Becomes done (refusal .spareVoid)) ∧
    (s.ses.state ≠ .absent → ¬ended → ¬fits → Becomes done (refusal .range)) ∧
    (s.ses.state ≠ .absent → ¬ended → fits →
      Becomes done (State.answering
        { tag := tag, kind := 1, status := .reported, number := count.toNat, stripe := first.toNat,
          entries := (List.range count.toNat).map fun j => s.disposition (first.toNat + j) }
        { s with rgt := s.rgt.contribute s.profile.rs first.toNat (first.toNat + count.toNat - 1) }))

/-- R77, R78: the disposition of a stripe by its region's state, the issue mark, the stage of the lane that holds it, and its
record. -/
def Obligations.DispositionOfAStripe : Prop :=
  ∀ (s : State) (stripe : Nat) (r : Region),
    s.rgt.regions[stripe / s.profile.rs]? = some r →
    let offset := stripe - stripe / s.profile.rs * s.profile.rs
    let holds := fun (n : Fin 4) => ∃ b, s.lanes[n].batch = some b ∧ b.first ≤ stripe ∧ stripe < b.first + b.length
    let plain := fun (d : Disposition) => ({ disposition := d, lost := 0, suspect := 0 } : DispositionEntry)
    let rebuilt := r.state = .rebuilt ∨ (r.state = .active ∧ offset < r.issueMark ∧ ∀ n, ¬holds n)
    (r.state = .stale → s.disposition stripe = plain .stale) ∧
    (r.state = .active → r.issueMark ≤ offset → s.disposition stripe = plain .stale) ∧
    (∀ n, r.state = .active → offset < r.issueMark → holds n → (∀ m, m ≠ n → ¬holds m) →
      (s.lanes[n].stage = .buffering ∨ s.lanes[n].stage = .locking → s.disposition stripe = plain .stale) ∧
      (s.lanes[n].stage = .reading ∨ s.lanes[n].stage = .solving ∨ s.lanes[n].stage = .writing ∨
          s.lanes[n].stage = .settling ∨ s.lanes[n].stage = .holding →
        s.disposition stripe = plain .locked)) ∧
    (rebuilt → (∀ x ∈ s.lrl.records, x.stripe ≠ stripe) → s.disposition stripe = plain .current) ∧
    ∀ x, rebuilt → s.lrl.records.find? (fun y => y.stripe == stripe) = some x →
      (x.lost ≠ 0 → s.disposition stripe = { disposition := .lost, lost := x.lost, suspect := x.suspect }) ∧
      (x.lost = 0 → s.disposition stripe = { disposition := .suspect, lost := 0, suspect := x.suspect })

/-- R93, R94, R90, R81: CLAIM, with its checks in order; an accepted claim is granted at intake with its dispositions, or waits
with a reservation. Either way it adds heat. -/
def Obligations.ClaimGrantedOrWaits : Prop :=
  ∀ (tag count : Byte) (first : BitVec 32) (s : State), s.RouteReady →
    let done := exec (.claim tag count first) s
    let refusal := fun (status : RouteStatus) => s.answering
      { tag := tag, kind := 2, status := status, number := 0, stripe := first.toNat, entries := [] }
    let ended := s.ses.state = .failed ∨ s.ses.state = .broken
    let fits := 1 ≤ count.toNat ∧ count.toNat ≤ 16 ∧ first.toNat + count.toNat ≤ s.profile.t
    let tagUsed := ∃ e ∈ s.slk.held ++ s.slk.waiting, e.owner = .claim tag
    let e : LockEntry := { owner := .claim tag, first := first.toNat, count := count.toNat }
    let free := MayBeGranted s.slk.held s.slk.waiting e
    let room := (s.slk.waiting.filter fun w => w.owner.isClaim).length < 28
    let warmed : State :=
      { s with rgt := s.rgt.contribute s.profile.rs first.toNat (first.toNat + count.toNat - 1) }
    (s.ses.state = .absent → Becomes done (refusal .noSession)) ∧
    (ended → Becomes done (refusal .spareVoid)) ∧
    (s.ses.state ≠ .absent → ¬ended →
      (¬fits → Becomes done (refusal .range)) ∧
      (fits → tagUsed → Becomes done (refusal .tagInUse)) ∧
      (fits → ¬tagUsed → ¬free → ¬room → Becomes done (refusal .busy)) ∧
      (fits → ¬tagUsed → free → Becomes done (State.answering
        { tag := tag, kind := 2, status := .granted, number := count.toNat, stripe := first.toNat,
          entries := (List.range count.toNat).map fun j => s.disposition (first.toNat + j) }
        { warmed with slk := { s.slk with held := s.slk.held ++ [e] } })) ∧
      (fits → ¬tagUsed → ¬free → room → Becomes done
        { warmed with
          slk := { s.slk with waiting := s.slk.waiting ++ [e] }
          rtu := { s.rtu with reservations := s.rtu.reservations + 1 } }))

/-- R97 to R99: RELEASE by the session state and the tag. A held claim retires the records its list names in its range, leaves
the held table, is answered RELEASED with their number, and a scan follows; a waiting claim is withdrawn. That a record is
retired while another held claim covers its stripe follows R98 against R80 (log 23). -/
def Obligations.ReleaseEndsClaim : Prop :=
  ∀ (tag : Byte) (listed : List (BitVec 32)) (s : State), s.RouteReady → s.RecordsInOrder → listed.length ≤ 255 →
    let done := exec (.release tag listed) s
    let answer := fun (status : RouteStatus) (number : Nat) =>
      ({ tag := tag, kind := 3, status := status, number := number, stripe := 0, entries := [] } : Answer)
    let ended := s.ses.state = .failed ∨ s.ses.state = .broken
    let held := s.slk.held.find? fun e => e.owner == .claim tag
    let waiting := s.slk.waiting.find? fun e => e.owner == .claim tag
    (s.ses.state = .absent → Becomes done (s.answering (answer .noSession 0))) ∧
    (ended → Becomes done (s.answering (answer .spareVoid 0))) ∧
    (s.ses.state ≠ .absent → ¬ended →
      (held = none → waiting = none → Becomes done (s.answering (answer .unknownTag 0))) ∧
      (held = none → waiting ≠ none →
        done = .next (State.scanLocks { s.beginEvent with
          slk := { s.slk with waiting := s.slk.waiting.filter fun e => e.owner != .claim tag }
          rtu := { s.rtu with answers := s.rtu.answers ++ [answer .withdrawn 0], reservations := s.rtu.reservations - 1 } })) ∧
      ∀ e, held = some e →
        let named := fun (n : Nat) =>
          ((listed.take 16).map BitVec.toNat).contains n && decide (e.first ≤ n) && decide (n < e.first + e.count)
        let gone := s.lrl.records.filter fun r => named r.stripe
        ∃ g : Rgt, (∀ n : Nat, g.regions[n]? = s.rgt.regions[n]?.map fun (r : Region) =>
            ({ r with recordCount := r.recordCount - (gone.filter fun x => x.stripe / s.profile.rs == n).length } : Region)) ∧
          g.queue = s.rgt.queue ∧ g.nextActivation = s.rgt.nextActivation ∧ g.rebuiltRegions = s.rgt.rebuiltRegions ∧
          g.rebuiltStripes = s.rgt.rebuiltStripes ∧ g.heatThreshold = s.rgt.heatThreshold ∧
          let after := State.scanLocks { s.beginEvent with
            lrl := { records := s.lrl.records.filter fun r => !named r.stripe }
            rgt := g
            slk := { s.slk with held := s.slk.held.filter fun x => x.owner != .claim tag }
            rtu := { s.rtu with answers := s.rtu.answers ++ [answer .released gone.length] } }
          done = .next (if gone = [] then after else after.afterRetirement))

/-- R91, R95, R116: a scan of SLK's wait list examines the requests oldest first, grants each that meets the three conditions of
R90 as they stand then (`ScanRuns`), and leaves none that meets them at its end. Each granted claim's answer is written in grant
order, through its reservation, with the dispositions at the moment of the grant: where each lane's request names its batch,
these are the dispositions before the scan and after it. Each granted lane enters READING, and no other lane changes. -/
def Obligations.ScanGrantsInOrder : Prop :=
  ∀ s : State, ∃ granted : List LockEntry,
    ScanRuns s.slk.waiting s.slk.held [] granted s.scanLocks.slk.waiting ∧
      s.scanLocks.slk.held = s.slk.held ++ granted ∧ granted.Sublist s.slk.waiting ∧
      s.scanLocks.slk.waiting.Sublist s.slk.waiting ∧ (granted ++ s.scanLocks.slk.waiting).Perm s.slk.waiting ∧
      (∀ older e younger, s.scanLocks.slk.waiting = older ++ e :: younger → ¬MayBeGranted s.scanLocks.slk.held older e) ∧
      (∃ written : List Answer, s.scanLocks.rtu.answers = s.rtu.answers ++ written ∧
        (written.map fun a => ((a.tag, a.stripe, a.number) : Byte × Nat × Nat)) = granted.filterMap (fun e =>
          match e.owner with
          | .lane _ => none
          | .claim tag => some (tag, e.first, e.count)) ∧
        (∀ a ∈ written, a.kind = 2 ∧ a.status = .granted ∧ a.entries.length = a.number) ∧
        (s.RequestsNameBatches → ∀ a ∈ written,
          a.entries = ((List.range a.number).map fun j => s.disposition (a.stripe + j)) ∧
          a.entries = (List.range a.number).map fun j => s.scanLocks.disposition (a.stripe + j))) ∧
      s.scanLocks.rtu.reservations = s.rtu.reservations - (granted.filter fun e => e.owner.isClaim).length ∧
      (∀ (n : Fin 4) (b : Batch), (∃ e ∈ granted, e.owner = .lane n) → s.lanes[n].batch = some b →
        s.scanLocks.lanes[n].stage = .reading ∧ s.scanLocks.lanes[n].batch = some b) ∧
      ∀ n : Fin 4, (∀ e ∈ granted, e.owner ≠ .lane n) → s.scanLocks.lanes[n] = s.lanes[n]

/-! ## Lanes, buffers and records -/

/-- R101, R111, R112, R115 to R117: a buffer request is granted the head of the free pool whole, or joins the wait list, which is
served from its head on and no further than the first that does not fit. A lane whose set is granted enters LOCKING and makes its
lock request at once: granted by R90 it holds the entry and enters READING, and otherwise the request joins the tail of the wait
list. A lane that enters READING builds its read record, one row of N cells for each stripe of its batch, and submits one READ
for each extent of each strip it reads, behind what its position's queue holds. -/
def Obligations.LaneDrawsBuffersAndReads : Prop :=
  (∀ (r : BufRequest) (s : State),
    (s.sbp.waiting = [] → r.size ≤ s.sbp.free.length →
      s.requestBuffers r = State.grantSet r.owner (s.sbp.free.take r.size)
        { s with sbp := { s.sbp with free := s.sbp.free.drop r.size } }) ∧
    (s.sbp.waiting ≠ [] ∨ s.sbp.free.length < r.size →
      s.requestBuffers r = { s with sbp := { s.sbp with waiting := s.sbp.waiting ++ [r] } })) ∧
  (∀ s : State, (s.sbp.waiting = [] → s.scanBuffers = s) ∧ ∀ r rest, s.sbp.waiting = r :: rest →
    (s.sbp.free.length < r.size → s.scanBuffers = s) ∧
    (r.size ≤ s.sbp.free.length → s.scanBuffers = (State.grantSet r.owner (s.sbp.free.take r.size)
      { s with sbp := { s.sbp with free := s.sbp.free.drop r.size, waiting := rest } }).scanBuffers)) ∧
  (∀ (n : Fin 4) (bufs : List BufId) (s : State) (b : Batch), s.lanes[n].batch = some b →
    let e : LockEntry := { owner := .lane n, first := b.first, count := b.length }
    let locking : State := { s with lanes := s.lanes.set n { s.lanes[n] with bufs := bufs, stage := .locking } }
    (MayBeGranted s.slk.held s.slk.waiting e → s.grantSet (.lane n) bufs =
      ({ locking with slk := { s.slk with held := s.slk.held ++ [e] } } : State).enterReading n) ∧
    (¬MayBeGranted s.slk.held s.slk.waiting e → s.grantSet (.lane n) bufs =
      { locking with slk := { s.slk with waiting := s.slk.waiting ++ [e] } })) ∧
  (∀ (n : Fin 4) (size : Nat) (s : State), s.sbp.waiting = [] → size ≤ s.sbp.free.length →
    (s.requestBuffers { owner := .lane n, size := size }).lanes[n].bufs = s.sbp.free.take size ∧
    (s.requestBuffers { owner := .lane n, size := size }).sbp.free = s.sbp.free.drop size ∧
    (s.requestBuffers { owner := .lane n, size := size }).sbp.waiting = []) ∧
  ∀ (n : Fin 4) (s : State) (b : Batch), s.lanes[n].batch = some b → s.profile.Fits → s.mru.positions.length = 16 →
    let skipped := fun (x : Nat) => s.ses.failedPos = some x ∨ s.ses.faultedSurvivor = some x
    let t := s.enterReading n
    t.lanes[n].stage = .reading ∧ t.lanes[n].batch = some b ∧ t.lanes[n].bufs = s.lanes[n].bufs ∧
    t.lanes[n].outstanding = (s.readRequests n b).length ∧
    (t.lanes[n].reads.length = b.length ∧ ∀ row ∈ t.lanes[n].reads, row.length = s.profile.n) ∧
    (∀ i x cell, i < b.length → x < s.profile.n → (t.lanes[n].reads[i]?).bind (·[x]?) = some cell →
      (skipped x → cell.status = .excluded) ∧
      (¬skipped x → cell.status = .pending ∧ cell.left = (s.extents (b.first + i) x).length)) ∧
    (∀ r, r ∈ s.readRequests n b ↔ ∃ i x, i < b.length ∧ x < s.profile.n ∧ ¬skipped x ∧
      ∃ e ∈ s.extents (b.first + i) x, r =
        { tag := none, position := x, kind := .read, address := e.address, blocks := e.blocks,
          buf := s.lanes[n].bufs.getD (i * s.profile.n + x) 0, firstBlock := e.firstBlock, owner := some (.lane n),
          defers := 0, rewritten := false, deadline := none }) ∧
    (∀ r ∈ s.readRequests n b, ∃ r' ∈ (t.mru.pos r.position).live, r'.SameWork r ∧ r'.owner = some (.lane n)) ∧
    (∀ x, x < 16 → (t.mru.pos x).works = (s.mru.pos x).works ++ (s.readRequests n b).filter (·.position == x)) ∧
    (∀ m : Fin 4, m ≠ n → t.lanes[m] = s.lanes[m]) ∧ BlocksKept s t ∧ EventsKept s t ∧ t.rcd = s.rcd ∧ t.mem = s.mem

/-- R176, R177, R179, R125, R126, R30: LRL takes an offer while it holds fewer than 256 records and turns it away otherwise; a
lane whose offer is turned away enters HOLDING at the tail of the holding order, and a RUNNING session is SUSPENDED. -/
def Obligations.OffersAndHolding : Prop :=
  (∀ (r : Record) (s : State), s.lrl.records.length < 256 → s.RecordsInOrder → (∀ x ∈ s.lrl.records, x.stripe ≠ r.stripe) →
    ∃ records : List Record, (records.Pairwise fun a b => a.stripe < b.stripe) ∧
      (∀ x, x ∈ records ↔ x = r ∨ x ∈ s.lrl.records) ∧
      s.offer r = (State.noting (Event.bit .recordAdded) { s with
        lrl := { records := records }
        rgt := { s.rgt with regions := s.rgt.regions.modify (r.stripe / s.profile.rs) fun x =>
          { x with recordCount := x.recordCount + 1 } } }, true)) ∧
  (∀ (r : Record) (s : State), 256 ≤ s.lrl.records.length → s.offer r = (s.noting (Event.bit .listFull), false)) ∧
  ∀ (n : Fin 4) (s : State) (b : Batch), s.lanes[n].batch = some b → 256 ≤ s.lrl.records.length →
    let offers := (List.range' b.first b.length).filter fun stripe =>
      let r := s.lanes[n].results.getD (stripe - b.first) StripeResult.empty
      r.lost != 0 || r.suspect != 0
    offers ≠ [] →
      let t := s.enterSettling n
      t.lanes[n] = { s.lanes[n] with stage := .holding, offers := offers } ∧ t.holdingOrder = s.holdingOrder ++ [n] ∧
        (∀ m : Fin 4, m ≠ n → t.lanes[m] = s.lanes[m]) ∧
        t.ses = (if s.ses.state = .running then { s.ses with state := .suspended } else s.ses) ∧
        Noted s t (if s.ses.state = .running then Event.bit .listFull ||| Event.bit .stateChange else Event.bit .listFull) ∧
        t.lrl = s.lrl ∧ t.rgt = s.rgt ∧ t.slk = s.slk ∧ t.sbp = s.sbp ∧ t.mru = s.mru ∧ t.mem = s.mem

/-- R123, R125, R129: the last GOOD completion of a lane's spare writes takes the lane to SETTLING, where it offers the records of
its batch in order. When the list has room for all of them the lane ends its batch; otherwise it keeps those that were turned
away, and enters HOLDING with LIST_FULL. -/
def Obligations.LastSpareWriteSettlesBatch : Prop :=
  (∀ (tag position : Byte) (mask : Mask) (data : List Byte) (s : State) (r : Request) (n : Fin 4),
    s.mru.findOutstanding tag.toNat = some r → r.kind = .write → r.owner = some (.lane n) → s.lanes[n].stage = .writing →
    s.lanes[n].outstanding = 1 →
    ∃ t, exec (.completion tag 1 position (bytes64 mask) data) s = .next t ∧
      SameOutsideMru t (({ s with lanes := s.lanes.set n { s.lanes[n] with outstanding := 0 } } : State).enterSettling n) ∧
      t.mru.quarantined = s.mru.quarantined) ∧
  ∀ (n : Fin 4) (s : State) (b : Batch), s.lanes[n].batch = some b → s.RecordsInOrder →
    let offers := (List.range' b.first b.length).filter fun stripe =>
      let r := s.lanes[n].results.getD (stripe - b.first) StripeResult.empty
      r.lost != 0 || r.suspect != 0
    let settling : State := { s with lanes := s.lanes.set n { s.lanes[n] with stage := .settling, offers := offers } }
    (∀ x ∈ s.lrl.records, x.stripe ∉ offers) →
    ∃ v, OffersTaken settling v n b ∧
      (offers.length ≤ 256 - s.lrl.records.length → s.enterSettling n = v.endBatch n) ∧
      (256 - s.lrl.records.length < offers.length → s.enterSettling n =
        let held : State := { v.noting (Event.bit .listFull) with
          lanes := v.lanes.set n { v.lanes[n] with stage := .holding }
          holdingOrder := s.holdingOrder ++ [n] }
        if s.ses.state = .running then held.entering .suspended else held)

/-- R127: after a retirement the holders are served in holding order, oldest first. The head offers its pending records in order.
When the list has room for all of them it leaves the order and ends its batch, and the next is served; at the first offer turned
away LIST_FULL is set, and nobody behind it is served. With no holder nothing happens. -/
def Obligations.HoldersServedInOrder : Prop :=
  (∀ s : State, s.holdingOrder = [] → s.afterRetirement = s) ∧
  ∀ (s : State) (n : Fin 4) (rest : List (Fin 4)) (b : Batch), s.holdingOrder = n :: rest → s.lanes[n].batch = some b →
    s.RecordsInOrder → s.lanes[n].offers.Nodup → (∀ x ∈ s.lrl.records, x.stripe ∉ s.lanes[n].offers) →
    ∃ v, OffersTaken s v n b ∧
      (s.lanes[n].offers.length ≤ 256 - s.lrl.records.length →
        s.afterRetirement = (({ v with holdingOrder := rest } : State).endBatch n).afterRetirement) ∧
      (256 - s.lrl.records.length < s.lanes[n].offers.length → s.afterRetirement = v.noting (Event.bit .listFull))

/-! ## Member requests -/

/-- R143, R144, R146, R118, R120: a lane's READ that settles, by GOOD, by MEDIUM with its mask in strip block numbers, or by
DEFER with its retries exhausted. The cell of its strip is settled, and the last read of a lane takes it to SOLVING. The request
leaves MRU, and its tag is free (`RequestEnded`). A READ or QREAD with DEFER retries left goes back to the head of its queue with
its tag, unseen by its owner (`RequestResent`). The bytes that stand in the buffer are the channel side's (log 6). -/
def Obligations.ReadSettlesAtItsLane : Prop :=
  (∀ (tag status position : Byte) (mask : Mask) (data : List Byte) (s : State) (r : Request) (n : Fin 4) (o : Settlement),
    s.mru.findOutstanding tag.toNat = some r → r.kind = .read → r.owner = some (.lane n) →
    s.lanes[n].stage = .reading →
    (status = 1 ∧ o = .good) ∨ (status = 2 ∧ o = .medium (r.stripMask mask)) ∨
      (status = 3 ∧ 7 ≤ r.defers ∧ o = .missing) →
    let place := s.lanes[n].bufs.idxOf r.buf / s.profile.n
    let reads := s.lanes[n].reads.modify place fun row => row.modify r.position fun c => c.settle o
    let lane := { s.lanes[n] with outstanding := s.lanes[n].outstanding - 1, reads := reads }
    ∃ t, exec (.completion tag status position (bytes64 mask) data) s = .next t ∧
      BlocksKept s t ∧ EventsKept s t ∧ t.now = s.now ∧ (∀ m : Fin 4, m ≠ n → t.lanes[m] = s.lanes[m]) ∧
      Landed s t (blockAddress r.buf r.firstBlock) (data.take (r.blocks * 4096)) ∧
      t.mru.quarantined = s.mru.quarantined ∧
      (∀ x, (t.mru.pos x).timeouts =
        if x = r.position ∧ status ≠ 3 then 0 else (s.mru.pos x).timeouts) ∧
      (s.lanes[n].outstanding ≠ 1 → 0 < s.lanes[n].outstanding → t.lanes[n] = lane ∧ t.rcd = s.rcd) ∧
      (s.lanes[n].outstanding = 1 → t.lanes[n] = { lane with stage := .solving } ∧
        ∃ c, t.rcd.contexts[n] = some c ∧ c.stripe = 0 ∧ c.block = 0 ∧
          c.results = List.replicate ((s.lanes[n].batch.map (·.length)).getD 0) StripeResult.empty) ∧
      (s.TagsHeldOnce → RequestEnded s t tag.toNat)) ∧
  (∀ (tag position : Byte) (mask : Mask) (data : List Byte) (s : State) (r : Request),
    s.mru.findOutstanding tag.toNat = some r → r.kind = .read ∨ r.kind = .qread → r.defers < 7 → r.position < 16 →
    s.mru.positions.length = 16 →
    ∃ t, exec (.completion tag 3 position (bytes64 mask) data) s = .next t ∧
      RequestResent s t r { r with defers := r.defers + 1 } tag.toNat ∧
      Landed s t (blockAddress r.buf r.firstBlock) (data.take (r.blocks * 4096)) ∧
      t.mru.quarantined = s.mru.quarantined ∧ ∀ x, (t.mru.pos x).timeouts = (s.mru.pos x).timeouts) ∧
  (∀ (c : ReadCell) (o : Settlement), c.status = .pending →
    let union := match o with
      | .medium m => c.sawMask ||| m
      | _ => c.sawMask
    (c.left - 1 ≠ 0 → (c.settle o).status = .pending ∧ (c.settle o).left = c.left - 1) ∧
    (c.left - 1 = 0 → (c.settle o).status =
      if c.sawMissing = true ∨ o = .missing then .missing else if union ≠ 0 then .part union else .good) ∧
    (c.settle o).sawMask = union ∧ ((c.settle o).sawMissing = true ↔ c.sawMissing = true ∨ o = .missing)) ∧
  ∀ (r : Request) (mask : Mask) (j : Nat), r.blocks ≤ 64 → j < 64 →
    ((r.stripMask mask).getLsbD j = true ↔
      r.firstBlock ≤ j ∧ j - r.firstBlock < r.blocks ∧ mask.getLsbD (j - r.firstBlock) = true)

/-- R123, R143, R145, R146: a write to the spare, a lane's WRITE or qualification's QWRITE. GOOD counts a lane's WRITE as
completed, and the request leaves MRU; a first MEDIUM, or a DEFER with retries left, puts the write back at the head of its queue
with its tag, unseen by its owner (`RequestResent`); a second MEDIUM, or an eighth DEFER, ends the session in FAILED with cause SPARE_UNWRITABLE. -/
def Obligations.SpareWriteCompletesOrFails : Prop :=
  ∀ (tag status position : Byte) (mask : Mask) (data : List Byte) (s : State) (r : Request) (n : Fin 4),
    s.mru.findOutstanding tag.toNat = some r →
    (r.kind = .write ∧ r.owner = some (.lane n)) ∨ (r.kind = .qwrite ∧ r.owner = some .qualification) → r.position < 16 →
    s.mru.positions.length = 16 →
    let done := exec (.completion tag status position (bytes64 mask) data) s
    let resent := fun (rewritten : Bool) (defers : Nat) (timeouts : Nat) => ∃ t, done = .next t ∧
      RequestResent s t r { r with rewritten := rewritten, defers := defers } tag.toNat ∧
      t.mem = s.mem ∧ t.mru.quarantined = s.mru.quarantined ∧ (t.mru.pos r.position).timeouts = timeouts
    let failed := ∃ t, done = .next t ∧ t.ses.state = .failed ∧ t.ses.cause = .spareUnwritable ∧
      Noted s t (Event.bit .stateChange) ∧ t.rgt = s.rgt ∧ t.lrl = s.lrl ∧ t.mem = s.mem ∧ t.slk.held = [] ∧
      t.slk.waiting = [] ∧ t.holdingOrder = [] ∧ (s.TagsHeldOnce → TagFreed s t tag.toNat) ∧
      ∀ m : Fin 4, t.lanes[m] =
        if s.lanes[m].batch = none then s.lanes[m] else { Lane.reset with outcome := .abandoned }
    (status = 1 → r.kind = .write → s.lanes[n].stage = .writing → 2 ≤ s.lanes[n].outstanding → ∃ t, done = .next t ∧ BlocksKept s t ∧
      EventsKept s t ∧ t.lanes[n] = { s.lanes[n] with outstanding := s.lanes[n].outstanding - 1 } ∧
      (∀ m : Fin 4, m ≠ n → t.lanes[m] = s.lanes[m]) ∧ t.mem = s.mem ∧ t.rcd = s.rcd ∧
      (t.mru.pos r.position).timeouts = 0 ∧ (s.TagsHeldOnce → RequestEnded s t tag.toNat)) ∧
    (status = 2 → r.rewritten = false → resent true r.defers 0) ∧
    (status = 2 → r.rewritten = true → failed) ∧
    (status = 3 → r.defers < 7 → resent r.rewritten (r.defers + 1) (s.mru.pos r.position).timeouts) ∧
    (status = 3 → 7 ≤ r.defers → failed)

/-- R147, R36, R37: a LOST completion faults the position: the spare's ends the session in FAILED with cause SPARE_LOST, a first
survivor's makes it the faulted survivor, and the lanes act as R119, R120 and R122 give; a second survivor's ends the session
in BROKEN. The request ends with its tag free (`TagFreed`). It is not quarantined: where no position waits for a tag, the requests
that join the quarantine are the ones that are OUTSTANDING beside it. -/
def Obligations.LostCompletionFaultsPosition : Prop :=
  ∀ (tag position : Byte) (mask : Mask) (data : List Byte) (s : State) (r : Request),
    s.mru.findOutstanding tag.toNat = some r → s.ses.state ∈ acceptedIn .abort →
    let ended := s.without r.position tag.toNat
    ∃ t, exec (.completion tag 4 position (bytes64 mask) data) s = .next t ∧ (s.TagsHeldOnce → TagFreed s t tag.toNat) ∧
      (s.ses.roles[r.position]? = some .spare → t.ses.state = .failed ∧ t.ses.cause = .spareLost ∧
        (s.mru.tagWait = [] → SessionEnded { ended with mem := t.mem } t .failed .spareLost) ∧ Noted s t (Event.bit .stateChange) ∧ t.ses.roles = s.ses.roles) ∧
      (s.ses.roles[r.position]? = some .survivor → s.ses.faultedSurvivor = none →
        t.ses = { s.ses with roles := s.ses.roles.set r.position .faulted, faultedSurvivor := some r.position } ∧
        Noted s t (Event.bit .memberFaulted) ∧ (t.mru.pos r.position).queue = [] ∧
        (t.mru.pos r.position).outstanding = [] ∧ LanesFaulted s t r.position ∧
        (s.mru.tagWait = [] → t.mru.quarantined = s.mru.quarantined ++ (ended.mru.pos r.position).outstanding.map
          (fun q => { q with deadline := some (s.now + s.mru.timeout) }))) ∧
      (s.ses.roles[r.position]? = some .survivor → s.ses.faultedSurvivor ≠ none → t.ses.state = .broken ∧
        t.ses.cause = .tooManyFaults ∧ t.ses.roles = s.ses.roles.set r.position .faulted ∧
        (s.mru.tagWait = [] → SessionEnded { ended with mem := t.mem } t .broken .tooManyFaults) ∧
        Noted s t (Event.bit .memberFaulted ||| Event.bit .stateChange)) ∧
      (s.ses.roles[r.position]? = some .faulted → t.ses = s.ses ∧ EventsKept s t ∧ t.mru.quarantined = s.mru.quarantined) ∧
      (∀ x, (t.mru.pos x).timeouts = (s.mru.pos x).timeouts) ∧ t.rgt = s.rgt ∧ t.lrl = s.lrl ∧ t.geo = s.geo

/-- R142, R152, R209, R113: a completion of unknown status, or for a tag that is free or QUEUED, changes nothing; one for a
QUARANTINED request, or the deadline of that request, ends the quarantine: SBP is told and lets go of its buffer, and then the freed tag goes to the tag wait order. The model's choices are
that a late completion of a read brings the bytes of its row into the buffer memory (log 6), that every position with a queue then
decides, in ascending order (logs 9 and 10), that a row of time is taken when its event stands, and that it otherwise changes nothing
(logs 3 and 18). -/
def Obligations.QuarantineEndsAndDiscards : Prop :=
  (∀ (tag status position : Byte) (mask : Mask) (data : List Byte) (s : State),
    (status = 0 ∨ 4 < status.toNat ∨
      (s.mru.findOutstanding tag.toNat = none ∧ s.mru.findQuarantined tag.toNat = none)) →
      exec (.completion tag status position (bytes64 mask) data) s = .next { s with sent := [] }) ∧
  (∀ (tag : Byte) (x : Fin 16) (s : State),
    (s.mru.standing (.timeout tag.toNat) = none → exec (.timeout tag) s = .next { s with sent := [] }) ∧
    (s.mru.standing (.quarantineEnd tag.toNat) = none → exec (.quarantineEnd tag) s = .next { s with sent := [] }) ∧
    (s.mru.standing (.pacing x.val) = none → exec (.pacingExpiry x) s = .next { s with sent := [] })) ∧
  ∀ (tag status position : Byte) (mask : Mask) (data : List Byte) (s : State) (i : Instr) (now : Nat),
    (i = .completion tag status position (bytes64 mask) data ∧ 1 ≤ status.toNat ∧ status.toNat ≤ 4 ∧ now = s.now ∧
        s.mru.findOutstanding tag.toNat = none ∧ s.mru.findQuarantined tag.toNat ≠ none) ∨
      (i = .quarantineEnd tag ∧ ∃ d, s.mru.standing (.quarantineEnd tag.toNat) = some d ∧ now = max s.now d) →
    let left := s.mru.quarantined.filter fun r => r.tag != some tag.toNat
    let freed := s.sbp.quarantineHold.filter fun b => !left.any fun r => r.buf == b
    let landed := match i with
      | .completion _ _ _ _ bytes => (s.mru.findQuarantined tag.toNat).elim s fun r => s.landData r bytes
      | _ => s
    let told := ({ s with mem := landed.mem, mru := { s.mru with quarantined := left }, now := now, sent := [] } : State)
      |>.releaseHold.scanBuffers.resumeHeldStep
    ∃ t, exec i s = .next t ∧ t = told.serveTagWait.decideAll ∧ t.mru.quarantined = left ∧ t.now = now ∧
      t.sbp.quarantineHold = s.sbp.quarantineHold.filter (fun b => left.any fun r => r.buf == b) ∧
      (s.sbp.waiting = [] → ∀ b, b ∈ t.sbp.free ↔ b ∈ s.sbp.free ∨ b ∈ freed) ∧
      (∀ x, (t.mru.pos x).timeouts = (s.mru.pos x).timeouts) ∧ t.ses.state = s.ses.state ∧ t.ses.roles = s.ses.roles ∧
      EventsKept s t ∧ t.rgt = s.rgt ∧ t.lrl = s.lrl ∧ t.geo = s.geo ∧ t.rtu = s.rtu

/-- R149, R150: at its deadline an OUTSTANDING request is quarantined and the position's count rises, with MEMBER_TIMEOUT. Below
3 a read settles MISSING, and a lane's last one takes it to SOLVING (R120); a write gets a successor with a tag of its own at the
head of its queue. At 3 the position faults: the spare's ends the session in FAILED, a second survivor's in BROKEN, and at a first
survivor's the position is cleared (R154), its requests quarantined with this one, and while no dropped request held a tag no
other position is touched (R139). The deadline is taken when it stands (log 3). -/
def Obligations.TimeoutQuarantinesRequest : Prop :=
  ∀ (tag : Byte) (s : State) (r : Request) (d : Nat), s.mru.standing (.timeout tag.toNat) = some d →
    s.mru.findOutstanding tag.toNat = some r → r.position < 16 → s.mru.positions.length = 16 →
    let now := max s.now d
    let count := (s.mru.pos r.position).timeouts + 1
    let late := { r with deadline := some (now + s.mru.timeout) }
    let rest := (s.mru.pos r.position).outstanding.filter fun q => q.tag != some tag.toNat
    let stepped := (({ s with now := now } : State).updPos r.position fun p =>
      { p with outstanding := rest, timeouts := 3 }).updMru fun m => { m with quarantined := m.quarantined ++ [late] }
    ∃ t, exec (.timeout tag) s = .next t ∧ t.now = now ∧
      (count < 3 → r.kind = .write ∨ r.kind = .qwrite →
        BlocksKept s t ∧ Noted s t (Event.bit .memberTimeout) ∧ t.lanes = s.lanes ∧ t.rcd = s.rcd ∧ t.mem = s.mem ∧
        (t.mru.pos r.position).timeouts = count ∧ t.mru.quarantined = s.mru.quarantined ++ [late] ∧
        (t.mru.pos r.position).works = (rest ++ r :: (s.mru.pos r.position).queue).map Request.work ∧
        ∃ r' ∈ (t.mru.pos r.position).live, r'.work = r.work ∧ r'.tag ≠ some tag.toNat) ∧
      (∀ n, count < 3 → r.kind = .read → r.owner = some (.lane n) → s.lanes[n].stage = .reading →
        1 ≤ s.lanes[n].outstanding →
        let settled := { s.lanes[n] with
          outstanding := s.lanes[n].outstanding - 1
          reads := s.lanes[n].reads.modify (s.lanes[n].bufs.idxOf r.buf / s.profile.n) fun row =>
            row.modify r.position fun c => c.settle .missing }
        BlocksKept s t ∧ Noted s t (Event.bit .memberTimeout) ∧ t.mem = s.mem ∧
        (t.mru.pos r.position).timeouts = count ∧ t.mru.quarantined = s.mru.quarantined ++ [late] ∧
        (∀ m : Fin 4, m ≠ n → t.lanes[m] = s.lanes[m] ∧ t.rcd.contexts[m] = s.rcd.contexts[m]) ∧
        (s.lanes[n].outstanding ≠ 1 → t.lanes[n] = settled ∧ t.rcd = s.rcd) ∧
        (s.lanes[n].outstanding = 1 → t.lanes[n] = { settled with stage := .solving } ∧ t.rcd.contexts[n] =
          some { stripe := 0, block := 0,
                 results := List.replicate ((s.lanes[n].batch.map (·.length)).getD 0) StripeResult.empty })) ∧
      (3 ≤ count → s.ses.state ∈ acceptedIn .abort → (t.mru.pos r.position).timeouts = 3 ∧
        (s.ses.roles[r.position]? = some .spare → SessionEnded stepped t .failed .spareLost ∧ t.ses.roles = s.ses.roles ∧
          Noted s t (Event.bit .memberTimeout ||| Event.bit .stateChange)) ∧
        (s.ses.roles[r.position]? = some .survivor → s.ses.faultedSurvivor ≠ none →
          SessionEnded stepped t .broken .tooManyFaults ∧ t.ses.roles = s.ses.roles.set r.position .faulted ∧
          Noted s t (Event.bit .memberTimeout ||| Event.bit .memberFaulted ||| Event.bit .stateChange)) ∧
        (s.ses.roles[r.position]? = some .survivor → s.ses.faultedSurvivor = none →
          t.ses = { s.ses with roles := s.ses.roles.set r.position .faulted, faultedSurvivor := some r.position } ∧
          Noted s t (Event.bit .memberTimeout ||| Event.bit .memberFaulted) ∧ LanesFaulted s t r.position ∧
          t.mru.pos r.position =
            { s.mru.pos r.position with queue := [], outstanding := [], expiry := none, timeouts := 3 } ∧
          t.mru.quarantined = s.mru.quarantined ++ [late] ++
            rest.map (fun q => { q with deadline := some (now + s.mru.timeout) }) ∧
          ((∀ q ∈ (s.mru.pos r.position).queue, q.tag = none) →
            t.sent = [] ∧ ∀ y, y ≠ r.position → t.mru.pos y = s.mru.pos y)) ∧
        (s.ses.roles[r.position]? = some .faulted → BlocksKept s t ∧ Noted s t (Event.bit .memberTimeout) ∧
          t.lanes = s.lanes ∧ t.mru.quarantined = s.mru.quarantined ++ [late]))

/-- R139: a decision that finds the head of x without a tag, none free, and conditions 1 and 2 of R138 met puts x at the tail of the
tag wait order, and one that finds them not met takes it out. That it does the same while a tag is free and positions wait for one is
the model's reading (log 10, DEDUCED). A freed tag goes to the first position in the order whose head may
take it, which issues that head (the lowest free tag, R135), and further ones to the next. At a completion that frees the only free
tag, or the end of a quarantine that does, the head of the first position is issued with it; that the row of a quarantine's end is
taken when its deadline stands is the model's choice (log 3). -/
def Obligations.TagWaitServedInOrder : Prop :=
  (∀ (s : State) (x : Nat),
    (∀ r rest, (s.mru.pos x).queue = r :: rest → r.tag = none → s.MayIssue x → s.NoTagFree ∨ s.mru.tagWait ≠ [] →
      s.issueDecision x = { s with mru := { s.mru with
        tagWait := if x ∈ s.mru.tagWait then s.mru.tagWait else s.mru.tagWait ++ [x] } }) ∧
    (s.mru.tagWait.Nodup → (s.mru.pos x).queue = [] ∨ ¬s.MayIssue x → x ∉ (s.issueDecision x).mru.tagWait)) ∧
  (∀ s : State, s.mru.tagWait = [] ∨ s.NoTagFree → s.serveTagWait = s) ∧
  (∀ (s : State) (x : Nat) (order : List Nat) (k : Nat), s.mru.tagWait = x :: order → x ∉ order → s.LowestFree k →
    (∀ r rest, (s.mru.pos x).queue = r :: rest → r.tag = none → s.MayIssue x →
      let issued := { r with tag := some k, deadline := some (s.now + s.mru.timeout) }
      s.serveTagWait = State.serveTagWait { s with
        mru := { s.mru with
          tagWait := order
          positions := s.mru.positions.set x { s.mru.pos x with
            queue := rest
            outstanding := (s.mru.pos x).outstanding ++ [issued]
            history := (s.now :: (s.mru.pos x).history).take 32
            expiry := if rest = [] then none else (s.mru.pos x).expiry } }
        sent := s.sent ++ [.memberRequest (issued.bytes k)] }) ∧
    ((s.mru.pos x).queue = [] ∨ ¬s.MayIssue x ∨ (∃ r rest, (s.mru.pos x).queue = r :: rest ∧ r.tag ≠ none) →
      s.serveTagWait = State.serveTagWait { s with mru := { s.mru with tagWait := order } })) ∧
  ∀ (tag position : Byte) (mask : Mask) (s : State) (i : Instr) (now x : Nat) (order : List Nat) (r : Request)
    (rest : List Request), s.TagsHeldOnce → s.NoTagFree → s.mru.tagWait = x :: order → x < 16 →
    (s.mru.pos x).queue = r :: rest → r.tag = none → ({ s with now := now } : State).MayIssue x →
    (i = .completion tag 1 position (bytes64 mask) [] ∧ now = s.now ∧
      ((∃ r₀ n, s.mru.findOutstanding tag.toNat = some r₀ ∧ r₀.owner = some (.lane n)) ∨
        (s.mru.findOutstanding tag.toNat = none ∧ s.mru.findQuarantined tag.toNat ≠ none))) ∨
      (i = .quarantineEnd tag ∧ ∃ d, s.mru.standing (.quarantineEnd tag.toNat) = some d ∧ now = max s.now d) →
    ∃ t, exec i s = .next t ∧ { r with tag := some tag.toNat, deadline := some (now + s.mru.timeout) } ∈
      (t.mru.pos x).outstanding

/-- R135, R138 to R140: an issue decision issues the heads of the position's queue while fewer than 4 requests are outstanding
and fewer than W were issued within the window, each with its own tag or the lowest free one; a head still held back by pacing alone
gets a new expiry, and an emptied queue has none (`DecisionMade`, where no position waits for a tag while one is free). At a pacing
expiry its position makes a decision, and where the head may go it goes. That an expiry is set only when pacing alone holds the head
back is the model's reading (log 10, DEDUCED), and that the row is taken when it stands its choice (log 3); what was sent stands in
`sent` (log 7). -/
def Obligations.PacingExpiryIssuesHead : Prop :=
  (∀ (s : State) (x : Nat), s.TagOrderServed → DecisionMade s (s.issueDecision x) x) ∧
  ∀ (x : Fin 16) (s : State) (d : Nat), s.mru.standing (.pacing x.val) = some d → s.TagOrderServed →
    let expired := ({ s with now := max s.now d, sent := [] } : State).updPos x.val fun p => { p with expiry := none }
    ∃ t, exec (.pacingExpiry x) s = .next t ∧ DecisionMade expired t x.val ∧ t.now = max s.now d ∧ BlocksKept s t ∧
      EventsKept s t ∧ t.lanes = s.lanes ∧ t.rcd = s.rcd ∧ t.mem = s.mem ∧ t.mru.quarantined = s.mru.quarantined ∧
      (∀ y, y ≠ x.val → t.mru.pos y = s.mru.pos y) ∧
      ∀ (r : Request) (rest : List Request) (k : Nat), (s.mru.pos x.val).queue = r :: rest → expired.MayIssue x.val →
        r.tag = some k ∨ (r.tag = none ∧ s.LowestFree k) →
        ∃ more, (t.mru.pos x.val).outstanding = (s.mru.pos x.val).outstanding ++
          { r with tag := some k, deadline := some (max s.now d + s.mru.timeout) } :: more

/-- R24 to R27, R149: an attempt fills the pattern in and submits its QWRITE; the QWRITE's completion submits the QREAD; what
becomes of the QREAD, by its completion or its timeout, decides the next strip, READY with QUAL_DONE, another attempt, or FAILED
with cause QUAL_MISMATCH at the fifth. A step whose buffer a quarantined request still names waits, and is taken at the end of the
last such quarantine (R23, R152; log 13). The model's choices are that a completion's row brings the bytes read into the buffer (log 6)
and that a row of time is taken when its event stands (log 3). -/
def Obligations.QualificationAttempts : Prop :=
  let asked := fun (s : State) (f : Nat) (kind : RequestKind) (strip : Nat) (buf : BufId) =>
    ({ tag := none, position := f, kind := kind,
       address := (s.ses.qualArea.map (·.1)).getD 0 + strip * s.profile.l, blocks := s.profile.l, buf := buf, firstBlock := 0,
       owner := some .qualification, defers := 0, rewritten := false, deadline := none } : Request)
  (∀ (s : State) (q : QualProgress) (j i : Nat), s.mru.namesQuarantined s.ses.patternBuf = false → j < s.profile.l →
    i < 4096 →
    (s.beginAttempt q).mem.read (s.ses.patternBuf.val * 262144 + j * 4096 + i) = BitVec.ofNat 8 (i + 7 * j + 31 * q.strip)) ∧
  (∀ (s : State) (q : QualProgress) (f : Nat), s.ses.failedPos = some f → f < 16 → s.mru.positions.length = 16 →
    s.mru.namesQuarantined s.ses.patternBuf = false →
    (s.beginAttempt q).ses = { s.ses with qualProgress := some { q with phase := .writing, held := .none } } ∧
    ((s.beginAttempt q).mru.pos f).works = (s.mru.pos f).works ++ [asked s f .qwrite q.strip s.ses.patternBuf]) ∧
  (∀ s : State, s.mem.wf = true → (s.readBackMatches = true ↔ ∀ a, a < s.profile.l * 4096 →
    s.mem.read (s.ses.readBackBuf.val * 262144 + a) = s.mem.read (s.ses.patternBuf.val * 262144 + a))) ∧
  (∀ (tag position : Byte) (mask : Mask) (data : List Byte) (s : State) (r : Request) (q : QualProgress) (f : Nat),
    s.mru.findOutstanding tag.toNat = some r → r.kind = .qwrite → r.owner = some .qualification →
    s.ses.qualProgress = some q → q.phase = .writing → s.ses.failedPos = some f → f < 16 → s.mru.positions.length = 16 →
    ∃ t, exec (.completion tag 1 position (bytes64 mask) data) s = .next t ∧ EventsKept s t ∧ t.mem = s.mem ∧
      t.lanes = s.lanes ∧ t.sbp = s.sbp ∧
      (s.mru.namesQuarantined s.ses.readBackBuf = false →
        t.ses = { s.ses with qualProgress := some { q with phase := .reading, held := .none } } ∧
        ∃ r' ∈ (t.mru.pos f).live, r'.work = asked s f .qread q.strip s.ses.readBackBuf) ∧
      (s.mru.namesQuarantined s.ses.readBackBuf = true →
        t.ses = { s.ses with qualProgress := some { q with held := .read } })) ∧
  (∀ (tag status position : Byte) (mask : Mask) (data : List Byte) (s : State) (r : Request) (q : QualProgress) (f : Nat),
    s.mru.findOutstanding tag.toNat = some r → r.kind = .qread → r.owner = some .qualification →
    s.ses.qualProgress = some q → q.phase = .reading → s.mru.namesQuarantined s.ses.patternBuf = false →
    (∀ w ∈ s.sbp.waiting, w.owner ≠ .qualification) → s.ses.failedPos = some f → f < 16 → s.mru.positions.length = 16 →
    let equal := (s.landData r data).readBackMatches = true
    let fails := (status = 1 ∧ ¬equal) ∨ status = 2 ∨ (status = 3 ∧ 7 ≤ r.defers)
    let done := exec (.completion tag status position (bytes64 mask) data) s
    let begun := fun (strip attempt : Nat) => ∃ t, done = .next t ∧ EventsKept s t ∧
      t.ses = { s.ses with qualProgress := some { strip := strip, attempt := attempt, phase := .writing, held := .none } } ∧
      ∃ r' ∈ (t.mru.pos f).live, r'.work = asked s f .qwrite strip s.ses.patternBuf
    (status = 1 → equal → q.strip + 1 < s.ses.stripCount → begun (q.strip + 1) 1) ∧
    (status = 1 → equal → s.ses.stripCount ≤ q.strip + 1 → ∃ t, done = .next t ∧
      t.ses.state = .ready ∧ t.ses.qualProgress = none ∧ t.ses.qualSet = [] ∧
      Noted s t (Event.bit .stateChange ||| Event.bit .qualDone)) ∧
    (fails → q.attempt < 5 → begun q.strip (q.attempt + 1)) ∧
    (fails → 5 ≤ q.attempt → ∃ t, done = .next t ∧ t.ses.state = .failed ∧ t.ses.cause = .qualMismatch ∧
      Noted s t (Event.bit .stateChange))) ∧
  (∀ (tag : Byte) (s : State) (r : Request) (q : QualProgress) (d f : Nat), s.mru.standing (.timeout tag.toNat) = some d →
    s.mru.findOutstanding tag.toNat = some r → r.kind = .qread → r.owner = some .qualification → r.position < 16 →
    s.ses.qualProgress = some q → q.phase = .reading → s.mru.namesQuarantined s.ses.patternBuf = false →
    r.buf ≠ s.ses.patternBuf → (s.mru.pos r.position).timeouts + 1 < 3 → s.ses.failedPos = some f → f < 16 →
    s.mru.positions.length = 16 →
    (q.attempt < 5 → ∃ t, exec (.timeout tag) s = .next t ∧ Noted s t (Event.bit .memberTimeout) ∧
      t.ses = { s.ses with
        qualProgress := some { strip := q.strip, attempt := q.attempt + 1, phase := .writing, held := .none } } ∧
      ∃ r' ∈ (t.mru.pos f).live, r'.work = asked s f .qwrite q.strip s.ses.patternBuf) ∧
    (5 ≤ q.attempt → ∃ t, exec (.timeout tag) s = .next t ∧ t.ses.state = .failed ∧ t.ses.cause = .qualMismatch ∧
      Noted s t (Event.bit .memberTimeout ||| Event.bit .stateChange))) ∧
  ∀ (tag status position : Byte) (mask : Mask) (data : List Byte) (s : State) (i : Instr) (now : Nat) (q : QualProgress) (f : Nat),
    (i = .completion tag status position (bytes64 mask) data ∧ 1 ≤ status.toNat ∧ status.toNat ≤ 4 ∧ now = s.now ∧
        s.mru.findOutstanding tag.toNat = none ∧ s.mru.findQuarantined tag.toNat ≠ none) ∨
      (i = .quarantineEnd tag ∧ ∃ d, s.mru.standing (.quarantineEnd tag.toNat) = some d ∧ now = max s.now d) →
    s.ses.qualProgress = some q → (∀ w ∈ s.sbp.waiting, w.owner ≠ .qualification) → s.ses.failedPos = some f → f < 16 →
    s.mru.positions.length = 16 →
    let still := fun (buf : BufId) => (s.mru.quarantined.filter fun r => r.tag != some tag.toNat).any fun r => r.buf == buf
    ∃ t, exec i s = .next t ∧ t.now = now ∧
      (q.held = .none ∨ (q.held = .fill ∧ still s.ses.patternBuf = true) ∨ (q.held = .read ∧ still s.ses.readBackBuf = true) →
        t.ses = s.ses) ∧
      (q.held = .fill → still s.ses.patternBuf = false →
        t.ses = { s.ses with qualProgress := some { q with phase := .writing, held := .none } } ∧
        (∃ r' ∈ (t.mru.pos f).live, r'.work = asked s f .qwrite q.strip s.ses.patternBuf) ∧
        ∀ j i, j < s.profile.l → i < 4096 →
          t.mem.read (s.ses.patternBuf.val * 262144 + j * 4096 + i) = BitVec.ofNat 8 (i + 7 * j + 31 * q.strip)) ∧
      (q.held = .read → still s.ses.readBackBuf = false →
        t.ses = { s.ses with qualProgress := some { q with phase := .reading, held := .none } } ∧
        ∃ r' ∈ (t.mru.pos f).live, r'.work = asked s f .qread q.strip s.ses.readBackBuf)

/-! ## Reconstruction -/

/-- R157 to R159: doubling, the product, the powers of the generator and their inverses, and halving. -/
def Obligations.ByteFieldArithmetic : Prop :=
  (∀ x : Byte, (double x).toNat = (if 255 < 2 * x.toNat then (2 * x.toNat) ^^^ 0x11D else 2 * x.toNat) ∧ x ^^^ x = 0) ∧
  (double 0x56 = 0xAC ∧ double 0xAC = 0x45) ∧
  (∀ x y : Byte, gmul x y =
    (List.range 8).foldr (fun i acc => (if y.getLsbD i then double^[i] x else 0) ^^^ acc) 0) ∧
  (∀ x y z : Byte, gmul x 0 = 0 ∧ gmul x 1 = x ∧ gmul x y = gmul y x ∧ gmul (gmul x y) z = gmul x (gmul y z) ∧
    gmul x (y ^^^ z) = gmul x y ^^^ gmul x z) ∧
  (List.range 14).map gpow = [0x01, 0x02, 0x04, 0x08, 0x10, 0x20, 0x40, 0x80, 0x1D, 0x3A, 0x74, 0xE8, 0xCD, 0x87] ∧
  (List.range 14).map (fun a => halveTimes a 1) =
    [0x01, 0x8E, 0x47, 0xAD, 0xD8, 0x6C, 0x36, 0x1B, 0x83, 0xCF, 0xE9, 0xFA, 0x7D, 0xB0] ∧
  (∀ a b : Nat, a < 14 → b < 14 → a ≠ b → gpow a ^^^ gpow b ≠ 0) ∧
  (∀ x : Byte, (halve x).toNat = (if x.toNat % 2 = 0 then x.toNat / 2 else (x.toNat ^^^ 0x11D) / 2) ∧
    halve (double x) = x ∧ double (halve x) = x) ∧
  (∀ (a : Nat) (x : Byte), halveTimes a x = gmul x (halveTimes a 1) ∧ gmul (gpow a) (halveTimes a 1) = 1) ∧
  (∀ c y : Byte, c ≠ 0 → gmul c (inverse c) = 1 ∧ (gmul c y = 1 → y = inverse c)) ∧
  inverse 0x06 = 0x7A

/-- R160, R163 to R170: when the bytes of a stripe satisfy the P and the Q equation and at most one position besides F is
missing, RCD's case gives F's byte from the bytes that are present. With F alone missing, whatever bytes were read, the value RCD gives for F's byte
is the one from P (from the data, where F holds P): with the bytes read it satisfies the P equation, or the Q equation where F
holds Q; and the cross-check of R164 to R166 passes exactly when it satisfies both. -/
def Obligations.RcdRecoversTheSpareByte : Prop :=
  (∀ (p : Profile) (s f : Nat) (missing : List Nat) (c read : Column), 4 ≤ p.n → p.n ≤ 16 → f < p.n →
    (missing.filter (· != f) = [] ∨ ∃ x, x < p.n ∧ missing.filter (· != f) = [x]) → ParityHolds p s (fun y => c.getD y 0) →
    (∀ y, y < p.n → y ≠ f → y ∉ missing → read.getD y 0 = c.getD y 0) →
    (solveCase p s f missing).value p s read = c.getD f 0 ∧
      (missing.filter (· != f) = [] → (solveCase p s f missing).agrees p s read = true)) ∧
  ∀ (p : Profile) (s f : Nat) (missing : List Nat) (read : Column), 4 ≤ p.n → p.n ≤ 16 → f < p.n →
    missing.filter (· != f) = [] →
    let full := fun y => if y = f then (solveCase p s f missing).value p s read else read.getD y 0
    (f ≠ p.qPos s → PEquation p s full) ∧ (f = p.qPos s → QEquation p s full) ∧
      ((solveCase p s f missing).agrees p s read = true ↔ ParityHolds p s full)

/-- R123, R161, R162, R164 to R172: RCD takes the next block of a lane's batch. The block of F's buffer takes the value of the
case that fits the missing set, or the fill with two or more others missing; the block joins the stripe's masks. The last block
takes the lane to WRITING, which submits one WRITE for each extent of F's strip of each stripe, in ascending order, behind what
F's queue holds. That nothing changes for a lane without a solve context is the model's choice (log 18). -/
def Obligations.RcdTakesTheNextBlock : Prop :=
  (∀ (n : Fin 4) (s : State), s.rcd.contexts[n] = none → exec (.rcdTakeBlock n) s = .next { s with sent := [] }) ∧
  (∀ (n : Fin 4) (s : State) (i b x : Nat), x ∈ s.missingSet n i b ↔ x < s.profile.n ∧
    (s.ses.failedPos = some x ∨ s.ses.faultedSurvivor = some x ∨
      ∃ cell, (s.lanes[n].reads[i]?).bind (·[x]?) = some cell ∧
        (cell.status = .missing ∨ ∃ mask, cell.status = .part mask ∧ mask.getLsbD b = true))) ∧
  ∀ (n : Fin 4) (s : State) (c : SolveContext) (b : Batch), s.rcd.contexts[n] = some c → s.lanes[n].batch = some b →
    s.mem.wf = true →
    let stripe := b.first + c.stripe
    let missing := s.missingSet n c.stripe c.block
    let others := missing.filter (· != s.spare)
    let case' := solveCase s.profile stripe s.spare missing
    let lost := 2 ≤ others.length
    let disagrees := (List.range 4096).any fun i => !case'.agrees s.profile stripe (s.columnAt n c.stripe c.block i)
    let suspect := others = [] ∧ s.rcd.check = true ∧ disagrees = true
    let results := c.results.modify c.stripe fun r =>
      if lost then
        { r with lost := r.lost ||| BitVec.twoPow 64 c.block
                 contributors := (List.range 16).filter fun x => r.contributors.contains x || others.contains x }
      else if suspect then { r with suspect := r.suspect ||| BitVec.twoPow 64 c.block }
      else r
    let a := blockAddress (bufferAt s.lanes[n].bufs s.profile.n c.stripe s.spare) c.block
    let next := if c.block + 1 < s.profile.l then some (c.stripe, c.block + 1)
      else if c.stripe + 1 < b.length then some (c.stripe + 1, 0) else none
    ∃ t, exec (.rcdTakeBlock n) s = .next t ∧
      (∀ i, i < 4096 → t.mem.read (a + i) =
        if lost then fillByte (s.ses.fillKind.getD .zero) stripe c.block i
        else case'.value s.profile stripe (s.columnAt n c.stripe c.block i)) ∧
      (∀ x, x < a ∨ a + 4096 ≤ x → t.mem.read x = s.mem.read x) ∧
      BlocksKept s t ∧ EventsKept s t ∧ t.now = s.now ∧ (∀ m : Fin 4, m ≠ n → t.lanes[m] = s.lanes[m]) ∧
      (∀ m : Fin 4, m ≠ n → t.rcd.contexts[m] = s.rcd.contexts[m]) ∧
      (∀ i j, next = some (i, j) → t.lanes[n] = s.lanes[n] ∧ t.mru = s.mru ∧
        t.rcd.contexts[n] = some { stripe := i, block := j, results := results }) ∧
      (next = none → t.rcd.contexts[n] = none ∧ t.lanes[n] = { s.lanes[n] with
        stage := .writing
        results := results
        outstanding := (s.writeRequests n b).length } ∧
        (∀ r, r ∈ s.writeRequests n b ↔ ∃ i, i < b.length ∧ ∃ e ∈ s.extents (b.first + i) s.spare, r =
          { tag := none, position := s.spare, kind := .write, address := e.address, blocks := e.blocks,
            buf := s.lanes[n].bufs.getD (i * s.profile.n + s.spare) 0, firstBlock := e.firstBlock, owner := some (.lane n),
            defers := 0, rewritten := false, deadline := none }) ∧
        (s.writeRequests n b).map (fun r => (r.address, r.firstBlock)) =
          (List.range b.length).flatMap (fun i =>
            (s.extents (b.first + i) s.spare).map fun e => (e.address, e.firstBlock)) ∧
        (s.spare < 16 → s.mru.positions.length = 16 →
          (t.mru.pos s.spare).works = (s.mru.pos s.spare).works ++ s.writeRequests n b) ∧
        ∀ x, x ≠ s.spare → t.mru.pos x = s.mru.pos x)

/-! ## Invariants -/

/-- R199: the event line is asserted exactly while the status set and the enable set have a member in common: at power-on reset,
after every step, and after RESET_ENGINE exactly when ENGINE_RESET is enabled. -/
def Obligations.EventLineFollowsSets : Prop :=
  State.reset.mgp.line = false ∧
  (∀ s t : State, s.LineFollows → step s = .next t → t.LineFollows) ∧
  ∀ (tag : BitVec 16) (s : State), s.HostReady → ∃ t, exec (.resetEngine tag) s = .next t ∧
    (t.mgp.line = true ↔ s.mgp.enables &&& Event.bit .engineReset ≠ 0)

/-- The queues of the Management Port and the Route Port keep to their capacity; a command or a request waits only while there
is no room for its answer; the reservation count stays the number of waiting claims, and no two claims share a tag. -/
def Obligations.PortQueuesKeepCapacity : Prop :=
  ∀ s t : State, step s = .next t → (s.HostQueuesFit → t.HostQueuesFit) ∧ (s.RouteRoom → t.RouteRoom)

/-- No two held lock entries clash, each class keeps to its held slots, no lock request waits that could be granted, and the
oldest waiting buffer request does not fit the free pool. What waits, holds or is solved is a lane at that stage, and each of the
128 strip buffers is in exactly one place, the free pool ascending. -/
def Obligations.LocksAndBuffersStayInPlace : Prop :=
  ∀ s t : State, step s = .next t → (s.LocksApart → t.LocksApart) ∧ (s.BufferHeadWaits → t.BufferHeadWaits) ∧
    (s.StagesFit → t.StagesFit) ∧ (s.StagesFit → s.BuffersInPlace → t.BuffersInPlace)

/-- The record list stays in ascending order of stripe, no stripe twice, within 256 records; the schedule queue holds exactly the
STALE regions, each once. -/
def Obligations.RecordsAndQueueStayOrdered : Prop :=
  ∀ s t : State, step s = .next t →
    (s.RecordsInOrder → t.RecordsInOrder) ∧ (s.QueueHoldsStale → t.QueueHoldsStale)

/-- Each position keeps to three limits of Table 7-2 (its outstanding set, its pacing history, its consecutive-timeout count),
a pacing expiry is set only while a request is queued, no tag is held by two requests, and no position waits for a tag while one is
free (R139). -/
def Obligations.MemberRequestsKeepLimits : Prop :=
  ∀ s t : State, step s = .next t →
    (s.IssueLimits ∧ s.TagsHeldOnce → t.IssueLimits ∧ t.TagsHeldOnce) ∧ (s.TagOrderServed → t.TagOrderServed)

/-- Every setting stays in its range, a set profile in the ranges of Table 1-1, the segment table in its shape, and the buffer
memory in its canonical form (the form is the model's, log 5). -/
def Obligations.SettingsGeometryAndMemoryStayInRange : Prop :=
  ∀ s t : State, step s = .next t →
    (s.SettingsInRange → t.SettingsInRange) ∧ (s.GeometryInRange → t.GeometryInRange) ∧
      (s.GeometryInRange → s.MemoryCanonical → t.MemoryCanonical)
end

