-- ==== Sys2Proof/Decode.lean ====
section
/-! DEFINITION. decodeTableWord for a block whose table gives no row any bits: no word spells a command (log 16). How a
command message's bytes are read stands in Machine/Operands.lean. -/

namespace Sys2Proof

/-- The command that a word of `nbits` bits spells by the table's bits: none, since no row of spec/opcode_table.json gives
bits. -/
def decodeTableWord (_nbits _w : Nat) : Option Instr := none

end Sys2Proof
end

