-- ==== Sys2Proof/Laws/Bytes.lean ====
section
/-! SUPPORT. Little-endian fields: their length, and the number they hold. -/

namespace Sys2Proof.Machine

@[simp] theorem length_leBytes (w v : Nat) : (leBytes w v).length = w := by
  induction w generalizing v with
  | zero => rfl
  | succ w ih => simp [leBytes, ih]

@[simp] theorem length_leOption (w : Nat) (v : Option Nat) : (leOption w v).length = w := by
  cases v <;> simp [leOption]

/-- A field holds the number written into it, when the number fits its width. -/
theorem leNat_leBytes {w v : Nat} (h : v < 256 ^ w) : leNat (leBytes w v) = v := by
  induction w generalizing v with
  | zero =>
    simp only [Nat.pow_zero, Nat.lt_one_iff] at h
    simp [leBytes, leNat, h]
  | succ w ih =>
    simp only [leBytes, leNat, BitVec.toNat_ofNat]
    rw [ih (by rw [Nat.pow_succ] at h; omega)]
    omega

/-- The bytes of a field are those of the number that its bytes hold. -/
theorem leBytes_leNat (bytes : List Byte) : leBytes bytes.length (leNat bytes) = bytes := by
  induction bytes with
  | nil => rfl
  | cons b rest ih =>
    have hb : b.toNat < 256 := b.isLt
    simp only [List.length_cons, leBytes, leNat, List.cons.injEq]
    refine ⟨?_, ?_⟩
    · apply BitVec.eq_of_toNat_eq
      simp only [BitVec.toNat_ofNat]
      omega
    · rw [show (b.toNat + 256 * leNat rest) / 256 = leNat rest by omega]
      exact ih

/-- A field that begins a message. -/
theorem fieldAt_zero {w v : Nat} (h : v < 256 ^ w) (rest : List Byte) : fieldAt (leBytes w v ++ rest) 0 w = v := by
  simp only [fieldAt, List.drop_zero]
  rw [List.take_left' (length_leBytes w v), leNat_leBytes h]

/-- A field that stands behind other bytes. -/
theorem fieldAt_append (front rest : List Byte) (o w : Nat) :
    fieldAt (front ++ rest) (front.length + o) w = fieldAt rest o w := by
  have h : front.drop (front.length + o) = [] := List.drop_eq_nil_of_le (Nat.le_add_right _ _)
  simp [fieldAt, List.drop_append, h]

end Sys2Proof.Machine
end

