-- ==== Sys2Proof/Laws/Frames.lean ====
section
/-! SUPPORT. What each shared operation can change, said once: a proof cites these instead of unfolding the operation. Each
relation is an equation, so that every field it does not name is unchanged by rfl. -/

namespace Sys2Proof.Machine

/-! ## MRU's own operations: the request records and the messages sent -/

/-- Only MRU's state and the messages sent may differ. -/
def MruOnly (s t : State) : Prop := ∃ m o, t = { s with mru := m, sent := o }

theorem MruOnly.refl (s : State) : MruOnly s s := ⟨_, _, rfl⟩

theorem MruOnly.trans {s t u : State} (h : MruOnly s t) (h' : MruOnly t u) : MruOnly s u := by
  obtain ⟨m, o, rfl⟩ := h
  obtain ⟨m', o', rfl⟩ := h'
  exact ⟨m', o', rfl⟩

theorem MruOnly.foldl {α : Type} {f : State → α → State} (h : ∀ s a, MruOnly s (f s a)) (l : List α) (s : State) :
    MruOnly s (l.foldl f s) := by
  induction l generalizing s with
  | nil => exact .refl s
  | cons a l ih => exact (h s a).trans (ih _)

theorem State.updMru_only (f : Mru → Mru) (s : State) : MruOnly s (s.updMru f) := ⟨_, _, rfl⟩

theorem State.updPos_only (x : Nat) (f : PosState → PosState) (s : State) : MruOnly s (s.updPos x f) := ⟨_, _, rfl⟩

theorem State.emit_only (out : Output) (s : State) : MruOnly s (s.emit out) := ⟨_, _, rfl⟩

theorem State.beginEvent_only (s : State) : MruOnly s s.beginEvent := ⟨_, _, rfl⟩

theorem State.issueHead_only (x tag : Nat) (s : State) : MruOnly s (s.issueHead x tag) := by
  unfold State.issueHead
  split
  · exact .refl s
  · exact ⟨_, _, rfl⟩

theorem State.leaveTagWait_only (x : Nat) (s : State) : MruOnly s (s.leaveTagWait x) := ⟨_, _, rfl⟩

theorem State.joinTagWait_only (x : Nat) (s : State) : MruOnly s (s.joinTagWait x) := ⟨_, _, rfl⟩

theorem State.setExpiry_only (x : Nat) (e : Option Nat) (s : State) : MruOnly s (s.setExpiry x e) := ⟨_, _, rfl⟩

theorem State.issueFuel_only (fuel x : Nat) (s : State) : MruOnly s (s.issueFuel fuel x) := by
  induction fuel generalizing s with
  | zero => exact .refl s
  | succ fuel ih =>
    simp only [State.issueFuel]
    split
    · exact (s.leaveTagWait_only x).trans (State.setExpiry_only x _ _)
    · split
      · exact s.leaveTagWait_only x
      · split
        · split
          · exact (s.leaveTagWait_only x).trans (State.setExpiry_only x _ _)
          · exact s.leaveTagWait_only x
        · split
          · exact (s.issueHead_only x _).trans (ih _)
          · split
            · exact (s.issueHead_only x _).trans (ih _)
            · exact s.joinTagWait_only x

/-- An issue decision changes MRU's state and the messages sent, nothing else. -/
theorem State.issueDecision_only (x : Nat) (s : State) : MruOnly s (s.issueDecision x) := s.issueFuel_only 5 x

theorem State.decideAll_only (s : State) : MruOnly s s.decideAll := by
  refine MruOnly.foldl (fun s x => ?_) _ _
  split
  · exact .refl s
  · exact s.issueDecision_only x

theorem State.serveTagWaitFuel_only (fuel : Nat) (s : State) : MruOnly s (s.serveTagWaitFuel fuel) := by
  induction fuel generalizing s with
  | zero => exact .refl s
  | succ fuel ih =>
    simp only [State.serveTagWaitFuel]
    split
    · split
      · exact (s.leaveTagWait_only _).trans (ih _)
      · split
        · exact (s.leaveTagWait_only _).trans (ih _)
        · exact ((s.leaveTagWait_only _).trans (State.issueHead_only _ _ _)).trans (ih _)
    · exact .refl s

theorem State.serveTagWait_only (s : State) : MruOnly s s.serveTagWait := s.serveTagWaitFuel_only _

theorem State.decideAfterFree_only (x : Nat) (s : State) : MruOnly s (s.decideAfterFree x) :=
  (s.issueDecision_only x).trans (State.decideAll_only _)

/-- A submission changes MRU's state and the messages sent, nothing else. -/
theorem State.submit_only (s : State) (r : Request) : MruOnly s (s.submit r) :=
  (s.updPos_only _ _).trans (State.issueDecision_only _ _)

theorem State.submitAll_only (l : List Request) (s : State) : MruOnly s (s.submitAll l) :=
  MruOnly.foldl State.submit_only l s

theorem State.leaveOutstanding_only (x tag : Nat) (s : State) : MruOnly s (s.leaveOutstanding x tag) := ⟨_, _, rfl⟩

theorem State.requeueHead_only (r : Request) (s : State) : MruOnly s (s.requeueHead r) := ⟨_, _, rfl⟩

theorem State.setTimeouts_only (x count : Nat) (s : State) : MruOnly s (s.setTimeouts x count) := ⟨_, _, rfl⟩

theorem State.clearPosition_only (x : Nat) (s : State) : MruOnly s (s.clearPosition x) := by
  unfold State.clearPosition
  dsimp only
  split
  · exact (((s.updPos_only _ _).trans (State.updMru_only _ _)).trans (State.serveTagWait_only _)).trans
      (State.decideAll_only _)
  · exact (s.updPos_only _ _).trans (State.updMru_only _ _)

/-- A clearing that frees no tag touches its own position, the quarantine and the position's place in the tag wait order, and
no other position decides (R139, R154). -/
theorem State.clearPosition_of_no_tag (x : Nat) (s : State) (h : ∀ q ∈ (s.mru.pos x).queue, q.tag = none) :
    s.clearPosition x = (s.updPos x fun p => { p with queue := [], outstanding := [], expiry := none }).updMru fun m =>
      { m with
        quarantined := m.quarantined ++ (s.mru.pos x).outstanding.map (Request.quarantine (s.now + s.mru.timeout))
        tagWait := m.tagWait.erase x } := by
  unfold State.clearPosition
  have : (s.mru.pos x).queue.any (·.tag.isSome) = false :=
    List.any_eq_false.mpr fun q hq => by simp [h q hq]
  simp [this]

theorem State.clearAll_only (s : State) : MruOnly s s.clearAll := ⟨_, _, rfl⟩

theorem State.zeroTimeouts_only (s : State) : MruOnly s s.zeroTimeouts := ⟨_, _, rfl⟩

/-! ## Grants: also the lanes, SLK and RTU -/

/-- Only MRU, the messages sent, the lanes, SLK, and RTU's answers and reservations may differ. -/
def LocksOnly (s t : State) : Prop :=
  ∃ m o l k a r, t =
    { s with mru := m, sent := o, lanes := l, slk := k, rtu := { s.rtu with answers := a, reservations := r } }

theorem LocksOnly.refl (s : State) : LocksOnly s s := ⟨_, _, _, _, _, _, rfl⟩

theorem LocksOnly.trans {s t u : State} (h : LocksOnly s t) (h' : LocksOnly t u) : LocksOnly s u := by
  obtain ⟨m, o, l, k, a, r, rfl⟩ := h
  obtain ⟨m', o', l', k', a', r', rfl⟩ := h'
  exact ⟨m', o', l', k', a', r', rfl⟩

theorem MruOnly.locks {s t : State} (h : MruOnly s t) : LocksOnly s t := by
  obtain ⟨m, o, rfl⟩ := h
  exact ⟨m, o, _, _, _, _, rfl⟩

theorem State.updLane_only (n : Fin 4) (f : Lane → Lane) (s : State) : LocksOnly s (s.updLane n f) := ⟨_, _, _, _, _, _, rfl⟩

theorem State.updSlk_only (f : Slk → Slk) (s : State) : LocksOnly s (s.updSlk f) := ⟨_, _, _, _, _, _, rfl⟩

theorem State.answer_only (a : Answer) (s : State) : LocksOnly s (s.answer a) := ⟨_, _, _, _, _, _, rfl⟩

theorem State.dropReservation_only (s : State) : LocksOnly s s.dropReservation := ⟨_, _, _, _, _, _, rfl⟩

theorem State.enterReading_only (n : Fin 4) (s : State) : LocksOnly s (s.enterReading n) := by
  unfold State.enterReading
  split
  · exact .refl s
  · exact (s.updLane_only n _).trans (State.submitAll_only _ _).locks

theorem State.enterWriting_only (n : Fin 4) (results : List StripeResult) (s : State) :
    LocksOnly s (s.enterWriting n results) := by
  unfold State.enterWriting
  split
  · exact .refl s
  · exact (s.updLane_only n _).trans (State.submitAll_only _ _).locks

theorem State.grantWaiting_only (e : LockEntry) (s : State) : LocksOnly s (s.grantWaiting e) := by
  unfold State.grantWaiting
  split
  · exact s.enterReading_only _
  · exact (s.answer_only _).trans (State.dropReservation_only _)

theorem State.scanFrom_only (rest kept : List LockEntry) (s : State) : LocksOnly s (State.scanFrom rest kept s) := by
  induction rest generalizing kept s with
  | nil => exact .refl s
  | cons e rest ih =>
    simp only [State.scanFrom]
    split
    · exact ((s.updSlk_only _).trans (State.grantWaiting_only _ _)).trans (ih _ _)
    · exact ih _ _

/-- A scan of SLK's wait list changes SLK, RTU's answers, the lanes it grants, and what they submit. -/
theorem State.scanLocks_only (s : State) : LocksOnly s s.scanLocks := State.scanFrom_only _ _ s

theorem State.requestLaneLock_only (n : Fin 4) (s : State) : LocksOnly s (s.requestLaneLock n) := by
  unfold State.requestLaneLock
  split
  · exact .refl s
  · simp only
    split
    · exact (s.updSlk_only _).trans (State.enterReading_only _ _)
    · exact s.updSlk_only _

theorem State.dropHeld_only (o : LockOwner) (s : State) : LocksOnly s (s.dropHeld o) := ⟨_, _, _, _, _, _, rfl⟩

theorem State.dropWaiting_only (o : LockOwner) (s : State) : LocksOnly s (s.dropWaiting o) := ⟨_, _, _, _, _, _, rfl⟩

theorem State.emptyLocks_only (status : RouteStatus) (s : State) : LocksOnly s (s.emptyLocks status) := ⟨_, _, _, _, _, _, rfl⟩

/-! ## Buffers: also SBP, the buffer memory and qualification's progress and set -/

/-- Besides what LocksOnly allows, SBP, the buffer memory, and qualification's progress and set may differ. -/
def WorkOnly (s t : State) : Prop :=
  ∃ m o l k a r b e q c, t =
    { s with mru := m, sent := o, lanes := l, slk := k, rtu := { s.rtu with answers := a, reservations := r }, sbp := b,
             mem := e, ses := { s.ses with qualProgress := q, qualSet := c } }

theorem WorkOnly.refl (s : State) : WorkOnly s s := ⟨_, _, _, _, _, _, _, _, _, _, rfl⟩

theorem WorkOnly.trans {s t u : State} (h : WorkOnly s t) (h' : WorkOnly t u) : WorkOnly s u := by
  obtain ⟨m, o, l, k, a, r, b, e, q, c, rfl⟩ := h
  obtain ⟨m', o', l', k', a', r', b', e', q', c', rfl⟩ := h'
  exact ⟨m', o', l', k', a', r', b', e', q', c', rfl⟩

theorem LocksOnly.work {s t : State} (h : LocksOnly s t) : WorkOnly s t := by
  obtain ⟨m, o, l, k, a, r, rfl⟩ := h
  exact ⟨m, o, l, k, a, r, _, _, _, _, rfl⟩

theorem MruOnly.work {s t : State} (h : MruOnly s t) : WorkOnly s t := h.locks.work

theorem State.updSbp_only (f : Sbp → Sbp) (s : State) : WorkOnly s (s.updSbp f) := ⟨_, _, _, _, _, _, _, _, _, _, rfl⟩

theorem State.writeMem_only (a : Nat) (bytes : List Byte) (s : State) : WorkOnly s (s.writeMem a bytes) :=
  ⟨_, _, _, _, _, _, _, _, _, _, rfl⟩

theorem State.setProgress_only (q : QualProgress) (s : State) : WorkOnly s (s.setProgress q) :=
  ⟨_, _, _, _, _, _, _, _, _, _, rfl⟩

theorem State.beginAttempt_only (q : QualProgress) (s : State) : WorkOnly s (s.beginAttempt q) := by
  unfold State.beginAttempt
  split
  · exact s.setProgress_only _
  · exact ((s.writeMem_only _ _).trans (State.setProgress_only _ _)).trans (State.submit_only _ _).work

theorem State.beginReadBack_only (q : QualProgress) (s : State) : WorkOnly s (s.beginReadBack q) := by
  unfold State.beginReadBack
  split
  · exact s.setProgress_only _
  · exact (s.setProgress_only _).trans (State.submit_only _ _).work

theorem State.resumeHeldStep_only (s : State) : WorkOnly s s.resumeHeldStep := by
  unfold State.resumeHeldStep
  split
  · exact .refl s
  · split
    · exact .refl s
    · exact s.beginAttempt_only _
    · exact s.beginReadBack_only _

theorem State.grantSet_only (owner : Owner) (bufs : List BufId) (s : State) : WorkOnly s (s.grantSet owner bufs) := by
  unfold State.grantSet
  split
  · exact ((s.updLane_only _ _).trans (State.requestLaneLock_only _ _)).work
  · have h : WorkOnly s (s.updSes fun e => { e with qualSet := bufs }) := ⟨_, _, _, _, _, _, _, _, _, _, rfl⟩
    simp only
    split
    · exact h
    · exact h.trans (State.beginAttempt_only _ _)

theorem State.grantBuffers_only (r : BufRequest) (s : State) : WorkOnly s (s.grantBuffers r) :=
  (s.updSbp_only _).trans (State.grantSet_only _ _ _)

theorem State.requestBuffers_only (r : BufRequest) (s : State) : WorkOnly s (s.requestBuffers r) := by
  unfold State.requestBuffers
  split
  · exact s.grantBuffers_only r
  · exact s.updSbp_only _

theorem State.scanBuffersFrom_only (l : List BufRequest) (s : State) : WorkOnly s (State.scanBuffersFrom l s) := by
  induction l generalizing s with
  | nil => exact .refl s
  | cons r rest ih =>
    simp only [State.scanBuffersFrom]
    split
    · exact ((s.updSbp_only _).trans (State.grantBuffers_only _ _)).trans (ih _)
    · exact .refl s

/-- A scan of SBP's wait list changes SBP, the owners it grants, and what they then lock and submit. -/
theorem State.scanBuffers_only (s : State) : WorkOnly s s.scanBuffers := State.scanBuffersFrom_only _ s

theorem State.returnSet_only (bufs : List BufId) (s : State) : WorkOnly s (s.returnSet bufs) :=
  ⟨_, _, _, _, _, _, _, _, _, _, rfl⟩

theorem State.releaseHold_only (s : State) : WorkOnly s s.releaseHold := ⟨_, _, _, _, _, _, _, _, _, _, rfl⟩

/-! ## Batches: also RGT, LRL, the holding order, the solve contexts, MGP's events and the session state -/

/-- The events and the line may differ, the queues and the enables not. -/
def EventsOnly (m m' : Mgp) : Prop := ∃ st ln, m' = { m with status := st, line := ln }

/-- Whatever a lane's work, a settlement or a fault can change: not the geometry, the settings, the queues of MGP, the present
time, the free values drawn, nor the commands waiting. -/
def RebuildOnly (s t : State) : Prop :=
  t.geo = s.geo ∧ t.now = s.now ∧ t.freeCount = s.freeCount ∧ t.pending = s.pending ∧ EventsOnly s.mgp t.mgp ∧
    t.ses.laneCount = s.ses.laneCount ∧ t.rgt.heatThreshold = s.rgt.heatThreshold ∧ t.rcd.check = s.rcd.check ∧
    t.rtu.requests = s.rtu.requests

theorem EventsOnly.refl (m : Mgp) : EventsOnly m m := ⟨_, _, rfl⟩

theorem EventsOnly.trans {m m' m'' : Mgp} (h : EventsOnly m m') (h' : EventsOnly m' m'') : EventsOnly m m'' := by
  obtain ⟨a, b, rfl⟩ := h
  obtain ⟨c, d, rfl⟩ := h'
  exact ⟨c, d, rfl⟩

theorem Mgp.setEvent_only (e : Event) (m : Mgp) : EventsOnly m (m.setEvent e) := ⟨_, _, rfl⟩

theorem RebuildOnly.refl (s : State) : RebuildOnly s s := ⟨rfl, rfl, rfl, rfl, .refl _, rfl, rfl, rfl, rfl⟩

theorem RebuildOnly.trans {s t u : State} (h : RebuildOnly s t) (h' : RebuildOnly t u) : RebuildOnly s u := by
  obtain ⟨a₁, a₂, a₃, a₄, a₅, a₆, a₇, a₈, a₉⟩ := h
  obtain ⟨b₁, b₂, b₃, b₄, b₅, b₆, b₇, b₈, b₉⟩ := h'
  exact ⟨b₁.trans a₁, b₂.trans a₂, b₃.trans a₃, b₄.trans a₄, a₅.trans b₅, b₆.trans a₆, b₇.trans a₇, b₈.trans a₈, b₉.trans a₉⟩

theorem WorkOnly.rebuild {s t : State} (h : WorkOnly s t) : RebuildOnly s t := by
  obtain ⟨m, o, l, k, a, r, b, e, q, c, rfl⟩ := h
  exact .refl s

theorem LocksOnly.rebuild {s t : State} (h : LocksOnly s t) : RebuildOnly s t := h.work.rebuild

theorem MruOnly.rebuild {s t : State} (h : MruOnly s t) : RebuildOnly s t := h.work.rebuild

theorem RebuildOnly.foldl {α : Type} {f : State → α → State} (h : ∀ s a, RebuildOnly s (f s a)) (l : List α) (s : State) :
    RebuildOnly s (l.foldl f s) := by
  induction l generalizing s with
  | nil => exact .refl s
  | cons a l ih => exact (h s a).trans (ih _)

theorem State.setEvent_rebuild (e : Event) (s : State) : RebuildOnly s (s.setEvent e) :=
  ⟨rfl, rfl, rfl, rfl, Mgp.setEvent_only e _, rfl, rfl, rfl, rfl⟩

theorem State.changeState_rebuild (st : SessionState) (s : State) : RebuildOnly s (s.changeState st) :=
  ⟨rfl, rfl, rfl, rfl, Mgp.setEvent_only _ _, rfl, rfl, rfl, rfl⟩

theorem State.updRegion_rebuild (r : Nat) (f : Region → Region) (s : State) : RebuildOnly s (s.updRegion r f) :=
  ⟨rfl, rfl, rfl, rfl, .refl _, rfl, rfl, rfl, rfl⟩

theorem State.updLrl_rebuild (f : Lrl → Lrl) (s : State) : RebuildOnly s (s.updLrl f) :=
  ⟨rfl, rfl, rfl, rfl, .refl _, rfl, rfl, rfl, rfl⟩

/-! ### Assignment -/

theorem Rgt.takeBatch_heat {rs b region : Nat} {g : Rgt} {x : Batch × Rgt} (h : g.takeBatch rs b region = some x) :
    x.2.heatThreshold = g.heatThreshold := by
  unfold Rgt.takeBatch at h
  split at h
  · cases h
  · cases h
    rfl

theorem Rgt.nextBatch_heat {rs b : Nat} {g : Rgt} {x : Batch × Rgt} (h : g.nextBatch rs b = some x) :
    x.2.heatThreshold = g.heatThreshold := by
  unfold Rgt.nextBatch Rgt.chooseRegion at h
  split at h
  · exact Rgt.takeBatch_heat h
  · split at h
    · cases h
    · exact Rgt.takeBatch_heat (g := g.activate _) h

theorem State.assign_rebuild (n : Fin 4) (b : Batch) (s : State) : RebuildOnly s (s.assign n b) :=
  ((s.updLane_only n _).work.trans (State.requestBuffers_only _ _)).rebuild

theorem State.serveLane_rebuild {n : Fin 4} {s t : State} (h : s.serveLane n = some t) : RebuildOnly s t := by
  unfold State.serveLane at h
  obtain ⟨x, hx, rfl⟩ := Option.map_eq_some_iff.1 h
  refine RebuildOnly.trans ?_ (State.assign_rebuild n x.1 _)
  exact ⟨rfl, rfl, rfl, rfl, .refl _, rfl, Rgt.nextBatch_heat hx, rfl, rfl⟩

theorem State.passOver_rebuild (l : List (Fin 4)) (s : State) : RebuildOnly s (State.passOver l s) := by
  induction l generalizing s with
  | nil => exact .refl s
  | cons n rest ih =>
    simp only [State.passOver]
    split
    · split
      · exact .refl s
      · rename_i h
        exact (State.serveLane_rebuild h).trans (ih _)
    · exact ih _

theorem State.stepPass_rebuild (s : State) : RebuildOnly s s.stepPass := by
  unfold State.stepPass
  split
  · cases h : s.serveLane 0 with
    | none => exact .refl s
    | some t => exact State.serveLane_rebuild h
  · exact .refl s

/-! ### Records and the end of a batch -/

theorem State.offer_rebuild (r : Record) (s : State) : RebuildOnly s (s.offer r).1 := by
  unfold State.offer
  split
  · exact (((s.updLrl_rebuild _).trans (State.updRegion_rebuild _ _ _)).trans (State.setEvent_rebuild _ _))
  · exact s.setEvent_rebuild _

theorem State.retire_rebuild (stripe : Nat) (s : State) : RebuildOnly s (s.retire stripe).1 := by
  unfold State.retire
  split
  · exact (s.updLrl_rebuild _).trans (State.updRegion_rebuild _ _ _)
  · exact .refl s

theorem State.retireAll_rebuild (l : List Nat) (s : State) : RebuildOnly s (State.retireAll l s).1 := by
  induction l generalizing s with
  | nil => exact .refl s
  | cons stripe rest ih => exact (s.retire_rebuild stripe).trans (ih _)

theorem State.offerAll_rebuild (n : Fin 4) (l : List Nat) (s : State) : RebuildOnly s (State.offerAll n l s).1 := by
  induction l generalizing s with
  | nil => exact .refl s
  | cons stripe rest ih =>
    have h := s.offer_rebuild (s.lanes[n].recordOf stripe)
    simp only [State.offerAll]
    split
    · exact (h.trans (State.updLane_only n _ _).rebuild).trans (ih _)
    · exact h

theorem State.complete_rebuild (s : State) : RebuildOnly s s.complete :=
  (s.changeState_rebuild _).trans (State.setEvent_rebuild _ _)

theorem State.completeOr_rebuild (st : SessionState) (s : State) : RebuildOnly s (s.completeOr st) := by
  unfold State.completeOr
  split
  · exact s.complete_rebuild
  · exact s.changeState_rebuild _

theorem State.drainingExit_rebuild (s : State) : RebuildOnly s s.drainingExit := by
  unfold State.drainingExit
  split
  · exact s.completeOr_rebuild _
  · exact .refl s

theorem State.steppingExit_rebuild (s : State) : RebuildOnly s s.steppingExit := by
  unfold State.steppingExit
  split
  · exact (s.setEvent_rebuild _).trans (State.completeOr_rebuild _ _)
  · exact .refl s

theorem State.completionTest_rebuild (s : State) : RebuildOnly s s.completionTest := by
  unfold State.completionTest
  split
  · split
    · exact s.complete_rebuild
    · exact .refl s
  · exact s.drainingExit_rebuild
  · exact s.steppingExit_rebuild
  · exact .refl s

theorem State.suspendedExit_rebuild (s : State) : RebuildOnly s s.suspendedExit := by
  unfold State.suspendedExit
  split
  · split
    · exact s.complete_rebuild
    · exact s.changeState_rebuild _
  · exact .refl s

theorem State.testRegion_rebuild (region : Nat) (s : State) : RebuildOnly s (s.testRegion region) := by
  unfold State.testRegion
  split
  · exact .refl s
  · split
    · exact ⟨rfl, rfl, rfl, rfl, .refl _, rfl, rfl, rfl, rfl⟩
    · exact .refl s

theorem State.reportBatch_rebuild (b : Batch) (s : State) : RebuildOnly s (s.reportBatch b) :=
  RebuildOnly.trans ⟨rfl, rfl, rfl, rfl, .refl _, rfl, rfl, rfl, rfl⟩ (State.testRegion_rebuild _ _)

theorem State.passAfterBatch_rebuild (n : Fin 4) (returned : Bool) (s : State) :
    RebuildOnly s (s.passAfterBatch n returned) := by
  unfold State.passAfterBatch
  split
  · split
    · exact State.passOver_rebuild _ s
    · exact State.passOver_rebuild _ s
  · exact .refl s

theorem State.endBatch_rebuild (n : Fin 4) (s : State) : RebuildOnly s (s.endBatch n) := by
  unfold State.endBatch
  split
  · exact .refl s
  · rename_i b _
    simp only
    generalize (s.ses.state == SessionState.suspended) = suspended
    have h₁ : RebuildOnly s ((s.giveUpBatch n).scanLocks) :=
      (((s.updLane_only n _).trans (State.dropHeld_only _ _)).trans (State.scanLocks_only _)).rebuild
    generalize (s.giveUpBatch n).scanLocks = u at h₁ ⊢
    have h₂ : RebuildOnly u ((u.giveUpBuffers n).scanBuffers) :=
      (((u.returnSet_only _).trans (State.updLane_only n _ _).work).trans (State.scanBuffers_only _)).rebuild
    generalize (u.giveUpBuffers n).scanBuffers = v at h₂ ⊢
    have h₃ : RebuildOnly v (((v.clearLane n).reportBatch b).completionTest) :=
      (((v.updLane_only n _).rebuild).trans (State.reportBatch_rebuild _ _)).trans (State.completionTest_rebuild _)
    exact ((h₁.trans h₂).trans h₃).trans ((State.suspendedExit_rebuild _).trans (State.passAfterBatch_rebuild _ _ _))

theorem State.holdingOrder_rebuild (l : List (Fin 4)) (s : State) : RebuildOnly s { s with holdingOrder := l } :=
  ⟨rfl, rfl, rfl, rfl, .refl _, rfl, rfl, rfl, rfl⟩

theorem State.enterHolding_rebuild (n : Fin 4) (s : State) : RebuildOnly s (s.enterHolding n) := by
  unfold State.enterHolding
  simp only
  have h := (s.updLane_only n fun l => { l with stage := .holding }).rebuild
  split
  · exact (h.trans (State.holdingOrder_rebuild _ _)).trans (State.changeState_rebuild _ _)
  · exact h.trans (State.holdingOrder_rebuild _ _)

theorem State.enterSettling_rebuild (n : Fin 4) (s : State) : RebuildOnly s (s.enterSettling n) := by
  unfold State.enterSettling
  have h := (s.updLane_only n fun l => { l with stage := .settling, offers := s.lanes[n].firstOffers }).rebuild.trans
    (State.offerAll_rebuild n s.lanes[n].firstOffers _)
  simp only
  split
  · rename_i heq
    rw [heq] at h
    exact h.trans (State.endBatch_rebuild _ _)
  · rename_i heq
    rw [heq] at h
    exact h.trans (State.enterHolding_rebuild _ _)

theorem State.serveHolders_rebuild (l : List (Fin 4)) (s : State) : RebuildOnly s (State.serveHolders l s) := by
  induction l generalizing s with
  | nil => exact .refl s
  | cons n rest ih =>
    have h := State.offerAll_rebuild n s.lanes[n].offers s
    simp only [State.serveHolders]
    split
    · rename_i heq
      rw [heq] at h
      exact ((h.trans (State.holdingOrder_rebuild _ _)).trans (State.endBatch_rebuild _ _)).trans (ih _)
    · rename_i heq
      rw [heq] at h
      exact h

theorem State.afterRetirement_rebuild (s : State) : RebuildOnly s s.afterRetirement := State.serveHolders_rebuild _ s

/-! ### The end of a session and faults -/

theorem State.abandonLane_rebuild (s : State) (n : Fin 4) : RebuildOnly s (s.abandonLane n) := by
  unfold State.abandonLane
  split
  · exact ((s.returnSet_only _).trans (State.updLane_only n _ _).work).rebuild
  · exact .refl s

theorem State.abandonQualification_rebuild (s : State) : RebuildOnly s s.abandonQualification :=
  ⟨rfl, rfl, rfl, rfl, .refl _, rfl, rfl, rfl, rfl⟩

theorem State.abandonAll_rebuild (s : State) : RebuildOnly s s.abandonAll := by
  have h₁ : RebuildOnly s (s.clearAll.updSbp fun p => { p with waiting := [] }) :=
    (s.clearAll_only.work.trans (State.updSbp_only _ _)).rebuild
  unfold State.abandonAll
  simp only
  generalize (s.clearAll.updSbp fun p => { p with waiting := [] }) = u at h₁ ⊢
  have h₂ := RebuildOnly.foldl State.abandonLane_rebuild allLanes u
  generalize allLanes.foldl State.abandonLane u = v at h₂ ⊢
  have h₃ := v.abandonQualification_rebuild
  generalize v.abandonQualification = w at h₃ ⊢
  exact ((h₁.trans h₂).trans h₃).trans ⟨rfl, rfl, rfl, rfl, .refl _, rfl, rfl, rfl, rfl⟩

theorem State.endSession_rebuild (new : SessionState) (cause : Cause) (s : State) :
    RebuildOnly s (s.endSession new cause) := by
  have h := s.abandonAll_rebuild.trans (State.emptyLocks_only .spareVoid _).rebuild
  unfold State.endSession
  generalize s.abandonAll.emptyLocks .spareVoid = u at h ⊢
  have h' : RebuildOnly u (u.updSes fun e => { e with cause := cause }) := ⟨rfl, rfl, rfl, rfl, .refl _, rfl, rfl, rfl, rfl⟩
  exact (h.trans h').trans (State.changeState_rebuild _ _)

theorem State.enterSolving_rebuild (n : Fin 4) (s : State) : RebuildOnly s (s.enterSolving n) :=
  ⟨rfl, rfl, rfl, rfl, .refl _, rfl, rfl, rfl, rfl⟩

theorem State.faultLane_rebuild (x : Nat) (s : State) (n : Fin 4) : RebuildOnly s (s.faultLane x n) := by
  unfold State.faultLane
  split
  · simp only
    split
    · exact (State.updLane_only n _ _).rebuild.trans (State.enterSolving_rebuild n _)
    · exact (State.updLane_only n _ _).rebuild
  · exact (State.updLane_only n _ _).rebuild
  · exact .refl s

theorem State.markFaulted_rebuild (x : Nat) (s : State) : RebuildOnly s (s.markFaulted x) :=
  RebuildOnly.trans ⟨rfl, rfl, rfl, rfl, .refl _, rfl, rfl, rfl, rfl⟩ (State.setEvent_rebuild _ _)

theorem State.firstFault_rebuild (x : Nat) (s : State) : RebuildOnly s (s.firstFault x) := by
  have h := (s.markFaulted_rebuild x).trans
    (u := (s.markFaulted x).updSes fun e => { e with faultedSurvivor := some x })
    ⟨rfl, rfl, rfl, rfl, .refl _, rfl, rfl, rfl, rfl⟩
  exact (h.trans (State.clearPosition_only x _).rebuild).trans (RebuildOnly.foldl (State.faultLane_rebuild x) allLanes _)

/-- A fault that SES takes changes nothing outside what RebuildOnly allows. -/
theorem State.takeFault_rebuild (x : Nat) (s : State) : RebuildOnly s (s.takeFault x) := by
  unfold State.takeFault
  split
  · exact .refl s
  · split
    · exact .refl s
    · exact .refl s
    · exact s.endSession_rebuild _ _
    · split
      · exact s.firstFault_rebuild x
      · exact (s.markFaulted_rebuild x).trans (State.endSession_rebuild _ _ _)

/-! ### RCD, settlements, completions, timeouts -/

theorem State.takeBlock_rebuild (n : Fin 4) (s : State) : RebuildOnly s (s.takeBlock n) := by
  unfold State.takeBlock
  split
  · simp only
    split
    · exact (State.writeMem_only _ _ _).rebuild.trans ⟨rfl, rfl, rfl, rfl, .refl _, rfl, rfl, rfl, rfl⟩
    · exact ((State.writeMem_only _ _ _).rebuild.trans (t := State.writeMem _ _ s)
        (u := (State.writeMem _ _ s).setContext n none) ⟨rfl, rfl, rfl, rfl, .refl _, rfl, rfl, rfl, rfl⟩).trans
        (State.enterWriting_only n _ _).rebuild
  · exact .refl s

theorem State.settleRead_rebuild (n : Fin 4) (r : Request) (o : Settlement) (s : State) :
    RebuildOnly s (s.settleRead n r o) := by
  unfold State.settleRead
  split
  · simp only
    split
    · exact (State.updLane_only n _ _).rebuild.trans (State.enterSolving_rebuild n _)
    · exact (State.updLane_only n _ _).rebuild
  · exact .refl s

theorem State.settleWrite_rebuild (n : Fin 4) (s : State) : RebuildOnly s (s.settleWrite n) := by
  unfold State.settleWrite
  split
  · simp only
    split
    · exact (State.updLane_only n _ _).rebuild.trans (State.enterSettling_rebuild n _)
    · exact (State.updLane_only n _ _).rebuild
  · exact .refl s

theorem State.finishQualification_rebuild (s : State) : RebuildOnly s s.finishQualification := by
  have h : WorkOnly s ((s.returnSet s.ses.qualSet).updSes fun e => { e with qualSet := [], qualProgress := none }) :=
    (s.returnSet_only _).trans ⟨_, _, _, _, _, _, _, _, _, _, rfl⟩
  exact ((h.trans (State.scanBuffers_only _)).rebuild.trans (State.changeState_rebuild _ _)).trans
    (State.setEvent_rebuild _ _)

theorem State.attemptOutcome_rebuild (q : QualProgress) (passed : Bool) (s : State) :
    RebuildOnly s (s.attemptOutcome q passed) := by
  unfold State.attemptOutcome
  split
  · split
    · exact (s.beginAttempt_only _).rebuild
    · exact s.finishQualification_rebuild
  · split
    · exact (s.beginAttempt_only _).rebuild
    · exact s.endSession_rebuild _ _

theorem State.settleQualification_rebuild (o : Settlement) (s : State) : RebuildOnly s (s.settleQualification o) := by
  unfold State.settleQualification
  split
  · exact .refl s
  · split
    · exact .refl s
    · exact (s.beginReadBack_only _).rebuild
    · exact s.attemptOutcome_rebuild _ _

/-- A settlement reported to an owner changes nothing outside what RebuildOnly allows. -/
theorem State.settle_rebuild (r : Request) (o : Settlement) (s : State) : RebuildOnly s (s.settle r o) := by
  unfold State.settle
  split
  · exact .refl s
  · exact s.settleQualification_rebuild o
  · split
    · exact s.settleWrite_rebuild _
    · exact s.settleRead_rebuild _ _ _

theorem State.endWith_rebuild {report : State → State} (h : ∀ s, RebuildOnly s (report s)) (x : Nat) (s : State) :
    RebuildOnly s (s.endWith x report) :=
  ((h s).trans (State.serveTagWait_only _).rebuild).trans (State.decideAfterFree_only x _).rebuild

theorem State.completeRequest_rebuild (r : Request) (status : CompletionStatus) (mask : Mask) (s : State) :
    RebuildOnly s (s.completeRequest r status mask) := by
  have hq : ∀ (r' : Request) (u : State), RebuildOnly u ((u.requeueHead r').issueDecision r.position) := fun r' u =>
    ((u.requeueHead_only r').trans (State.issueDecision_only _ _)).rebuild
  have he : ∀ (u : State), RebuildOnly u (u.endWith r.position (State.endSession .failed .spareUnwritable)) := fun u =>
    State.endWith_rebuild (fun v => v.endSession_rebuild _ _) _ u
  unfold State.completeRequest
  split
  · exact (s.setTimeouts_only _ _).rebuild.trans (State.endWith_rebuild (fun u => u.settle_rebuild r _) _ _)
  · unfold State.completeMedium
    simp only
    refine (s.setTimeouts_only r.position 0).rebuild.trans ?_
    split
    · exact State.endWith_rebuild (fun u => u.settle_rebuild r _) _ _
    · split
      · exact he _
      · exact hq _ _
  · unfold State.completeDefer
    split
    · exact hq _ _
    · split
      · exact he _
      · exact State.endWith_rebuild (fun u => u.settle_rebuild r _) _ _
  · exact (s.serveTagWait_only.rebuild.trans (State.takeFault_rebuild _ _)).trans (State.decideAfterFree_only _ _).rebuild

theorem State.removeQuarantined_only (tag : Nat) (s : State) : MruOnly s (s.removeQuarantined tag) := ⟨_, _, rfl⟩

theorem State.reportQuarantineEnd_only (s : State) : WorkOnly s s.reportQuarantineEnd :=
  (s.releaseHold_only.trans (State.scanBuffers_only _)).trans (State.resumeHeldStep_only _)

theorem State.endQuarantine_rebuild (tag : Nat) (s : State) : RebuildOnly s (s.endQuarantine tag) :=
  (((s.removeQuarantined_only tag).work.trans (State.reportQuarantineEnd_only _)).trans
    ((State.serveTagWait_only _).trans (State.decideAll_only _)).work).rebuild

theorem State.landData_only (r : Request) (data : List Byte) (s : State) : WorkOnly s (s.landData r data) := by
  unfold State.landData
  split
  · exact .refl s
  · exact s.writeMem_only _ _

/-- A completion changes nothing outside what RebuildOnly allows. -/
theorem State.takeCompletion_rebuild (tag : Nat) (status : Byte) (mask : Mask) (data : List Byte) (s : State) :
    RebuildOnly s (s.takeCompletion tag status mask data) := by
  unfold State.takeCompletion
  split
  · exact .refl s
  · split
    · exact ((s.landData_only _ _).trans (State.leaveOutstanding_only _ _ _).work).rebuild.trans
        (State.completeRequest_rebuild _ _ _ _)
    · split
      · exact (s.landData_only _ _).rebuild.trans (State.endQuarantine_rebuild _ _)
      · exact .refl s

theorem State.serveTimedOut_rebuild (r : Request) (s : State) : RebuildOnly s (s.serveTimedOut r) := by
  unfold State.serveTimedOut
  split
  · exact (s.requeueHead_only _).rebuild
  · exact s.settle_rebuild r _

/-- A timeout changes nothing outside what RebuildOnly allows. -/
theorem State.timeOut_rebuild (r : Request) (tag : Nat) (s : State) : RebuildOnly s (s.timeOut r tag) := by
  unfold State.timeOut
  simp only
  refine RebuildOnly.trans ?_ (State.issueDecision_only _ _).rebuild
  have h := ((s.leaveOutstanding_only r.position tag).trans (State.updMru_only (fun m =>
    { m with quarantined := m.quarantined ++ [r.quarantine (s.now + m.timeout)] }) _)).rebuild
  have h' := (h.trans (State.setEvent_rebuild .memberTimeout _)).trans
    (State.setTimeouts_only r.position (min 3 ((s.mru.pos r.position).timeouts + 1)) _).rebuild
  split
  · exact h'.trans (State.serveTimedOut_rebuild r _)
  · exact h'.trans (State.takeFault_rebuild r.position _)

end Sys2Proof.Machine
end

