-- ==== Sys2Proof/Laws/Geometry.lean ====
section
/-! SUPPORT. Geometry: the range check of Table 1-1 says what it should, and the rows a load leaves. -/

namespace Sys2Proof.Machine

/-- Region sizes are the powers of two from 16 to 65,536. -/
theorem regionSizes_contains (n : Nat) : regionSizes.contains n = true ↔ ∃ i < 13, n = 2 ^ (i + 4) := by
  simp only [regionSizes, List.contains_iff_mem, List.mem_map, List.mem_range]
  exact ⟨fun ⟨i, h, e⟩ => ⟨i, h, e.symm⟩, fun ⟨i, h, e⟩ => ⟨i, h, e.symm⟩⟩

/-- The check of Table 1-1 (R2). -/
theorem Profile.inRange_iff (p : Profile) : p.inRange = true ↔ p.Fits := by
  simp only [Profile.inRange, Profile.Fits, Bool.and_eq_true, decide_eq_true_eq, regionSizes_contains]
  tauto

/-- A table of 16 rows of 16 entries keeps its shape when a row of 16 entries replaces another. -/
theorem Geo.Shaped.set {g : Geo} (h : g.Shaped) (x : Nat) {row : List (Option Nat)} (hr : row.length = 16) :
    ({ g with segments := g.segments.set x row } : Geo).Shaped := by
  refine ⟨by simp [h.1], fun r hm => ?_⟩
  rcases List.mem_or_eq_of_mem_set hm with h' | rfl
  · exact h.2 r h'
  · exact hr

/-- A load that ends at index 16 or below leaves 16 entries (R10). -/
theorem length_loadRow {row values : List (Option Nat)} {f : Nat} (hr : row.length = 16) (hf : f + values.length ≤ 16) :
    (loadRow row f values).length = 16 := by
  simp only [loadRow, List.length_append, List.length_take, List.length_drop, hr]
  omega

end Sys2Proof.Machine
end

