-- ==== Sys2Proof/Laws/Locks.lean ====
section
/-! SUPPORT. SLK: the tests of the lock table decide the conditions of R87, R89 and R90. -/

namespace Sys2Proof.Machine

/-- Two entries overlap exactly when they share a stripe (R87). -/
theorem LockEntry.overlaps_iff (a b : LockEntry) : a.overlaps b = true ↔ a.Meets b := by
  simp only [LockEntry.overlaps, LockEntry.Meets, Bool.and_eq_true, decide_eq_true_eq]
  constructor
  · rintro ⟨⟨⟨h1, h2⟩, h3⟩, h4⟩
    exact ⟨max a.first b.first, by omega, by omega⟩
  · rintro ⟨x, h1, h2⟩
    omega

/-- Two entries conflict exactly when they share a stripe and are not both claims (R89). -/
theorem LockEntry.conflicts_iff (a b : LockEntry) : a.conflicts b = true ↔ a.Clashes b := by
  simp only [LockEntry.conflicts, LockEntry.Clashes, Bool.and_eq_true, LockEntry.overlaps_iff, Bool.not_eq_true',
    Bool.and_eq_false_iff, not_and, Bool.not_eq_true]
  constructor
  · rintro ⟨h, h' | h'⟩ <;> simp [h, h']
  · rintro ⟨h, h'⟩
    refine ⟨h, ?_⟩
    cases ha : a.owner.isClaim
    · exact .inl rfl
    · exact .inr (h' ha)

/-- The grant rule is the three conditions of R90. -/
theorem grantable_iff (held older : List LockEntry) (e : LockEntry) :
    grantable held older e = true ↔ MayBeGranted held older e := by
  simp only [grantable, MayBeGranted, Bool.and_eq_true, Bool.not_eq_true', List.any_eq_false, classHeld,
    heldLimit, and_assoc]
  refine and_congr ?_ (and_congr ?_ decide_eq_true_iff)
  · exact forall₂_congr fun h _ => not_congr (LockEntry.conflicts_iff e h)
  · exact forall₂_congr fun w _ => not_congr (LockEntry.overlaps_iff e w)

end Sys2Proof.Machine
end

