-- ==== Sys2Proof/Laws/Memory.lean ====
section
/-! SUPPORT. The buffer memory: what a write changes, that every operation keeps the canonical form, and that a block read
reads each byte. -/

namespace Sys2Proof.Machine

/-! ## Reading -/

theorem Memory.read_append_left {m₁ m₂ : Memory} {x : Nat} (h : ∀ c ∈ m₂, c.1 ≠ x) :
    Memory.read (m₁ ++ m₂) x = Memory.read m₁ x := by
  induction m₁ with
  | nil =>
    induction m₂ with
    | nil => rfl
    | cons c rest ih =>
      obtain ⟨k, v⟩ := c
      have hk : k ≠ x := h (k, v) (by simp)
      simpa [Memory.read, hk] using ih fun c hc => h c (by simp [hc])
  | cons c rest ih =>
    obtain ⟨k, v⟩ := c
    simp only [List.cons_append, Memory.read, ih]

theorem Memory.read_append_right {m₁ m₂ : Memory} {x : Nat} (h : ∀ c ∈ m₁, c.1 ≠ x) :
    Memory.read (m₁ ++ m₂) x = Memory.read m₂ x := by
  induction m₁ with
  | nil => rfl
  | cons c rest ih =>
    obtain ⟨k, v⟩ := c
    have hk : k ≠ x := h (k, v) (by simp)
    simp only [List.cons_append, Memory.read, hk, if_false]
    exact ih fun c hc => h c (by simp [hc])

theorem Memory.read_filter {m : Memory} {x : Nat} (p : Host.Cell → Bool) (h : ∀ v, p (x, v) = true) :
    Memory.read (m.filter p) x = Memory.read m x := by
  induction m with
  | nil => rfl
  | cons c rest ih =>
    obtain ⟨k, v⟩ := c
    by_cases hp : p (k, v) = true
    · simp only [List.filter_cons, hp, if_true, Memory.read, ih]
    · have hk : k ≠ x := by
        rintro rfl
        exact hp (h v)
      simp only [List.filter_cons, hp, Memory.read, hk, if_false]
      simp [ih]

theorem Memory.read_of_absent {m : Memory} {x : Nat} (h : ∀ c ∈ m, c.1 ≠ x) : Memory.read m x = Memory.blank := by
  simpa [Memory.read] using Memory.read_append_right (m₂ := []) h

/-- Every listed address of written bytes lies in their range. -/
theorem Memory.entries_range {a : Nat} {bytes : List Byte} {c : Host.Cell} (h : c ∈ Memory.entries a bytes) :
    a ≤ c.1 ∧ c.1 < a + bytes.length ∧ c.2 ≠ Memory.blank := by
  induction bytes generalizing a with
  | nil => simp [Memory.entries] at h
  | cons b rest ih =>
    simp only [Memory.entries] at h
    split at h
    · obtain ⟨h₁, h₂, h₃⟩ := ih h
      exact ⟨by omega, by simp only [List.length_cons]; omega, h₃⟩
    · rcases List.mem_cons.1 h with rfl | h
      · exact ⟨Nat.le_refl _, by simp, by assumption⟩
      · obtain ⟨h₁, h₂, h₃⟩ := ih h
        exact ⟨by omega, by simp only [List.length_cons]; omega, h₃⟩

/-- Written bytes read back. -/
theorem Memory.read_entries {a x : Nat} {bytes : List Byte} (h₁ : a ≤ x) (h₂ : x < a + bytes.length) :
    Memory.read (Memory.entries a bytes) x = bytes.getD (x - a) Memory.blank := by
  induction bytes generalizing a with
  | nil => simp at h₂; omega
  | cons b rest ih =>
    simp only [List.length_cons] at h₂
    by_cases hx : x = a
    · subst hx
      by_cases hb : b = Memory.blank
      · simp only [Memory.entries, hb, if_true, Nat.sub_self, List.getD_cons_zero]
        refine Memory.read_of_absent fun c hc => ?_
        have := (Memory.entries_range hc).1
        omega
      · simp [Memory.entries, hb, Memory.read]
    · obtain ⟨k, hk⟩ : ∃ k, x - a = k + 1 := ⟨x - a - 1, by omega⟩
      have hrec := ih (a := a + 1) (by omega) (by omega)
      have hk' : x - (a + 1) = k := by omega
      have hax : a ≠ x := fun e => hx e.symm
      by_cases hb : b = Memory.blank
      · simp only [Memory.entries, hb, if_true, hrec, hk, hk', List.getD_cons_succ]
      · simp only [Memory.entries, hb, if_false, Memory.read, hax, hrec, hk, hk', List.getD_cons_succ]

/-- What a write changes: the bytes of its range become the bytes written, and every other byte reads as before. -/
theorem Memory.read_write (m : Memory) (a x : Nat) (bytes : List Byte) :
    (m.write a bytes).read x =
      if a ≤ x ∧ x < a + bytes.length then bytes.getD (x - a) Memory.blank else m.read x := by
  unfold Memory.write
  split
  · rename_i h
    rw [Memory.read_append_left, Memory.read_append_right, Memory.read_entries h.1 h.2]
    · intro c hc
      have := (List.mem_filter.1 hc).2
      simp only [decide_eq_true_eq] at this
      omega
    · intro c hc
      have := (List.mem_filter.1 hc).2
      simp only [decide_eq_true_eq] at this
      omega
  · rename_i h
    by_cases hx : x < a
    · rw [Memory.read_append_left, Memory.read_append_left, Memory.read_filter]
      · intro v; simp [hx]
      · intro c hc
        have := (Memory.entries_range hc).1
        omega
      · intro c hc
        have := (List.mem_filter.1 hc).2
        simp only [decide_eq_true_eq] at this
        omega
    · rw [Memory.read_append_right, Memory.read_filter]
      · intro v; simp only [decide_eq_true_eq]; omega
      · intro c hc
        rcases List.mem_append.1 hc with hc | hc
        · have := (List.mem_filter.1 hc).2
          simp only [decide_eq_true_eq] at this
          omega
        · have := (Memory.entries_range hc).2.1
          omega

/-- A byte outside a write's range reads as before. -/
theorem Memory.read_write_outside {m : Memory} {a x : Nat} {bytes : List Byte} (h : x < a ∨ a + bytes.length ≤ x) :
    (m.write a bytes).read x = m.read x := by
  rw [Memory.read_write, if_neg]
  omega

/-! ## The canonical form -/

theorem Memory.rising_iff (m : Memory) : Memory.rising m = true ↔ m.Pairwise fun c d => c.1 < d.1 := by
  induction m with
  | nil => simp [Memory.rising]
  | cons c rest ih =>
    cases rest with
    | nil => simp [Memory.rising]
    | cons d rest =>
      obtain ⟨k, v⟩ := c
      obtain ⟨k', v'⟩ := d
      rw [Memory.rising, Bool.and_eq_true, ih, decide_eq_true_eq]
      constructor
      · rintro ⟨hk, h⟩
        refine List.pairwise_cons.2 ⟨fun c hc => ?_, h⟩
        rcases List.mem_cons.1 hc with rfl | hc
        · exact hk
        · exact Nat.lt_trans hk ((List.pairwise_cons.1 h).1 c hc)
      · intro h
        obtain ⟨h₁, h₂⟩ := List.pairwise_cons.1 h
        exact ⟨h₁ (k', v') (by simp), h₂⟩

theorem Memory.wf_iff (m : Memory) :
    m.wf = true ↔ (m.Pairwise fun c d => c.1 < d.1) ∧ ∀ c ∈ m, c.2 ≠ Memory.blank ∧ c.1 < memoryBytes := by
  simp [Memory.wf, Memory.rising_iff]

theorem Memory.entries_pairwise (a : Nat) (bytes : List Byte) :
    (Memory.entries a bytes).Pairwise fun c d => c.1 < d.1 := by
  induction bytes generalizing a with
  | nil => simp [Memory.entries]
  | cons b rest ih =>
    simp only [Memory.entries]
    split
    · exact ih _
    · refine List.pairwise_cons.2 ⟨fun c hc => ?_, ih _⟩
      have := (Memory.entries_range hc).1
      simp only
      omega

/-- A write inside the memory keeps the canonical form. -/
theorem Memory.wf_write {m : Memory} {a : Nat} {bytes : List Byte} (h : m.wf = true) (hb : a + bytes.length ≤ memoryBytes) :
    (m.write a bytes).wf = true := by
  rw [Memory.wf_iff] at h ⊢
  obtain ⟨hp, hc⟩ := h
  unfold Memory.write
  refine ⟨?_, ?_⟩
  · rw [List.pairwise_append, List.pairwise_append]
    refine ⟨⟨hp.filter _, Memory.entries_pairwise a bytes, ?_⟩, hp.filter _, ?_⟩
    · intro c h₁ d h₂
      have h₁ := (List.mem_filter.1 h₁).2
      have h₂ := (Memory.entries_range h₂).1
      simp only [decide_eq_true_eq] at h₁
      omega
    · intro c h₁ d h₂
      have h₂ := (List.mem_filter.1 h₂).2
      simp only [decide_eq_true_eq] at h₂
      rcases List.mem_append.1 h₁ with h₁ | h₁
      · have h₁ := (List.mem_filter.1 h₁).2
        simp only [decide_eq_true_eq] at h₁
        omega
      · have := (Memory.entries_range h₁).2.1
        omega
  · intro c h₁
    rcases List.mem_append.1 h₁ with h₁ | h₁
    · rcases List.mem_append.1 h₁ with h₁ | h₁
      · exact hc c (List.mem_filter.1 h₁).1
      · have := Memory.entries_range h₁
        exact ⟨this.2.2, by omega⟩
    · exact hc c (List.mem_filter.1 h₁).1

/-! ## Reading a run of bytes -/

theorem Memory.length_bytesFrom (m : Memory) (a n : Nat) : (Memory.bytesFrom m a n).length = n := by
  induction n generalizing m a with
  | zero => simp [Memory.bytesFrom]
  | succ n ih =>
    cases m with
    | nil => simp [Memory.bytesFrom, ih]
    | cons c rest =>
      obtain ⟨k, v⟩ := c
      simp only [Memory.bytesFrom]
      split <;> simp [ih]

theorem Memory.length_bytesAt (m : Memory) (a n : Nat) : (m.bytesAt a n).length = n := Memory.length_bytesFrom _ _ _

theorem Memory.getD_bytesFrom {m : Memory} {a n i : Nat} (hp : m.Pairwise fun c d => c.1 < d.1) (ha : ∀ c ∈ m, a ≤ c.1)
    (h : i < n) : (Memory.bytesFrom m a n).getD i Memory.blank = m.read (a + i) := by
  induction n generalizing m a i with
  | zero => omega
  | succ n ih =>
    cases m with
    | nil =>
      cases i with
      | zero => simp [Memory.bytesFrom, Memory.read]
      | succ i =>
        simp only [Memory.bytesFrom, List.getD_cons_succ]
        rw [ih List.Pairwise.nil (by simp) (by omega)]
        simp [Memory.read]
    | cons c rest =>
      obtain ⟨k, v⟩ := c
      have hk : a ≤ k := ha (k, v) (by simp)
      obtain ⟨hlt, hrest⟩ := List.pairwise_cons.1 hp
      simp only [Memory.bytesFrom]
      split
      · rename_i hka
        subst hka
        cases i with
        | zero => simp [Memory.read]
        | succ i =>
          simp only [List.getD_cons_succ]
          rw [ih hrest (fun c hc => hlt c hc) (by omega)]
          have hne : k ≠ k + (i + 1) := by omega
          simp only [Memory.read, hne, if_false]
          congr 1
          omega
      · rename_i hka
        cases i with
        | zero =>
          simp only [List.getD_cons_zero, Nat.add_zero]
          rw [Memory.read_of_absent]
          intro c hc
          rcases List.mem_cons.1 hc with rfl | hc
          · exact hka
          · have := hlt c hc
            simp only at this
            omega
        | succ i =>
          simp only [List.getD_cons_succ]
          rw [ih hp (fun c hc => ?_) (by omega)]
          · congr 1
            omega
          · rcases List.mem_cons.1 hc with rfl | hc
            · simp only; omega
            · have := hlt c hc
              simp only at this
              omega

theorem Memory.read_dropWhile {m : Memory} {a x : Nat} (h : a ≤ x) :
    Memory.read (m.dropWhile fun c => c.1 < a) x = m.read x := by
  induction m with
  | nil => rfl
  | cons c rest ih =>
    obtain ⟨k, v⟩ := c
    by_cases hk : k < a
    · have hkx : k ≠ x := by omega
      simp [hk, Memory.read, hkx, ih]
    · simp [hk]

/-- Each byte of a run is the byte read at its address, when the addresses rise. -/
theorem Memory.getD_bytesAt {m : Memory} {a n i : Nat} (hp : Memory.rising m = true) (h : i < n) :
    (m.bytesAt a n).getD i Memory.blank = m.read (a + i) := by
  rw [Memory.rising_iff] at hp
  unfold Memory.bytesAt
  rw [Memory.getD_bytesFrom (hp.sublist (List.dropWhile_sublist _)) _ h, Memory.read_dropWhile (by omega)]
  intro c hc
  by_contra hlt
  have hd := hp
  generalize hm : (m.dropWhile fun c => decide (c.1 < a)) = d at hc
  cases d with
  | nil => simp at hc
  | cons e rest =>
    have he : ¬ e.1 < a := by
      have := List.head_dropWhile_not (p := fun c : Host.Cell => decide (c.1 < a)) (l := m) (by rw [hm]; simp)
      simpa [hm] using this
    have hs : (e :: rest).Pairwise fun c d : Host.Cell => c.1 < d.1 := hm ▸ hp.sublist (List.dropWhile_sublist _)
    rcases List.mem_cons.1 hc with rfl | hc
    · omega
    · have := (List.pairwise_cons.1 hs).1 c hc
      omega

end Sys2Proof.Machine
end

