-- ==== Sys2Proof/WellFormed.lean ====
section
/-! DEFINITION. When the operands of a command spell a message that a port can carry. The machine runs every command;
WellFormed says which ones a sender can send. -/

namespace Sys2Proof

/-- The parameter length of a command header is one byte (R205). -/
def paramsFit (params : List Byte) : Bool := params.length ≤ 255

/-- The bytes are a header of 4 and as many parameter bytes as its byte 3 gives (R205). -/
def commandFits (message : List Byte) : Bool := message.length == 4 + (message.getD 3 0).toNat

/-- The bytes are a header of 8, and for a RELEASE the list of 4-byte stripe numbers that byte 3 counts (R207). -/
def requestFits (message : List Byte) : Bool :=
  message.length == 8 + (if message.getD 0 0 = 3 then 4 * (message.getD 3 0).toNat else 0)

/-- The opcode is one of the 24 codes of Table 10-2. -/
def isCommandCode (opcode : Byte) : Bool := 1 ≤ opcode.toNat && opcode.toNat ≤ 24

/-- The kind is QUERY, CLAIM or RELEASE (R207). -/
def isRouteKind (kind : Byte) : Bool := 1 ≤ kind.toNat && kind.toNat ≤ 3

/-- A RELEASE lists as many stripes as byte 3 gives; no list follows any other kind (R207). -/
def listFits (r : RouteRequest) : Bool :=
  if r.kind = 3 then r.listed.length = r.overCount.toNat else r.listed = []

/-- The command's operands spell a message of its row. -/
def Instr.wf : Instr → Bool
  | .powerOnReset => true
  | .commandArrival message => commandFits message
  | .responseRead => true
  | .unknownCommand _ opcode params => !isCommandCode opcode && paramsFit params
  | .setGeometry _ _ _ _ _ _ => true
  | .setSegments _ _ _ elements => 3 + 8 * elements.length ≤ 255
  | .openSession _ _ _ _ _ _ _ _ _ => true
  | .start _ => true
  | .pause _ => true
  | .resume _ => true
  | .step _ => true
  | .abort _ => true
  | .closeSession _ => true
  | .promote _ _ => true
  | .demote _ _ => true
  | .memberDown _ _ => true
  | .setPace _ _ _ => true
  | .setTimeout _ _ => true
  | .setHeat _ _ => true
  | .setLanes _ _ => true
  | .setCheck _ _ => true
  | .setEventEnables _ _ => true
  | .ackEvents _ _ => true
  | .getStatus _ => true
  | .getRegion _ _ => true
  | .listRecords _ _ _ => true
  | .forgive _ _ => true
  | .resetEngine _ => true
  | .routeRequestArrival message => requestFits message
  | .answerRead => true
  | .query _ _ _ => true
  | .claim _ _ _ => true
  | .release _ overwritten => overwritten.length ≤ 255
  | .unknownRouteKind r => !isRouteKind r.kind && listFits r
  | .completion _ _ _ mask data => mask.length = 8 && data.length ≤ 64 * 4096
  | .rcdTakeBlock _ => true
  | .pacingExpiry _ => true
  | .timeout _ => true
  | .quarantineEnd _ => true

end Sys2Proof
end

