-- ==== Sys2Proof/Laws/PerInstr.lean ====
section
/-! SUPPORT. One lemma for each row of the table: the operands of a well-formed command spell a message the port can carry.
A command message has at most 255 parameter bytes (R205), and a route request lists as many stripes as its byte 3 gives (R207). -/

namespace Sys2Proof.Laws.WellFormedRows

open Sys2Proof.Machine

set_option Elab.async false

/-- The message a row of the Management Port spells, as its meaning sends it. -/
def spelledMessage : Instr → Option CommandMessage
  | .commandArrival message => CommandMessage.read message
  | .unknownCommand tag opcode params => some { tag := tag, opcode := opcode, params := params }
  | .setGeometry tag n l t rs k =>
    some (HostCommand.message tag (.setGeometry n.toNat l.toNat t.toNat rs.toNat k.toNat))
  | .setSegments tag position first elements =>
    some (HostCommand.message tag (.setSegments position.toNat first.toNat elements))
  | .openSession tag f b lanes fill startRegion aq kq skipQual =>
    some (HostCommand.message tag
      (.openSession f.toNat b.toNat lanes.toNat fill.toNat startRegion.toNat aq.toNat kq.toNat skipQual.toNat))
  | .start tag => some (HostCommand.message tag .start)
  | .pause tag => some (HostCommand.message tag .pause)
  | .resume tag => some (HostCommand.message tag .resume)
  | .step tag => some (HostCommand.message tag .step)
  | .abort tag => some (HostCommand.message tag .abort)
  | .closeSession tag => some (HostCommand.message tag .closeSession)
  | .promote tag region => some (HostCommand.message tag (.promote region.toNat))
  | .demote tag region => some (HostCommand.message tag (.demote region.toNat))
  | .memberDown tag position => some (HostCommand.message tag (.memberDown position.toNat))
  | .setPace tag w window => some (HostCommand.message tag (.setPace w.toNat window.toNat))
  | .setTimeout tag ms => some (HostCommand.message tag (.setTimeout ms.toNat))
  | .setHeat tag h => some (HostCommand.message tag (.setHeat h.toNat))
  | .setLanes tag count => some (HostCommand.message tag (.setLanes count.toNat))
  | .setCheck tag setting => some (HostCommand.message tag (.setCheck setting.toNat))
  | .setEventEnables tag events => some (HostCommand.message tag (.setEventEnables events.toNat))
  | .ackEvents tag events => some (HostCommand.message tag (.ackEvents events.toNat))
  | .getStatus tag => some (HostCommand.message tag .getStatus)
  | .getRegion tag region => some (HostCommand.message tag (.getRegion region.toNat))
  | .listRecords tag first maxCount => some (HostCommand.message tag (.listRecords first.toNat maxCount.toNat))
  | .forgive tag stripe => some (HostCommand.message tag (.forgive stripe.toNat))
  | .resetEngine tag => some (HostCommand.message tag .resetEngine)
  | _ => none

/-- The request a row of the Route Port spells, as its meaning sends it. -/
def spelledRequest : Instr → Option RouteRequest
  | .routeRequestArrival message => RouteRequest.read message
  | .query tag count first => some (rangeRequest kindQuery tag count first)
  | .claim tag count first => some (rangeRequest kindClaim tag count first)
  | .release tag overwritten => some (releaseRequest tag overwritten)
  | .unknownRouteKind r => some r
  | _ => none

/-- What a well-formed command spells, a port can carry. -/
def Statement (i : Instr) : Prop :=
  i.wf = true → (∀ m, spelledMessage i = some m → m.params.length ≤ 255) ∧ ∀ r, spelledRequest i = some r → listFits r = true

/-- Each element of SET_SEGMENTS takes 8 bytes (R205). -/
theorem length_elements (elements : List SegmentElement) : (elements.flatMap elementBytes).length = 8 * elements.length := by
  induction elements with
  | nil => rfl
  | cons e rest ih => simp [List.flatMap_cons, ih, elementBytes]; omega

/-- A command message that is read has as many parameter bytes as one byte can count (R205). -/
theorem read_params {bytes : List Byte} {m : CommandMessage} (h : CommandMessage.read bytes = some m) :
    m.params.length ≤ 255 := by
  unfold CommandMessage.read at h
  split at h
  · split at h
    · next hl =>
      obtain rfl := Option.some.inj h
      have := BitVec.isLt (x := by assumption)
      simp only at hl ⊢
      omega
    · cases h
  · cases h

/-- Stripe numbers are read 4 bytes at a time (R207). -/
theorem length_readStripes (n : Nat) : ∀ bytes : List Byte, bytes.length = 4 * n → (readStripes bytes).length = n := by
  induction n with
  | zero =>
    intro bytes h
    rw [List.length_eq_zero_iff.mp (show bytes.length = 0 by omega)]
    rfl
  | succ n ih =>
    intro bytes h
    match bytes, h with
    | _ :: _ :: _ :: _ :: rest, h =>
      simp only [readStripes, List.length_cons] at h ⊢
      rw [ih rest (by omega)]

/-- A route request that is read lists as many stripes as its byte 3 gives (R207). -/
theorem read_list {bytes : List Byte} {r : RouteRequest} (h : RouteRequest.read bytes = some r) : listFits r = true := by
  unfold RouteRequest.read at h
  split at h
  · split at h
    · next hl =>
      obtain rfl := Option.some.inj h
      unfold listBytes at hl
      unfold listFits
      split
      · next hk =>
        rw [if_pos hk] at hl
        exact decide_eq_true (length_readStripes _ _ hl)
      · next hk =>
        rw [if_neg hk] at hl
        rw [List.length_eq_zero_iff.mp hl]
        rfl
    · cases h
  · cases h

theorem powerOnReset : Statement .powerOnReset := fun _ => by simp [spelledMessage, spelledRequest]

theorem commandArrival (message : List Byte) : Statement (.commandArrival message) := by
  intro _; exact ⟨fun m hm => read_params hm, by simp [spelledRequest]⟩

theorem responseRead : Statement .responseRead := fun _ => by simp [spelledMessage, spelledRequest]

theorem unknownCommand (tag : BitVec 16) (opcode : Byte) (params : List Byte) : Statement (.unknownCommand tag opcode params) :=
  by
  intro h; simp [spelledMessage, spelledRequest, Instr.wf, paramsFit] at h ⊢; exact h.2

theorem setGeometry (tag : BitVec 16) (n l : Byte) (t rs : BitVec 32) (k : Byte) : Statement (.setGeometry tag n l t rs k) :=
  fun _ => by simp [spelledMessage, spelledRequest, HostCommand.message, HostCommand.params]

theorem setSegments (tag : BitVec 16) (position first : Byte) (elements : List SegmentElement) : Statement (.setSegments tag position first elements) :=
  by
  intro h
  simp only [Instr.wf, decide_eq_true_eq] at h
  simp [spelledMessage, spelledRequest, HostCommand.message, HostCommand.params, -List.length_flatMap, length_elements]; omega

theorem openSession (tag : BitVec 16) (f b lanes fill : Byte) (startRegion : BitVec 16) (aq : BitVec 48) (kq skipQual : Byte) : Statement (.openSession tag f b lanes fill startRegion aq kq skipQual) :=
  fun _ => by simp [spelledMessage, spelledRequest, HostCommand.message, HostCommand.params]

theorem start (tag : BitVec 16) : Statement (.start tag) :=
  fun _ => by simp [spelledMessage, spelledRequest, HostCommand.message, HostCommand.params]

theorem pause (tag : BitVec 16) : Statement (.pause tag) :=
  fun _ => by simp [spelledMessage, spelledRequest, HostCommand.message, HostCommand.params]

theorem resume (tag : BitVec 16) : Statement (.resume tag) :=
  fun _ => by simp [spelledMessage, spelledRequest, HostCommand.message, HostCommand.params]

theorem step (tag : BitVec 16) : Statement (.step tag) :=
  fun _ => by simp [spelledMessage, spelledRequest, HostCommand.message, HostCommand.params]

theorem abort (tag : BitVec 16) : Statement (.abort tag) :=
  fun _ => by simp [spelledMessage, spelledRequest, HostCommand.message, HostCommand.params]

theorem closeSession (tag : BitVec 16) : Statement (.closeSession tag) :=
  fun _ => by simp [spelledMessage, spelledRequest, HostCommand.message, HostCommand.params]

theorem promote (tag : BitVec 16) (region : BitVec 16) : Statement (.promote tag region) :=
  fun _ => by simp [spelledMessage, spelledRequest, HostCommand.message, HostCommand.params]

theorem demote (tag : BitVec 16) (region : BitVec 16) : Statement (.demote tag region) :=
  fun _ => by simp [spelledMessage, spelledRequest, HostCommand.message, HostCommand.params]

theorem memberDown (tag : BitVec 16) (position : Byte) : Statement (.memberDown tag position) :=
  fun _ => by simp [spelledMessage, spelledRequest, HostCommand.message, HostCommand.params]

theorem setPace (tag : BitVec 16) (w : Byte) (window : BitVec 16) : Statement (.setPace tag w window) :=
  fun _ => by simp [spelledMessage, spelledRequest, HostCommand.message, HostCommand.params]

theorem setTimeout (tag : BitVec 16) (ms : BitVec 16) : Statement (.setTimeout tag ms) :=
  fun _ => by simp [spelledMessage, spelledRequest, HostCommand.message, HostCommand.params]

theorem setHeat (tag : BitVec 16) (h : BitVec 16) : Statement (.setHeat tag h) :=
  fun _ => by simp [spelledMessage, spelledRequest, HostCommand.message, HostCommand.params]

theorem setLanes (tag : BitVec 16) (count : Byte) : Statement (.setLanes tag count) :=
  fun _ => by simp [spelledMessage, spelledRequest, HostCommand.message, HostCommand.params]

theorem setCheck (tag : BitVec 16) (setting : Byte) : Statement (.setCheck tag setting) :=
  fun _ => by simp [spelledMessage, spelledRequest, HostCommand.message, HostCommand.params]

theorem setEventEnables (tag : BitVec 16) (events : BitVec 16) : Statement (.setEventEnables tag events) :=
  fun _ => by simp [spelledMessage, spelledRequest, HostCommand.message, HostCommand.params]

theorem ackEvents (tag : BitVec 16) (events : BitVec 16) : Statement (.ackEvents tag events) :=
  fun _ => by simp [spelledMessage, spelledRequest, HostCommand.message, HostCommand.params]

theorem getStatus (tag : BitVec 16) : Statement (.getStatus tag) :=
  fun _ => by simp [spelledMessage, spelledRequest, HostCommand.message, HostCommand.params]

theorem getRegion (tag : BitVec 16) (region : BitVec 16) : Statement (.getRegion tag region) :=
  fun _ => by simp [spelledMessage, spelledRequest, HostCommand.message, HostCommand.params]

theorem listRecords (tag : BitVec 16) (first : BitVec 32) (maxCount : Byte) : Statement (.listRecords tag first maxCount) :=
  fun _ => by simp [spelledMessage, spelledRequest, HostCommand.message, HostCommand.params]

theorem forgive (tag : BitVec 16) (stripe : BitVec 32) : Statement (.forgive tag stripe) :=
  fun _ => by simp [spelledMessage, spelledRequest, HostCommand.message, HostCommand.params]

theorem resetEngine (tag : BitVec 16) : Statement (.resetEngine tag) :=
  fun _ => by simp [spelledMessage, spelledRequest, HostCommand.message, HostCommand.params]

theorem routeRequestArrival (message : List Byte) : Statement (.routeRequestArrival message) := by
  intro _; exact ⟨by simp [spelledMessage], fun r hr => read_list hr⟩

theorem answerRead : Statement .answerRead := fun _ => by simp [spelledMessage, spelledRequest]

theorem query (tag count : Byte) (first : BitVec 32) : Statement (.query tag count first) := by
  intro _; simp [spelledMessage, spelledRequest, rangeRequest, listFits, kindQuery]

theorem claim (tag count : Byte) (first : BitVec 32) : Statement (.claim tag count first) := by
  intro _; simp [spelledMessage, spelledRequest, rangeRequest, listFits, kindClaim]

theorem release (tag : Byte) (overwritten : List (BitVec 32)) : Statement (.release tag overwritten) := by
  intro h
  simp only [Instr.wf, decide_eq_true_eq] at h
  simp [spelledMessage, spelledRequest, releaseRequest, listFits, kindRelease]; omega

theorem unknownRouteKind (request : RouteRequest) : Statement (.unknownRouteKind request) := by
  intro h; simp [spelledMessage, spelledRequest, Instr.wf] at h ⊢; exact h.2

theorem completion (tag status position : Byte) (mask data : List Byte) : Statement (.completion tag status position mask data) :=
  fun _ => by simp [spelledMessage, spelledRequest]

theorem rcdTakeBlock (lane : Fin 4) : Statement (.rcdTakeBlock lane) := fun _ => by simp [spelledMessage, spelledRequest]

theorem pacingExpiry (position : Fin 16) : Statement (.pacingExpiry position) :=
  fun _ => by simp [spelledMessage, spelledRequest]

theorem timeout (tag : Byte) : Statement (.timeout tag) := fun _ => by simp [spelledMessage, spelledRequest]

theorem quarantineEnd (tag : Byte) : Statement (.quarantineEnd tag) := fun _ => by simp [spelledMessage, spelledRequest]

end Sys2Proof.Laws.WellFormedRows
end

