-- ==== Sys2Proof/Laws/Ports.lean ====
section
/-! SUPPORT. The ports: what a message taken at once does, the rows that carry bytes, and what taking a command or request leaves
unchanged. -/

namespace Sys2Proof.Machine

/-! ## The Management Port -/

/-- A command that arrives when MGP is ready is taken at once: it runs on the state with nothing sent, and its response joins
the response queue. -/
theorem State.commandArrives_ready {s : State} (h : s.HostReady) (m : CommandMessage) :
    s.commandArrives m = s.beginEvent.takeMessage m := by
  obtain ⟨hc, hr⟩ := h
  obtain ⟨⟨commands, responses, status, enables, line⟩⟩ := s
  simp only at hc hr
  subst hc
  simp only [State.commandArrives, State.queueCommand, State.beginEvent, State.updMgp, commandCapacity, List.length_nil,
    if_true, List.nil_append, State.takeCommands, List.length_cons, State.takeCommandsFuel,
    responseCapacity, hr, Mgp.dropHead, List.tail_cons, Nat.zero_lt_succ, Nat.zero_add]

/-- The same for a host command's meaning. -/
theorem hostCommand_ready {s : State} (h : s.HostReady) (tag : BitVec 16) (c : HostCommand) :
    hostCommand tag c s = .next (s.beginEvent.takeMessage (c.message tag)) := by
  unfold hostCommand
  rw [State.commandArrives_ready h]

/-- What every command leaves unchanged: the queues of MGP, the present time, the free values drawn, the commands waiting. -/
def CommandOnly (s t : State) : Prop :=
  t.now = s.now ∧ t.freeCount = s.freeCount ∧ t.pending = s.pending ∧ t.mgp.commands = s.mgp.commands ∧
    t.mgp.responses = s.mgp.responses

theorem CommandOnly.refl (s : State) : CommandOnly s s := ⟨rfl, rfl, rfl, rfl, rfl⟩

theorem CommandOnly.trans {s t u : State} (h : CommandOnly s t) (h' : CommandOnly t u) : CommandOnly s u := by
  obtain ⟨a₁, a₂, a₃, a₄, a₅⟩ := h
  obtain ⟨b₁, b₂, b₃, b₄, b₅⟩ := h'
  exact ⟨b₁.trans a₁, b₂.trans a₂, b₃.trans a₃, b₄.trans a₄, b₅.trans a₅⟩

theorem RebuildOnly.command {s t : State} (h : RebuildOnly s t) : CommandOnly s t := by
  obtain ⟨_, h₂, h₃, h₄, ⟨_, _, h₅⟩, _⟩ := h
  exact ⟨h₂, h₃, h₄, by rw [h₅], by rw [h₅]⟩

theorem takeOpenSession_command (f b lanes fill start aq kq skipQual : Nat) (s : State) :
    CommandOnly s (takeOpenSession f b lanes fill start aq kq skipQual s).1 := by
  unfold takeOpenSession
  split
  · exact .refl s
  · split
    · exact .refl s
    · exact .refl s
    · split
      · exact .refl s
      · simp only
        split
        · exact .refl s
        · have h : ∀ st (e : Ses) (g : Rgt → Rgt),
              CommandOnly s ((((s.updSes fun _ => e).updRgt g).zeroTimeouts).changeState st) :=
            fun _ _ _ => ⟨rfl, rfl, rfl, rfl, rfl⟩
          split
          · exact h _ _ _
          · exact (h _ _ _).trans (State.requestBuffers_only _ _).rebuild.command

theorem State.forgetSession_command (s : State) : CommandOnly s s.forgetSession := ⟨rfl, rfl, rfl, rfl, rfl⟩

/-- Every command leaves MGP's queues, the present time, the free values drawn and the commands waiting unchanged. -/
theorem runCommand_only (c : HostCommand) (s : State) : CommandOnly s (runCommand c s).1 := by
  cases c with
  | setGeometry n l t rs k =>
    simp only [runCommand, takeSetGeometry]
    split
    · exact .refl s
    · split
      · exact ⟨rfl, rfl, rfl, rfl, rfl⟩
      · exact .refl s
  | setSegments position first elements =>
    simp only [runCommand, takeSetSegments]
    split
    · exact .refl s
    · split
      · exact .refl s
      · split
        · exact .refl s
        · split
          · exact .refl s
          · split
            · exact .refl s
            · split
              · exact .refl s
              · exact ⟨rfl, rfl, rfl, rfl, rfl⟩
  | openSession f b lanes fill startRegion aq kq skipQual => exact takeOpenSession_command _ _ _ _ _ _ _ _ s
  | start =>
    simp only [runCommand, takeStart]
    split
    · exact ((s.changeState_rebuild _).trans (State.passOver_rebuild _ _)).command
    · exact .refl s
  | pause =>
    simp only [runCommand, takePause]
    split
    · exact ((s.changeState_rebuild _).trans (State.drainingExit_rebuild _)).command
    · exact .refl s
  | resume =>
    simp only [runCommand, takeResume]
    split
    · exact ((s.changeState_rebuild _).trans (State.passOver_rebuild _ _)).command
    · exact .refl s
  | step =>
    simp only [runCommand, takeStep]
    split
    · exact (((s.changeState_rebuild _).trans (State.stepPass_rebuild _)).trans (State.steppingExit_rebuild _)).command
    · exact .refl s
  | abort =>
    simp only [runCommand, takeAbort]
    split
    · exact (s.endSession_rebuild _ _).command
    · exact .refl s
  | closeSession =>
    simp only [runCommand, takeCloseSession]
    split
    · exact ((s.emptyLocks_only _).rebuild.command.trans (State.forgetSession_command _)).trans
        (State.setEvent_rebuild _ _).command
    · exact .refl s
  | promote region =>
    simp only [runCommand, takePromote]
    split
    · exact .refl s
    · exact ⟨rfl, rfl, rfl, rfl, rfl⟩
  | demote region =>
    simp only [runCommand, takeDemote]
    split
    · exact .refl s
    · exact ⟨rfl, rfl, rfl, rfl, rfl⟩
  | memberDown position =>
    simp only [runCommand, takeMemberDown]
    split
    · exact .refl s
    · split
      · exact .refl s
      · exact (s.takeFault_rebuild _).command
  | setPace w window =>
    simp only [runCommand, takeSetPace]
    exact ((s.updMru_only _).trans (State.decideAll_only _)).rebuild.command
  | setTimeout ms => exact (s.updMru_only _).rebuild.command
  | setHeat h => exact ⟨rfl, rfl, rfl, rfl, rfl⟩
  | setLanes count =>
    simp only [runCommand, takeSetLanes]
    split
    · exact CommandOnly.trans ⟨rfl, rfl, rfl, rfl, rfl⟩ (State.passOver_rebuild _ _).command
    · exact ⟨rfl, rfl, rfl, rfl, rfl⟩
  | setCheck setting =>
    simp only [runCommand, takeSetCheck]
    split
    · exact .refl s
    · split
      · exact .refl s
      · exact ⟨rfl, rfl, rfl, rfl, rfl⟩
  | setEventEnables events => exact ⟨rfl, rfl, rfl, rfl, rfl⟩
  | ackEvents events => exact ⟨rfl, rfl, rfl, rfl, rfl⟩
  | getStatus => exact .refl s
  | getRegion region =>
    simp only [runCommand, takeGetRegion]
    split
    · exact .refl s
    · split <;> exact .refl s
  | listRecords first maxCount =>
    simp only [runCommand, takeListRecords]
    split
    · exact .refl s
    · split
      · exact .refl s
      · exact .refl s
  | forgive stripe =>
    simp only [runCommand, takeForgive]
    split
    · exact .refl s
    · split
      · exact .refl s
      · split
        · exact .refl s
        · split
          · exact .refl s
          · exact ((s.retire_rebuild _).trans (State.afterRetirement_rebuild _)).command
  | resetEngine =>
    simp only [runCommand, takeResetEngine, accepted]
    have h := s.abandonAll_rebuild.trans (State.zeroTimeouts_only _).rebuild
    generalize s.abandonAll.zeroTimeouts = u at h ⊢
    exact h.command.trans ⟨rfl, rfl, rfl, rfl, rfl⟩

theorem runDecoded_only (d : Decoded) (s : State) : CommandOnly s (runDecoded d s).1 := by
  cases d with
  | unknown => exact .refl s
  | badLength => exact .refl s
  | command c => exact runCommand_only c s

/-- One response is written for each command taken, at the tail, with the command's tag (R192, R194). -/
theorem State.takeMessage_responses (m : CommandMessage) (s : State) :
    (s.takeMessage m).mgp.responses =
      s.mgp.responses ++ [{ tag := m.tag, reply := (runDecoded (decodeCommand m.opcode m.params) s).2 }] := by
  have h := (runDecoded_only (decodeCommand m.opcode m.params) s).2.2.2.2
  simp only [State.takeMessage, State.respond, State.updMgp, h]

/-! ## The Route Port -/

/-- A route request that arrives when RTU is ready is taken at once. -/
theorem State.requestArrives_ready {s : State} (h : s.RouteReady) (r : RouteRequest) :
    s.requestArrives r = s.beginEvent.takeRequest r := by
  obtain ⟨hq, hr⟩ := h
  obtain ⟨mgp, geo, ses, rgt, ⟨requests, answers, reservations⟩⟩ := s
  simp only at hq hr
  subst hq
  simp only [State.requestArrives, State.queueRequest, State.beginEvent, State.updRtu, requestCapacity, List.length_nil,
    if_true, List.nil_append, State.takeRequests, List.length_cons, State.takeRequestsFuel, Rtu.hasRoom, answerCapacity, hr,
    decide_true, Rtu.dropHead, List.tail_cons, Nat.reduceLT, Nat.zero_add]

theorem State.takeClaim_only (tag : Byte) (first count : Nat) (s : State) : RebuildOnly s (s.takeClaim tag first count) := by
  have hc : ∀ u : State, RebuildOnly u (u.contribute first count) := fun u =>
    ⟨rfl, rfl, rfl, rfl, .refl _, rfl, rfl, rfl, rfl⟩
  unfold State.takeClaim
  split
  · exact (s.answer_only _).rebuild
  · simp only
    split
    · exact (((s.updSlk_only _).trans (State.answer_only _ _)).rebuild).trans (hc _)
    · exact RebuildOnly.trans ⟨rfl, rfl, rfl, rfl, .refl _, rfl, rfl, rfl, rfl⟩ (hc _)

theorem State.takeQuery_only (tag : Byte) (first count : Nat) (s : State) : RebuildOnly s (s.takeQuery tag first count) := by
  unfold State.takeQuery
  split
  · exact (s.answer_only _).rebuild
  · exact ⟨rfl, rfl, rfl, rfl, .refl _, rfl, rfl, rfl, rfl⟩

theorem State.takeRelease_only (tag : Byte) (listed : List Nat) (s : State) : RebuildOnly s (s.takeRelease tag listed) := by
  unfold State.takeRelease
  split
  · exact (s.answer_only _).rebuild
  · split
    · exact (s.answer_only _).rebuild
    · split
      · rename_i e _
        unfold State.releaseHeld
        simp only
        have h := State.retireAll_rebuild (e.overwritten listed) s
        generalize State.retireAll (e.overwritten listed) s = x at h ⊢
        have h' := h.trans (((x.1.dropHeld_only (.claim tag)).trans (State.answer_only (releasedAnswer tag x.2) _)).trans
          (State.scanLocks_only _)).rebuild
        split
        · exact h'
        · exact h'.trans (State.afterRetirement_rebuild _)
      · split
        · exact ((((s.dropWaiting_only _).trans (State.answer_only _ _)).trans (State.dropReservation_only _)).trans
            (State.scanLocks_only _)).rebuild
        · exact (s.answer_only _).rebuild

/-- A route request taken leaves the commands waiting, the present time and MGP's queues unchanged. -/
theorem State.takeRequest_only (r : RouteRequest) (s : State) :
    (s.takeRequest r).pending = s.pending ∧ (s.takeRequest r).now = s.now ∧
      (s.takeRequest r).rtu.requests = s.rtu.requests ∧ EventsOnly s.mgp (s.takeRequest r).mgp := by
  unfold State.takeRequest
  split
  · obtain ⟨_, h₂, _, h₄, h₅, _, _, _, h₉⟩ := s.takeQuery_only r.tag r.first.toNat r.count.toNat
    exact ⟨h₄, h₂, h₉, h₅⟩
  · split
    · obtain ⟨_, h₂, _, h₄, h₅, _, _, _, h₉⟩ := s.takeClaim_only r.tag r.first.toNat r.count.toNat
      exact ⟨h₄, h₂, h₉, h₅⟩
    · split
      · obtain ⟨_, h₂, _, h₄, h₅, _, _, _, h₉⟩ := s.takeRelease_only r.tag (overwrittenList r)
        exact ⟨h₄, h₂, h₉, h₅⟩
      · exact ⟨rfl, rfl, rfl, .refl _⟩

/-! ## The rows that carry the bytes of a message -/

theorem execCommandArrival_of_read {bytes : List Byte} {m : CommandMessage} (h : CommandMessage.read bytes = some m)
    (s : State) : execCommandArrival bytes s = .next (s.commandArrives m) := by simp [execCommandArrival, h]

theorem execCommandArrival_of_none {bytes : List Byte} (h : CommandMessage.read bytes = none) (s : State) :
    execCommandArrival bytes s = .next s.beginEvent := by simp [execCommandArrival, h]

theorem execRouteRequestArrival_of_read {bytes : List Byte} {r : RouteRequest} (h : RouteRequest.read bytes = some r)
    (s : State) : execRouteRequestArrival bytes s = .next (s.requestArrives r) := by simp [execRouteRequestArrival, h]

theorem execRouteRequestArrival_of_none {bytes : List Byte} (h : RouteRequest.read bytes = none) (s : State) :
    execRouteRequestArrival bytes s = .next s.beginEvent := by simp [execRouteRequestArrival, h]

/-- Eight mask bytes make a completion whole (R209). -/
theorem execCompletion_of_mask {mask : List Byte} (h : mask.length = 8) (tag status position : Byte) (data : List Byte)
    (s : State) : execCompletion tag status position mask data s =
      .next (s.beginEvent.takeCompletion tag.toNat status (BitVec.ofNat 64 (leNat mask)) data) := by
  simp [execCompletion, Completion.read, h]

theorem execCompletion_of_broken {mask : List Byte} (h : mask.length ≠ 8) (tag status position : Byte) (data : List Byte)
    (s : State) : execCompletion tag status position mask data s = .next s.beginEvent := by
  simp [execCompletion, Completion.read, h]

end Sys2Proof.Machine
end

