-- ==== Sys2Proof/Laws/State.lean ====
section
/-! SUPPORT. One lemma for each field of State under each elementary update, true by rfl: no later proof unfolds a record
update. -/

namespace Sys2Proof.Machine

/-! ## updMgp -/

@[simp] theorem State.updMgp_mgp (f : Mgp → Mgp) (s : State) : (s.updMgp f).mgp = f s.mgp := rfl
@[simp] theorem State.updMgp_geo (f : Mgp → Mgp) (s : State) : (s.updMgp f).geo = s.geo := rfl
@[simp] theorem State.updMgp_ses (f : Mgp → Mgp) (s : State) : (s.updMgp f).ses = s.ses := rfl
@[simp] theorem State.updMgp_rgt (f : Mgp → Mgp) (s : State) : (s.updMgp f).rgt = s.rgt := rfl
@[simp] theorem State.updMgp_rtu (f : Mgp → Mgp) (s : State) : (s.updMgp f).rtu = s.rtu := rfl
@[simp] theorem State.updMgp_slk (f : Mgp → Mgp) (s : State) : (s.updMgp f).slk = s.slk := rfl
@[simp] theorem State.updMgp_lanes (f : Mgp → Mgp) (s : State) : (s.updMgp f).lanes = s.lanes := rfl
@[simp] theorem State.updMgp_holdingOrder (f : Mgp → Mgp) (s : State) : (s.updMgp f).holdingOrder = s.holdingOrder := rfl
@[simp] theorem State.updMgp_sbp (f : Mgp → Mgp) (s : State) : (s.updMgp f).sbp = s.sbp := rfl
@[simp] theorem State.updMgp_mru (f : Mgp → Mgp) (s : State) : (s.updMgp f).mru = s.mru := rfl
@[simp] theorem State.updMgp_rcd (f : Mgp → Mgp) (s : State) : (s.updMgp f).rcd = s.rcd := rfl
@[simp] theorem State.updMgp_lrl (f : Mgp → Mgp) (s : State) : (s.updMgp f).lrl = s.lrl := rfl
@[simp] theorem State.updMgp_mem (f : Mgp → Mgp) (s : State) : (s.updMgp f).mem = s.mem := rfl
@[simp] theorem State.updMgp_now (f : Mgp → Mgp) (s : State) : (s.updMgp f).now = s.now := rfl
@[simp] theorem State.updMgp_sent (f : Mgp → Mgp) (s : State) : (s.updMgp f).sent = s.sent := rfl
@[simp] theorem State.updMgp_freeCount (f : Mgp → Mgp) (s : State) : (s.updMgp f).freeCount = s.freeCount := rfl
@[simp] theorem State.updMgp_pending (f : Mgp → Mgp) (s : State) : (s.updMgp f).pending = s.pending := rfl

/-! ## updGeo -/

@[simp] theorem State.updGeo_mgp (f : Geo → Geo) (s : State) : (s.updGeo f).mgp = s.mgp := rfl
@[simp] theorem State.updGeo_geo (f : Geo → Geo) (s : State) : (s.updGeo f).geo = f s.geo := rfl
@[simp] theorem State.updGeo_ses (f : Geo → Geo) (s : State) : (s.updGeo f).ses = s.ses := rfl
@[simp] theorem State.updGeo_rgt (f : Geo → Geo) (s : State) : (s.updGeo f).rgt = s.rgt := rfl
@[simp] theorem State.updGeo_rtu (f : Geo → Geo) (s : State) : (s.updGeo f).rtu = s.rtu := rfl
@[simp] theorem State.updGeo_slk (f : Geo → Geo) (s : State) : (s.updGeo f).slk = s.slk := rfl
@[simp] theorem State.updGeo_lanes (f : Geo → Geo) (s : State) : (s.updGeo f).lanes = s.lanes := rfl
@[simp] theorem State.updGeo_holdingOrder (f : Geo → Geo) (s : State) : (s.updGeo f).holdingOrder = s.holdingOrder := rfl
@[simp] theorem State.updGeo_sbp (f : Geo → Geo) (s : State) : (s.updGeo f).sbp = s.sbp := rfl
@[simp] theorem State.updGeo_mru (f : Geo → Geo) (s : State) : (s.updGeo f).mru = s.mru := rfl
@[simp] theorem State.updGeo_rcd (f : Geo → Geo) (s : State) : (s.updGeo f).rcd = s.rcd := rfl
@[simp] theorem State.updGeo_lrl (f : Geo → Geo) (s : State) : (s.updGeo f).lrl = s.lrl := rfl
@[simp] theorem State.updGeo_mem (f : Geo → Geo) (s : State) : (s.updGeo f).mem = s.mem := rfl
@[simp] theorem State.updGeo_now (f : Geo → Geo) (s : State) : (s.updGeo f).now = s.now := rfl
@[simp] theorem State.updGeo_sent (f : Geo → Geo) (s : State) : (s.updGeo f).sent = s.sent := rfl
@[simp] theorem State.updGeo_freeCount (f : Geo → Geo) (s : State) : (s.updGeo f).freeCount = s.freeCount := rfl
@[simp] theorem State.updGeo_pending (f : Geo → Geo) (s : State) : (s.updGeo f).pending = s.pending := rfl

/-! ## updSes -/

@[simp] theorem State.updSes_mgp (f : Ses → Ses) (s : State) : (s.updSes f).mgp = s.mgp := rfl
@[simp] theorem State.updSes_geo (f : Ses → Ses) (s : State) : (s.updSes f).geo = s.geo := rfl
@[simp] theorem State.updSes_ses (f : Ses → Ses) (s : State) : (s.updSes f).ses = f s.ses := rfl
@[simp] theorem State.updSes_rgt (f : Ses → Ses) (s : State) : (s.updSes f).rgt = s.rgt := rfl
@[simp] theorem State.updSes_rtu (f : Ses → Ses) (s : State) : (s.updSes f).rtu = s.rtu := rfl
@[simp] theorem State.updSes_slk (f : Ses → Ses) (s : State) : (s.updSes f).slk = s.slk := rfl
@[simp] theorem State.updSes_lanes (f : Ses → Ses) (s : State) : (s.updSes f).lanes = s.lanes := rfl
@[simp] theorem State.updSes_holdingOrder (f : Ses → Ses) (s : State) : (s.updSes f).holdingOrder = s.holdingOrder := rfl
@[simp] theorem State.updSes_sbp (f : Ses → Ses) (s : State) : (s.updSes f).sbp = s.sbp := rfl
@[simp] theorem State.updSes_mru (f : Ses → Ses) (s : State) : (s.updSes f).mru = s.mru := rfl
@[simp] theorem State.updSes_rcd (f : Ses → Ses) (s : State) : (s.updSes f).rcd = s.rcd := rfl
@[simp] theorem State.updSes_lrl (f : Ses → Ses) (s : State) : (s.updSes f).lrl = s.lrl := rfl
@[simp] theorem State.updSes_mem (f : Ses → Ses) (s : State) : (s.updSes f).mem = s.mem := rfl
@[simp] theorem State.updSes_now (f : Ses → Ses) (s : State) : (s.updSes f).now = s.now := rfl
@[simp] theorem State.updSes_sent (f : Ses → Ses) (s : State) : (s.updSes f).sent = s.sent := rfl
@[simp] theorem State.updSes_freeCount (f : Ses → Ses) (s : State) : (s.updSes f).freeCount = s.freeCount := rfl
@[simp] theorem State.updSes_pending (f : Ses → Ses) (s : State) : (s.updSes f).pending = s.pending := rfl

/-! ## updRgt -/

@[simp] theorem State.updRgt_mgp (f : Rgt → Rgt) (s : State) : (s.updRgt f).mgp = s.mgp := rfl
@[simp] theorem State.updRgt_geo (f : Rgt → Rgt) (s : State) : (s.updRgt f).geo = s.geo := rfl
@[simp] theorem State.updRgt_ses (f : Rgt → Rgt) (s : State) : (s.updRgt f).ses = s.ses := rfl
@[simp] theorem State.updRgt_rgt (f : Rgt → Rgt) (s : State) : (s.updRgt f).rgt = f s.rgt := rfl
@[simp] theorem State.updRgt_rtu (f : Rgt → Rgt) (s : State) : (s.updRgt f).rtu = s.rtu := rfl
@[simp] theorem State.updRgt_slk (f : Rgt → Rgt) (s : State) : (s.updRgt f).slk = s.slk := rfl
@[simp] theorem State.updRgt_lanes (f : Rgt → Rgt) (s : State) : (s.updRgt f).lanes = s.lanes := rfl
@[simp] theorem State.updRgt_holdingOrder (f : Rgt → Rgt) (s : State) : (s.updRgt f).holdingOrder = s.holdingOrder := rfl
@[simp] theorem State.updRgt_sbp (f : Rgt → Rgt) (s : State) : (s.updRgt f).sbp = s.sbp := rfl
@[simp] theorem State.updRgt_mru (f : Rgt → Rgt) (s : State) : (s.updRgt f).mru = s.mru := rfl
@[simp] theorem State.updRgt_rcd (f : Rgt → Rgt) (s : State) : (s.updRgt f).rcd = s.rcd := rfl
@[simp] theorem State.updRgt_lrl (f : Rgt → Rgt) (s : State) : (s.updRgt f).lrl = s.lrl := rfl
@[simp] theorem State.updRgt_mem (f : Rgt → Rgt) (s : State) : (s.updRgt f).mem = s.mem := rfl
@[simp] theorem State.updRgt_now (f : Rgt → Rgt) (s : State) : (s.updRgt f).now = s.now := rfl
@[simp] theorem State.updRgt_sent (f : Rgt → Rgt) (s : State) : (s.updRgt f).sent = s.sent := rfl
@[simp] theorem State.updRgt_freeCount (f : Rgt → Rgt) (s : State) : (s.updRgt f).freeCount = s.freeCount := rfl
@[simp] theorem State.updRgt_pending (f : Rgt → Rgt) (s : State) : (s.updRgt f).pending = s.pending := rfl

/-! ## updRtu -/

@[simp] theorem State.updRtu_mgp (f : Rtu → Rtu) (s : State) : (s.updRtu f).mgp = s.mgp := rfl
@[simp] theorem State.updRtu_geo (f : Rtu → Rtu) (s : State) : (s.updRtu f).geo = s.geo := rfl
@[simp] theorem State.updRtu_ses (f : Rtu → Rtu) (s : State) : (s.updRtu f).ses = s.ses := rfl
@[simp] theorem State.updRtu_rgt (f : Rtu → Rtu) (s : State) : (s.updRtu f).rgt = s.rgt := rfl
@[simp] theorem State.updRtu_rtu (f : Rtu → Rtu) (s : State) : (s.updRtu f).rtu = f s.rtu := rfl
@[simp] theorem State.updRtu_slk (f : Rtu → Rtu) (s : State) : (s.updRtu f).slk = s.slk := rfl
@[simp] theorem State.updRtu_lanes (f : Rtu → Rtu) (s : State) : (s.updRtu f).lanes = s.lanes := rfl
@[simp] theorem State.updRtu_holdingOrder (f : Rtu → Rtu) (s : State) : (s.updRtu f).holdingOrder = s.holdingOrder := rfl
@[simp] theorem State.updRtu_sbp (f : Rtu → Rtu) (s : State) : (s.updRtu f).sbp = s.sbp := rfl
@[simp] theorem State.updRtu_mru (f : Rtu → Rtu) (s : State) : (s.updRtu f).mru = s.mru := rfl
@[simp] theorem State.updRtu_rcd (f : Rtu → Rtu) (s : State) : (s.updRtu f).rcd = s.rcd := rfl
@[simp] theorem State.updRtu_lrl (f : Rtu → Rtu) (s : State) : (s.updRtu f).lrl = s.lrl := rfl
@[simp] theorem State.updRtu_mem (f : Rtu → Rtu) (s : State) : (s.updRtu f).mem = s.mem := rfl
@[simp] theorem State.updRtu_now (f : Rtu → Rtu) (s : State) : (s.updRtu f).now = s.now := rfl
@[simp] theorem State.updRtu_sent (f : Rtu → Rtu) (s : State) : (s.updRtu f).sent = s.sent := rfl
@[simp] theorem State.updRtu_freeCount (f : Rtu → Rtu) (s : State) : (s.updRtu f).freeCount = s.freeCount := rfl
@[simp] theorem State.updRtu_pending (f : Rtu → Rtu) (s : State) : (s.updRtu f).pending = s.pending := rfl

/-! ## updSlk -/

@[simp] theorem State.updSlk_mgp (f : Slk → Slk) (s : State) : (s.updSlk f).mgp = s.mgp := rfl
@[simp] theorem State.updSlk_geo (f : Slk → Slk) (s : State) : (s.updSlk f).geo = s.geo := rfl
@[simp] theorem State.updSlk_ses (f : Slk → Slk) (s : State) : (s.updSlk f).ses = s.ses := rfl
@[simp] theorem State.updSlk_rgt (f : Slk → Slk) (s : State) : (s.updSlk f).rgt = s.rgt := rfl
@[simp] theorem State.updSlk_rtu (f : Slk → Slk) (s : State) : (s.updSlk f).rtu = s.rtu := rfl
@[simp] theorem State.updSlk_slk (f : Slk → Slk) (s : State) : (s.updSlk f).slk = f s.slk := rfl
@[simp] theorem State.updSlk_lanes (f : Slk → Slk) (s : State) : (s.updSlk f).lanes = s.lanes := rfl
@[simp] theorem State.updSlk_holdingOrder (f : Slk → Slk) (s : State) : (s.updSlk f).holdingOrder = s.holdingOrder := rfl
@[simp] theorem State.updSlk_sbp (f : Slk → Slk) (s : State) : (s.updSlk f).sbp = s.sbp := rfl
@[simp] theorem State.updSlk_mru (f : Slk → Slk) (s : State) : (s.updSlk f).mru = s.mru := rfl
@[simp] theorem State.updSlk_rcd (f : Slk → Slk) (s : State) : (s.updSlk f).rcd = s.rcd := rfl
@[simp] theorem State.updSlk_lrl (f : Slk → Slk) (s : State) : (s.updSlk f).lrl = s.lrl := rfl
@[simp] theorem State.updSlk_mem (f : Slk → Slk) (s : State) : (s.updSlk f).mem = s.mem := rfl
@[simp] theorem State.updSlk_now (f : Slk → Slk) (s : State) : (s.updSlk f).now = s.now := rfl
@[simp] theorem State.updSlk_sent (f : Slk → Slk) (s : State) : (s.updSlk f).sent = s.sent := rfl
@[simp] theorem State.updSlk_freeCount (f : Slk → Slk) (s : State) : (s.updSlk f).freeCount = s.freeCount := rfl
@[simp] theorem State.updSlk_pending (f : Slk → Slk) (s : State) : (s.updSlk f).pending = s.pending := rfl

/-! ## updSbp -/

@[simp] theorem State.updSbp_mgp (f : Sbp → Sbp) (s : State) : (s.updSbp f).mgp = s.mgp := rfl
@[simp] theorem State.updSbp_geo (f : Sbp → Sbp) (s : State) : (s.updSbp f).geo = s.geo := rfl
@[simp] theorem State.updSbp_ses (f : Sbp → Sbp) (s : State) : (s.updSbp f).ses = s.ses := rfl
@[simp] theorem State.updSbp_rgt (f : Sbp → Sbp) (s : State) : (s.updSbp f).rgt = s.rgt := rfl
@[simp] theorem State.updSbp_rtu (f : Sbp → Sbp) (s : State) : (s.updSbp f).rtu = s.rtu := rfl
@[simp] theorem State.updSbp_slk (f : Sbp → Sbp) (s : State) : (s.updSbp f).slk = s.slk := rfl
@[simp] theorem State.updSbp_lanes (f : Sbp → Sbp) (s : State) : (s.updSbp f).lanes = s.lanes := rfl
@[simp] theorem State.updSbp_holdingOrder (f : Sbp → Sbp) (s : State) : (s.updSbp f).holdingOrder = s.holdingOrder := rfl
@[simp] theorem State.updSbp_sbp (f : Sbp → Sbp) (s : State) : (s.updSbp f).sbp = f s.sbp := rfl
@[simp] theorem State.updSbp_mru (f : Sbp → Sbp) (s : State) : (s.updSbp f).mru = s.mru := rfl
@[simp] theorem State.updSbp_rcd (f : Sbp → Sbp) (s : State) : (s.updSbp f).rcd = s.rcd := rfl
@[simp] theorem State.updSbp_lrl (f : Sbp → Sbp) (s : State) : (s.updSbp f).lrl = s.lrl := rfl
@[simp] theorem State.updSbp_mem (f : Sbp → Sbp) (s : State) : (s.updSbp f).mem = s.mem := rfl
@[simp] theorem State.updSbp_now (f : Sbp → Sbp) (s : State) : (s.updSbp f).now = s.now := rfl
@[simp] theorem State.updSbp_sent (f : Sbp → Sbp) (s : State) : (s.updSbp f).sent = s.sent := rfl
@[simp] theorem State.updSbp_freeCount (f : Sbp → Sbp) (s : State) : (s.updSbp f).freeCount = s.freeCount := rfl
@[simp] theorem State.updSbp_pending (f : Sbp → Sbp) (s : State) : (s.updSbp f).pending = s.pending := rfl

/-! ## updMru -/

@[simp] theorem State.updMru_mgp (f : Mru → Mru) (s : State) : (s.updMru f).mgp = s.mgp := rfl
@[simp] theorem State.updMru_geo (f : Mru → Mru) (s : State) : (s.updMru f).geo = s.geo := rfl
@[simp] theorem State.updMru_ses (f : Mru → Mru) (s : State) : (s.updMru f).ses = s.ses := rfl
@[simp] theorem State.updMru_rgt (f : Mru → Mru) (s : State) : (s.updMru f).rgt = s.rgt := rfl
@[simp] theorem State.updMru_rtu (f : Mru → Mru) (s : State) : (s.updMru f).rtu = s.rtu := rfl
@[simp] theorem State.updMru_slk (f : Mru → Mru) (s : State) : (s.updMru f).slk = s.slk := rfl
@[simp] theorem State.updMru_lanes (f : Mru → Mru) (s : State) : (s.updMru f).lanes = s.lanes := rfl
@[simp] theorem State.updMru_holdingOrder (f : Mru → Mru) (s : State) : (s.updMru f).holdingOrder = s.holdingOrder := rfl
@[simp] theorem State.updMru_sbp (f : Mru → Mru) (s : State) : (s.updMru f).sbp = s.sbp := rfl
@[simp] theorem State.updMru_mru (f : Mru → Mru) (s : State) : (s.updMru f).mru = f s.mru := rfl
@[simp] theorem State.updMru_rcd (f : Mru → Mru) (s : State) : (s.updMru f).rcd = s.rcd := rfl
@[simp] theorem State.updMru_lrl (f : Mru → Mru) (s : State) : (s.updMru f).lrl = s.lrl := rfl
@[simp] theorem State.updMru_mem (f : Mru → Mru) (s : State) : (s.updMru f).mem = s.mem := rfl
@[simp] theorem State.updMru_now (f : Mru → Mru) (s : State) : (s.updMru f).now = s.now := rfl
@[simp] theorem State.updMru_sent (f : Mru → Mru) (s : State) : (s.updMru f).sent = s.sent := rfl
@[simp] theorem State.updMru_freeCount (f : Mru → Mru) (s : State) : (s.updMru f).freeCount = s.freeCount := rfl
@[simp] theorem State.updMru_pending (f : Mru → Mru) (s : State) : (s.updMru f).pending = s.pending := rfl

/-! ## updRcd -/

@[simp] theorem State.updRcd_mgp (f : Rcd → Rcd) (s : State) : (s.updRcd f).mgp = s.mgp := rfl
@[simp] theorem State.updRcd_geo (f : Rcd → Rcd) (s : State) : (s.updRcd f).geo = s.geo := rfl
@[simp] theorem State.updRcd_ses (f : Rcd → Rcd) (s : State) : (s.updRcd f).ses = s.ses := rfl
@[simp] theorem State.updRcd_rgt (f : Rcd → Rcd) (s : State) : (s.updRcd f).rgt = s.rgt := rfl
@[simp] theorem State.updRcd_rtu (f : Rcd → Rcd) (s : State) : (s.updRcd f).rtu = s.rtu := rfl
@[simp] theorem State.updRcd_slk (f : Rcd → Rcd) (s : State) : (s.updRcd f).slk = s.slk := rfl
@[simp] theorem State.updRcd_lanes (f : Rcd → Rcd) (s : State) : (s.updRcd f).lanes = s.lanes := rfl
@[simp] theorem State.updRcd_holdingOrder (f : Rcd → Rcd) (s : State) : (s.updRcd f).holdingOrder = s.holdingOrder := rfl
@[simp] theorem State.updRcd_sbp (f : Rcd → Rcd) (s : State) : (s.updRcd f).sbp = s.sbp := rfl
@[simp] theorem State.updRcd_mru (f : Rcd → Rcd) (s : State) : (s.updRcd f).mru = s.mru := rfl
@[simp] theorem State.updRcd_rcd (f : Rcd → Rcd) (s : State) : (s.updRcd f).rcd = f s.rcd := rfl
@[simp] theorem State.updRcd_lrl (f : Rcd → Rcd) (s : State) : (s.updRcd f).lrl = s.lrl := rfl
@[simp] theorem State.updRcd_mem (f : Rcd → Rcd) (s : State) : (s.updRcd f).mem = s.mem := rfl
@[simp] theorem State.updRcd_now (f : Rcd → Rcd) (s : State) : (s.updRcd f).now = s.now := rfl
@[simp] theorem State.updRcd_sent (f : Rcd → Rcd) (s : State) : (s.updRcd f).sent = s.sent := rfl
@[simp] theorem State.updRcd_freeCount (f : Rcd → Rcd) (s : State) : (s.updRcd f).freeCount = s.freeCount := rfl
@[simp] theorem State.updRcd_pending (f : Rcd → Rcd) (s : State) : (s.updRcd f).pending = s.pending := rfl

/-! ## updLrl -/

@[simp] theorem State.updLrl_mgp (f : Lrl → Lrl) (s : State) : (s.updLrl f).mgp = s.mgp := rfl
@[simp] theorem State.updLrl_geo (f : Lrl → Lrl) (s : State) : (s.updLrl f).geo = s.geo := rfl
@[simp] theorem State.updLrl_ses (f : Lrl → Lrl) (s : State) : (s.updLrl f).ses = s.ses := rfl
@[simp] theorem State.updLrl_rgt (f : Lrl → Lrl) (s : State) : (s.updLrl f).rgt = s.rgt := rfl
@[simp] theorem State.updLrl_rtu (f : Lrl → Lrl) (s : State) : (s.updLrl f).rtu = s.rtu := rfl
@[simp] theorem State.updLrl_slk (f : Lrl → Lrl) (s : State) : (s.updLrl f).slk = s.slk := rfl
@[simp] theorem State.updLrl_lanes (f : Lrl → Lrl) (s : State) : (s.updLrl f).lanes = s.lanes := rfl
@[simp] theorem State.updLrl_holdingOrder (f : Lrl → Lrl) (s : State) : (s.updLrl f).holdingOrder = s.holdingOrder := rfl
@[simp] theorem State.updLrl_sbp (f : Lrl → Lrl) (s : State) : (s.updLrl f).sbp = s.sbp := rfl
@[simp] theorem State.updLrl_mru (f : Lrl → Lrl) (s : State) : (s.updLrl f).mru = s.mru := rfl
@[simp] theorem State.updLrl_rcd (f : Lrl → Lrl) (s : State) : (s.updLrl f).rcd = s.rcd := rfl
@[simp] theorem State.updLrl_lrl (f : Lrl → Lrl) (s : State) : (s.updLrl f).lrl = f s.lrl := rfl
@[simp] theorem State.updLrl_mem (f : Lrl → Lrl) (s : State) : (s.updLrl f).mem = s.mem := rfl
@[simp] theorem State.updLrl_now (f : Lrl → Lrl) (s : State) : (s.updLrl f).now = s.now := rfl
@[simp] theorem State.updLrl_sent (f : Lrl → Lrl) (s : State) : (s.updLrl f).sent = s.sent := rfl
@[simp] theorem State.updLrl_freeCount (f : Lrl → Lrl) (s : State) : (s.updLrl f).freeCount = s.freeCount := rfl
@[simp] theorem State.updLrl_pending (f : Lrl → Lrl) (s : State) : (s.updLrl f).pending = s.pending := rfl

/-! ## updLane -/

@[simp] theorem State.updLane_mgp (n : Fin 4) (f : Lane → Lane) (s : State) : (s.updLane n f).mgp = s.mgp := rfl
@[simp] theorem State.updLane_geo (n : Fin 4) (f : Lane → Lane) (s : State) : (s.updLane n f).geo = s.geo := rfl
@[simp] theorem State.updLane_ses (n : Fin 4) (f : Lane → Lane) (s : State) : (s.updLane n f).ses = s.ses := rfl
@[simp] theorem State.updLane_rgt (n : Fin 4) (f : Lane → Lane) (s : State) : (s.updLane n f).rgt = s.rgt := rfl
@[simp] theorem State.updLane_rtu (n : Fin 4) (f : Lane → Lane) (s : State) : (s.updLane n f).rtu = s.rtu := rfl
@[simp] theorem State.updLane_slk (n : Fin 4) (f : Lane → Lane) (s : State) : (s.updLane n f).slk = s.slk := rfl
@[simp] theorem State.updLane_lanes (n : Fin 4) (f : Lane → Lane) (s : State) : (s.updLane n f).lanes = s.lanes.set n (f s.lanes[n]) := rfl
@[simp] theorem State.updLane_holdingOrder (n : Fin 4) (f : Lane → Lane) (s : State) : (s.updLane n f).holdingOrder = s.holdingOrder := rfl
@[simp] theorem State.updLane_sbp (n : Fin 4) (f : Lane → Lane) (s : State) : (s.updLane n f).sbp = s.sbp := rfl
@[simp] theorem State.updLane_mru (n : Fin 4) (f : Lane → Lane) (s : State) : (s.updLane n f).mru = s.mru := rfl
@[simp] theorem State.updLane_rcd (n : Fin 4) (f : Lane → Lane) (s : State) : (s.updLane n f).rcd = s.rcd := rfl
@[simp] theorem State.updLane_lrl (n : Fin 4) (f : Lane → Lane) (s : State) : (s.updLane n f).lrl = s.lrl := rfl
@[simp] theorem State.updLane_mem (n : Fin 4) (f : Lane → Lane) (s : State) : (s.updLane n f).mem = s.mem := rfl
@[simp] theorem State.updLane_now (n : Fin 4) (f : Lane → Lane) (s : State) : (s.updLane n f).now = s.now := rfl
@[simp] theorem State.updLane_sent (n : Fin 4) (f : Lane → Lane) (s : State) : (s.updLane n f).sent = s.sent := rfl
@[simp] theorem State.updLane_freeCount (n : Fin 4) (f : Lane → Lane) (s : State) : (s.updLane n f).freeCount = s.freeCount := rfl
@[simp] theorem State.updLane_pending (n : Fin 4) (f : Lane → Lane) (s : State) : (s.updLane n f).pending = s.pending := rfl

/-! ## writeMem -/

@[simp] theorem State.writeMem_mgp (a : Nat) (bytes : List Byte) (s : State) : (s.writeMem a bytes).mgp = s.mgp := rfl
@[simp] theorem State.writeMem_geo (a : Nat) (bytes : List Byte) (s : State) : (s.writeMem a bytes).geo = s.geo := rfl
@[simp] theorem State.writeMem_ses (a : Nat) (bytes : List Byte) (s : State) : (s.writeMem a bytes).ses = s.ses := rfl
@[simp] theorem State.writeMem_rgt (a : Nat) (bytes : List Byte) (s : State) : (s.writeMem a bytes).rgt = s.rgt := rfl
@[simp] theorem State.writeMem_rtu (a : Nat) (bytes : List Byte) (s : State) : (s.writeMem a bytes).rtu = s.rtu := rfl
@[simp] theorem State.writeMem_slk (a : Nat) (bytes : List Byte) (s : State) : (s.writeMem a bytes).slk = s.slk := rfl
@[simp] theorem State.writeMem_lanes (a : Nat) (bytes : List Byte) (s : State) : (s.writeMem a bytes).lanes = s.lanes := rfl
@[simp] theorem State.writeMem_holdingOrder (a : Nat) (bytes : List Byte) (s : State) : (s.writeMem a bytes).holdingOrder = s.holdingOrder := rfl
@[simp] theorem State.writeMem_sbp (a : Nat) (bytes : List Byte) (s : State) : (s.writeMem a bytes).sbp = s.sbp := rfl
@[simp] theorem State.writeMem_mru (a : Nat) (bytes : List Byte) (s : State) : (s.writeMem a bytes).mru = s.mru := rfl
@[simp] theorem State.writeMem_rcd (a : Nat) (bytes : List Byte) (s : State) : (s.writeMem a bytes).rcd = s.rcd := rfl
@[simp] theorem State.writeMem_lrl (a : Nat) (bytes : List Byte) (s : State) : (s.writeMem a bytes).lrl = s.lrl := rfl
@[simp] theorem State.writeMem_mem (a : Nat) (bytes : List Byte) (s : State) : (s.writeMem a bytes).mem = s.mem.write a bytes := rfl
@[simp] theorem State.writeMem_now (a : Nat) (bytes : List Byte) (s : State) : (s.writeMem a bytes).now = s.now := rfl
@[simp] theorem State.writeMem_sent (a : Nat) (bytes : List Byte) (s : State) : (s.writeMem a bytes).sent = s.sent := rfl
@[simp] theorem State.writeMem_freeCount (a : Nat) (bytes : List Byte) (s : State) : (s.writeMem a bytes).freeCount = s.freeCount := rfl
@[simp] theorem State.writeMem_pending (a : Nat) (bytes : List Byte) (s : State) : (s.writeMem a bytes).pending = s.pending := rfl

/-! ## emit -/

@[simp] theorem State.emit_mgp (out : Output) (s : State) : (s.emit out).mgp = s.mgp := rfl
@[simp] theorem State.emit_geo (out : Output) (s : State) : (s.emit out).geo = s.geo := rfl
@[simp] theorem State.emit_ses (out : Output) (s : State) : (s.emit out).ses = s.ses := rfl
@[simp] theorem State.emit_rgt (out : Output) (s : State) : (s.emit out).rgt = s.rgt := rfl
@[simp] theorem State.emit_rtu (out : Output) (s : State) : (s.emit out).rtu = s.rtu := rfl
@[simp] theorem State.emit_slk (out : Output) (s : State) : (s.emit out).slk = s.slk := rfl
@[simp] theorem State.emit_lanes (out : Output) (s : State) : (s.emit out).lanes = s.lanes := rfl
@[simp] theorem State.emit_holdingOrder (out : Output) (s : State) : (s.emit out).holdingOrder = s.holdingOrder := rfl
@[simp] theorem State.emit_sbp (out : Output) (s : State) : (s.emit out).sbp = s.sbp := rfl
@[simp] theorem State.emit_mru (out : Output) (s : State) : (s.emit out).mru = s.mru := rfl
@[simp] theorem State.emit_rcd (out : Output) (s : State) : (s.emit out).rcd = s.rcd := rfl
@[simp] theorem State.emit_lrl (out : Output) (s : State) : (s.emit out).lrl = s.lrl := rfl
@[simp] theorem State.emit_mem (out : Output) (s : State) : (s.emit out).mem = s.mem := rfl
@[simp] theorem State.emit_now (out : Output) (s : State) : (s.emit out).now = s.now := rfl
@[simp] theorem State.emit_sent (out : Output) (s : State) : (s.emit out).sent = s.sent ++ [out] := rfl
@[simp] theorem State.emit_freeCount (out : Output) (s : State) : (s.emit out).freeCount = s.freeCount := rfl
@[simp] theorem State.emit_pending (out : Output) (s : State) : (s.emit out).pending = s.pending := rfl

/-! ## beginEvent -/

@[simp] theorem State.beginEvent_mgp  (s : State) : (s.beginEvent).mgp = s.mgp := rfl
@[simp] theorem State.beginEvent_geo  (s : State) : (s.beginEvent).geo = s.geo := rfl
@[simp] theorem State.beginEvent_ses  (s : State) : (s.beginEvent).ses = s.ses := rfl
@[simp] theorem State.beginEvent_rgt  (s : State) : (s.beginEvent).rgt = s.rgt := rfl
@[simp] theorem State.beginEvent_rtu  (s : State) : (s.beginEvent).rtu = s.rtu := rfl
@[simp] theorem State.beginEvent_slk  (s : State) : (s.beginEvent).slk = s.slk := rfl
@[simp] theorem State.beginEvent_lanes  (s : State) : (s.beginEvent).lanes = s.lanes := rfl
@[simp] theorem State.beginEvent_holdingOrder  (s : State) : (s.beginEvent).holdingOrder = s.holdingOrder := rfl
@[simp] theorem State.beginEvent_sbp  (s : State) : (s.beginEvent).sbp = s.sbp := rfl
@[simp] theorem State.beginEvent_mru  (s : State) : (s.beginEvent).mru = s.mru := rfl
@[simp] theorem State.beginEvent_rcd  (s : State) : (s.beginEvent).rcd = s.rcd := rfl
@[simp] theorem State.beginEvent_lrl  (s : State) : (s.beginEvent).lrl = s.lrl := rfl
@[simp] theorem State.beginEvent_mem  (s : State) : (s.beginEvent).mem = s.mem := rfl
@[simp] theorem State.beginEvent_now  (s : State) : (s.beginEvent).now = s.now := rfl
@[simp] theorem State.beginEvent_sent  (s : State) : (s.beginEvent).sent = [] := rfl
@[simp] theorem State.beginEvent_freeCount  (s : State) : (s.beginEvent).freeCount = s.freeCount := rfl
@[simp] theorem State.beginEvent_pending  (s : State) : (s.beginEvent).pending = s.pending := rfl

/-! ## setEvent -/

@[simp] theorem State.setEvent_mgp (e : Event) (s : State) : (s.setEvent e).mgp = s.mgp.setEvent e := rfl
@[simp] theorem State.setEvent_geo (e : Event) (s : State) : (s.setEvent e).geo = s.geo := rfl
@[simp] theorem State.setEvent_ses (e : Event) (s : State) : (s.setEvent e).ses = s.ses := rfl
@[simp] theorem State.setEvent_rgt (e : Event) (s : State) : (s.setEvent e).rgt = s.rgt := rfl
@[simp] theorem State.setEvent_rtu (e : Event) (s : State) : (s.setEvent e).rtu = s.rtu := rfl
@[simp] theorem State.setEvent_slk (e : Event) (s : State) : (s.setEvent e).slk = s.slk := rfl
@[simp] theorem State.setEvent_lanes (e : Event) (s : State) : (s.setEvent e).lanes = s.lanes := rfl
@[simp] theorem State.setEvent_holdingOrder (e : Event) (s : State) : (s.setEvent e).holdingOrder = s.holdingOrder := rfl
@[simp] theorem State.setEvent_sbp (e : Event) (s : State) : (s.setEvent e).sbp = s.sbp := rfl
@[simp] theorem State.setEvent_mru (e : Event) (s : State) : (s.setEvent e).mru = s.mru := rfl
@[simp] theorem State.setEvent_rcd (e : Event) (s : State) : (s.setEvent e).rcd = s.rcd := rfl
@[simp] theorem State.setEvent_lrl (e : Event) (s : State) : (s.setEvent e).lrl = s.lrl := rfl
@[simp] theorem State.setEvent_mem (e : Event) (s : State) : (s.setEvent e).mem = s.mem := rfl
@[simp] theorem State.setEvent_now (e : Event) (s : State) : (s.setEvent e).now = s.now := rfl
@[simp] theorem State.setEvent_sent (e : Event) (s : State) : (s.setEvent e).sent = s.sent := rfl
@[simp] theorem State.setEvent_freeCount (e : Event) (s : State) : (s.setEvent e).freeCount = s.freeCount := rfl
@[simp] theorem State.setEvent_pending (e : Event) (s : State) : (s.setEvent e).pending = s.pending := rfl

/-! ## changeState -/

@[simp] theorem State.changeState_mgp (st : SessionState) (s : State) : (s.changeState st).mgp = s.mgp.setEvent .stateChange := rfl
@[simp] theorem State.changeState_geo (st : SessionState) (s : State) : (s.changeState st).geo = s.geo := rfl
@[simp] theorem State.changeState_ses (st : SessionState) (s : State) : (s.changeState st).ses = { s.ses with state := st } := rfl
@[simp] theorem State.changeState_rgt (st : SessionState) (s : State) : (s.changeState st).rgt = s.rgt := rfl
@[simp] theorem State.changeState_rtu (st : SessionState) (s : State) : (s.changeState st).rtu = s.rtu := rfl
@[simp] theorem State.changeState_slk (st : SessionState) (s : State) : (s.changeState st).slk = s.slk := rfl
@[simp] theorem State.changeState_lanes (st : SessionState) (s : State) : (s.changeState st).lanes = s.lanes := rfl
@[simp] theorem State.changeState_holdingOrder (st : SessionState) (s : State) : (s.changeState st).holdingOrder = s.holdingOrder := rfl
@[simp] theorem State.changeState_sbp (st : SessionState) (s : State) : (s.changeState st).sbp = s.sbp := rfl
@[simp] theorem State.changeState_mru (st : SessionState) (s : State) : (s.changeState st).mru = s.mru := rfl
@[simp] theorem State.changeState_rcd (st : SessionState) (s : State) : (s.changeState st).rcd = s.rcd := rfl
@[simp] theorem State.changeState_lrl (st : SessionState) (s : State) : (s.changeState st).lrl = s.lrl := rfl
@[simp] theorem State.changeState_mem (st : SessionState) (s : State) : (s.changeState st).mem = s.mem := rfl
@[simp] theorem State.changeState_now (st : SessionState) (s : State) : (s.changeState st).now = s.now := rfl
@[simp] theorem State.changeState_sent (st : SessionState) (s : State) : (s.changeState st).sent = s.sent := rfl
@[simp] theorem State.changeState_freeCount (st : SessionState) (s : State) : (s.changeState st).freeCount = s.freeCount := rfl
@[simp] theorem State.changeState_pending (st : SessionState) (s : State) : (s.changeState st).pending = s.pending := rfl

/-! ## answer -/

@[simp] theorem State.answer_mgp (a : Answer) (s : State) : (s.answer a).mgp = s.mgp := rfl
@[simp] theorem State.answer_geo (a : Answer) (s : State) : (s.answer a).geo = s.geo := rfl
@[simp] theorem State.answer_ses (a : Answer) (s : State) : (s.answer a).ses = s.ses := rfl
@[simp] theorem State.answer_rgt (a : Answer) (s : State) : (s.answer a).rgt = s.rgt := rfl
@[simp] theorem State.answer_rtu (a : Answer) (s : State) : (s.answer a).rtu = { s.rtu with answers := s.rtu.answers ++ [a] } := rfl
@[simp] theorem State.answer_slk (a : Answer) (s : State) : (s.answer a).slk = s.slk := rfl
@[simp] theorem State.answer_lanes (a : Answer) (s : State) : (s.answer a).lanes = s.lanes := rfl
@[simp] theorem State.answer_holdingOrder (a : Answer) (s : State) : (s.answer a).holdingOrder = s.holdingOrder := rfl
@[simp] theorem State.answer_sbp (a : Answer) (s : State) : (s.answer a).sbp = s.sbp := rfl
@[simp] theorem State.answer_mru (a : Answer) (s : State) : (s.answer a).mru = s.mru := rfl
@[simp] theorem State.answer_rcd (a : Answer) (s : State) : (s.answer a).rcd = s.rcd := rfl
@[simp] theorem State.answer_lrl (a : Answer) (s : State) : (s.answer a).lrl = s.lrl := rfl
@[simp] theorem State.answer_mem (a : Answer) (s : State) : (s.answer a).mem = s.mem := rfl
@[simp] theorem State.answer_now (a : Answer) (s : State) : (s.answer a).now = s.now := rfl
@[simp] theorem State.answer_sent (a : Answer) (s : State) : (s.answer a).sent = s.sent := rfl
@[simp] theorem State.answer_freeCount (a : Answer) (s : State) : (s.answer a).freeCount = s.freeCount := rfl
@[simp] theorem State.answer_pending (a : Answer) (s : State) : (s.answer a).pending = s.pending := rfl

/-! ## dropReservation -/

@[simp] theorem State.dropReservation_mgp  (s : State) : (s.dropReservation).mgp = s.mgp := rfl
@[simp] theorem State.dropReservation_geo  (s : State) : (s.dropReservation).geo = s.geo := rfl
@[simp] theorem State.dropReservation_ses  (s : State) : (s.dropReservation).ses = s.ses := rfl
@[simp] theorem State.dropReservation_rgt  (s : State) : (s.dropReservation).rgt = s.rgt := rfl
@[simp] theorem State.dropReservation_rtu  (s : State) : (s.dropReservation).rtu = { s.rtu with reservations := s.rtu.reservations - 1 } := rfl
@[simp] theorem State.dropReservation_slk  (s : State) : (s.dropReservation).slk = s.slk := rfl
@[simp] theorem State.dropReservation_lanes  (s : State) : (s.dropReservation).lanes = s.lanes := rfl
@[simp] theorem State.dropReservation_holdingOrder  (s : State) : (s.dropReservation).holdingOrder = s.holdingOrder := rfl
@[simp] theorem State.dropReservation_sbp  (s : State) : (s.dropReservation).sbp = s.sbp := rfl
@[simp] theorem State.dropReservation_mru  (s : State) : (s.dropReservation).mru = s.mru := rfl
@[simp] theorem State.dropReservation_rcd  (s : State) : (s.dropReservation).rcd = s.rcd := rfl
@[simp] theorem State.dropReservation_lrl  (s : State) : (s.dropReservation).lrl = s.lrl := rfl
@[simp] theorem State.dropReservation_mem  (s : State) : (s.dropReservation).mem = s.mem := rfl
@[simp] theorem State.dropReservation_now  (s : State) : (s.dropReservation).now = s.now := rfl
@[simp] theorem State.dropReservation_sent  (s : State) : (s.dropReservation).sent = s.sent := rfl
@[simp] theorem State.dropReservation_freeCount  (s : State) : (s.dropReservation).freeCount = s.freeCount := rfl
@[simp] theorem State.dropReservation_pending  (s : State) : (s.dropReservation).pending = s.pending := rfl

/-! ## updRegion -/

@[simp] theorem State.updRegion_mgp (r : Nat) (f : Region → Region) (s : State) : (s.updRegion r f).mgp = s.mgp := rfl
@[simp] theorem State.updRegion_geo (r : Nat) (f : Region → Region) (s : State) : (s.updRegion r f).geo = s.geo := rfl
@[simp] theorem State.updRegion_ses (r : Nat) (f : Region → Region) (s : State) : (s.updRegion r f).ses = s.ses := rfl
@[simp] theorem State.updRegion_rgt (r : Nat) (f : Region → Region) (s : State) : (s.updRegion r f).rgt = { s.rgt with regions := s.rgt.regions.modify r f } := rfl
@[simp] theorem State.updRegion_rtu (r : Nat) (f : Region → Region) (s : State) : (s.updRegion r f).rtu = s.rtu := rfl
@[simp] theorem State.updRegion_slk (r : Nat) (f : Region → Region) (s : State) : (s.updRegion r f).slk = s.slk := rfl
@[simp] theorem State.updRegion_lanes (r : Nat) (f : Region → Region) (s : State) : (s.updRegion r f).lanes = s.lanes := rfl
@[simp] theorem State.updRegion_holdingOrder (r : Nat) (f : Region → Region) (s : State) : (s.updRegion r f).holdingOrder = s.holdingOrder := rfl
@[simp] theorem State.updRegion_sbp (r : Nat) (f : Region → Region) (s : State) : (s.updRegion r f).sbp = s.sbp := rfl
@[simp] theorem State.updRegion_mru (r : Nat) (f : Region → Region) (s : State) : (s.updRegion r f).mru = s.mru := rfl
@[simp] theorem State.updRegion_rcd (r : Nat) (f : Region → Region) (s : State) : (s.updRegion r f).rcd = s.rcd := rfl
@[simp] theorem State.updRegion_lrl (r : Nat) (f : Region → Region) (s : State) : (s.updRegion r f).lrl = s.lrl := rfl
@[simp] theorem State.updRegion_mem (r : Nat) (f : Region → Region) (s : State) : (s.updRegion r f).mem = s.mem := rfl
@[simp] theorem State.updRegion_now (r : Nat) (f : Region → Region) (s : State) : (s.updRegion r f).now = s.now := rfl
@[simp] theorem State.updRegion_sent (r : Nat) (f : Region → Region) (s : State) : (s.updRegion r f).sent = s.sent := rfl
@[simp] theorem State.updRegion_freeCount (r : Nat) (f : Region → Region) (s : State) : (s.updRegion r f).freeCount = s.freeCount := rfl
@[simp] theorem State.updRegion_pending (r : Nat) (f : Region → Region) (s : State) : (s.updRegion r f).pending = s.pending := rfl

/-! ## setContext -/

@[simp] theorem State.setContext_mgp (n : Fin 4) (c : Option SolveContext) (s : State) : (s.setContext n c).mgp = s.mgp := rfl
@[simp] theorem State.setContext_geo (n : Fin 4) (c : Option SolveContext) (s : State) : (s.setContext n c).geo = s.geo := rfl
@[simp] theorem State.setContext_ses (n : Fin 4) (c : Option SolveContext) (s : State) : (s.setContext n c).ses = s.ses := rfl
@[simp] theorem State.setContext_rgt (n : Fin 4) (c : Option SolveContext) (s : State) : (s.setContext n c).rgt = s.rgt := rfl
@[simp] theorem State.setContext_rtu (n : Fin 4) (c : Option SolveContext) (s : State) : (s.setContext n c).rtu = s.rtu := rfl
@[simp] theorem State.setContext_slk (n : Fin 4) (c : Option SolveContext) (s : State) : (s.setContext n c).slk = s.slk := rfl
@[simp] theorem State.setContext_lanes (n : Fin 4) (c : Option SolveContext) (s : State) : (s.setContext n c).lanes = s.lanes := rfl
@[simp] theorem State.setContext_holdingOrder (n : Fin 4) (c : Option SolveContext) (s : State) : (s.setContext n c).holdingOrder = s.holdingOrder := rfl
@[simp] theorem State.setContext_sbp (n : Fin 4) (c : Option SolveContext) (s : State) : (s.setContext n c).sbp = s.sbp := rfl
@[simp] theorem State.setContext_mru (n : Fin 4) (c : Option SolveContext) (s : State) : (s.setContext n c).mru = s.mru := rfl
@[simp] theorem State.setContext_rcd (n : Fin 4) (c : Option SolveContext) (s : State) : (s.setContext n c).rcd = { s.rcd with contexts := s.rcd.contexts.set n c } := rfl
@[simp] theorem State.setContext_lrl (n : Fin 4) (c : Option SolveContext) (s : State) : (s.setContext n c).lrl = s.lrl := rfl
@[simp] theorem State.setContext_mem (n : Fin 4) (c : Option SolveContext) (s : State) : (s.setContext n c).mem = s.mem := rfl
@[simp] theorem State.setContext_now (n : Fin 4) (c : Option SolveContext) (s : State) : (s.setContext n c).now = s.now := rfl
@[simp] theorem State.setContext_sent (n : Fin 4) (c : Option SolveContext) (s : State) : (s.setContext n c).sent = s.sent := rfl
@[simp] theorem State.setContext_freeCount (n : Fin 4) (c : Option SolveContext) (s : State) : (s.setContext n c).freeCount = s.freeCount := rfl
@[simp] theorem State.setContext_pending (n : Fin 4) (c : Option SolveContext) (s : State) : (s.setContext n c).pending = s.pending := rfl

/-! ## setProgress -/

@[simp] theorem State.setProgress_mgp (q : QualProgress) (s : State) : (s.setProgress q).mgp = s.mgp := rfl
@[simp] theorem State.setProgress_geo (q : QualProgress) (s : State) : (s.setProgress q).geo = s.geo := rfl
@[simp] theorem State.setProgress_ses (q : QualProgress) (s : State) : (s.setProgress q).ses = { s.ses with qualProgress := some q } := rfl
@[simp] theorem State.setProgress_rgt (q : QualProgress) (s : State) : (s.setProgress q).rgt = s.rgt := rfl
@[simp] theorem State.setProgress_rtu (q : QualProgress) (s : State) : (s.setProgress q).rtu = s.rtu := rfl
@[simp] theorem State.setProgress_slk (q : QualProgress) (s : State) : (s.setProgress q).slk = s.slk := rfl
@[simp] theorem State.setProgress_lanes (q : QualProgress) (s : State) : (s.setProgress q).lanes = s.lanes := rfl
@[simp] theorem State.setProgress_holdingOrder (q : QualProgress) (s : State) : (s.setProgress q).holdingOrder = s.holdingOrder := rfl
@[simp] theorem State.setProgress_sbp (q : QualProgress) (s : State) : (s.setProgress q).sbp = s.sbp := rfl
@[simp] theorem State.setProgress_mru (q : QualProgress) (s : State) : (s.setProgress q).mru = s.mru := rfl
@[simp] theorem State.setProgress_rcd (q : QualProgress) (s : State) : (s.setProgress q).rcd = s.rcd := rfl
@[simp] theorem State.setProgress_lrl (q : QualProgress) (s : State) : (s.setProgress q).lrl = s.lrl := rfl
@[simp] theorem State.setProgress_mem (q : QualProgress) (s : State) : (s.setProgress q).mem = s.mem := rfl
@[simp] theorem State.setProgress_now (q : QualProgress) (s : State) : (s.setProgress q).now = s.now := rfl
@[simp] theorem State.setProgress_sent (q : QualProgress) (s : State) : (s.setProgress q).sent = s.sent := rfl
@[simp] theorem State.setProgress_freeCount (q : QualProgress) (s : State) : (s.setProgress q).freeCount = s.freeCount := rfl
@[simp] theorem State.setProgress_pending (q : QualProgress) (s : State) : (s.setProgress q).pending = s.pending := rfl

/-! ## reachTime -/

@[simp] theorem State.reachTime_mgp (d : Nat) (s : State) : (s.reachTime d).mgp = s.mgp := rfl
@[simp] theorem State.reachTime_geo (d : Nat) (s : State) : (s.reachTime d).geo = s.geo := rfl
@[simp] theorem State.reachTime_ses (d : Nat) (s : State) : (s.reachTime d).ses = s.ses := rfl
@[simp] theorem State.reachTime_rgt (d : Nat) (s : State) : (s.reachTime d).rgt = s.rgt := rfl
@[simp] theorem State.reachTime_rtu (d : Nat) (s : State) : (s.reachTime d).rtu = s.rtu := rfl
@[simp] theorem State.reachTime_slk (d : Nat) (s : State) : (s.reachTime d).slk = s.slk := rfl
@[simp] theorem State.reachTime_lanes (d : Nat) (s : State) : (s.reachTime d).lanes = s.lanes := rfl
@[simp] theorem State.reachTime_holdingOrder (d : Nat) (s : State) : (s.reachTime d).holdingOrder = s.holdingOrder := rfl
@[simp] theorem State.reachTime_sbp (d : Nat) (s : State) : (s.reachTime d).sbp = s.sbp := rfl
@[simp] theorem State.reachTime_mru (d : Nat) (s : State) : (s.reachTime d).mru = s.mru := rfl
@[simp] theorem State.reachTime_rcd (d : Nat) (s : State) : (s.reachTime d).rcd = s.rcd := rfl
@[simp] theorem State.reachTime_lrl (d : Nat) (s : State) : (s.reachTime d).lrl = s.lrl := rfl
@[simp] theorem State.reachTime_mem (d : Nat) (s : State) : (s.reachTime d).mem = s.mem := rfl
@[simp] theorem State.reachTime_now (d : Nat) (s : State) : (s.reachTime d).now = max s.now d := rfl
@[simp] theorem State.reachTime_sent (d : Nat) (s : State) : (s.reachTime d).sent = s.sent := rfl
@[simp] theorem State.reachTime_freeCount (d : Nat) (s : State) : (s.reachTime d).freeCount = s.freeCount := rfl
@[simp] theorem State.reachTime_pending (d : Nat) (s : State) : (s.reachTime d).pending = s.pending := rfl

/-! ## Lanes -/

/-- The lane that an update names. -/
theorem State.updLane_get_self (n : Fin 4) (f : Lane → Lane) (s : State) : (s.updLane n f).lanes[n] = f s.lanes[n] := by
  simp [State.updLane]

/-- A lane that an update does not name. -/
theorem State.updLane_get_other {n m : Fin 4} (h : n ≠ m) (f : Lane → Lane) (s : State) :
    (s.updLane n f).lanes[m] = s.lanes[m] := by
  have h' : n.val ≠ m.val := fun e => h (Fin.ext e)
  simp [State.updLane, h']

/-- The session state after a change. -/
theorem State.changeState_state (st : SessionState) (s : State) : (s.changeState st).ses.state = st := rfl

end Sys2Proof.Machine
end

