-- ==== Sys2Proof/Laws/Tags.lean ====
section
/-! SUPPORT. The tags: what the search for the lowest free one finds (R135), and that MRU's tests decide conditions 1 and 2 of
R138. -/

namespace Sys2Proof.Machine

theorem Mru.lowestFreeTag_eq_none (s : State) : s.mru.lowestFreeTag = none ↔ s.NoTagFree := by
  simp [Mru.lowestFreeTag, State.NoTagFree, List.find?_eq_none]

theorem Mru.lowestFreeTag_eq_some (s : State) (k : Nat) : s.mru.lowestFreeTag = some k ↔ s.LowestFree k := by
  unfold Mru.lowestFreeTag State.LowestFree LowestFreeOf
  dsimp only
  rw [List.find?_range_eq_some]
  simp only [List.mem_range, Bool.not_eq_true', List.contains_eq_mem, decide_eq_false_iff_not, List.mem_filterMap,
    Bool.not_not, decide_eq_true_eq, not_exists, not_and]
  tauto

/-- While the tag wait order is empty, a decision may take the lowest free tag. -/
theorem Mru.offeredTag_of_nil (m : Mru) (h : m.tagWait = []) : m.offeredTag = m.lowestFreeTag := by
  simp [Mru.offeredTag, h]

/-- While positions wait for a tag, no decision takes a free one. -/
theorem Mru.offeredTag_of_waiting (m : Mru) (h : m.tagWait ≠ []) : m.offeredTag = none := by
  simp [Mru.offeredTag, h]

theorem State.mayIssue_iff (s : State) (x : Nat) :
    s.MayIssue x ↔ s.mru.hasRoom x = true ∧ s.mru.inPace s.now x = true := by
  unfold State.MayIssue Mru.hasRoom Mru.inPace Mru.recentIssues
  rw [decide_eq_true_iff, decide_eq_true_iff]

end Sys2Proof.Machine
end

