-- ==== Sys2Proof/Tests/Slice0.lean ====
section
/-! SUPPORT. Checks of the model on small states: the ill-formed commands the well-formedness check refuses, the tables and
worked values of the manual, one or two steps of every row, and, for each statement with hypotheses, a state that meets them. -/

namespace Sys2Proof.Tests

open Sys2Proof.Machine

set_option Elab.async false

/-! ## Small states -/

/-- Four positions, strips of one block, 32 stripes in two regions of 16. -/
def profile4 : Profile := { n := 4, l := 1, t := 32, rs := 16, k := 12 }

/-- The profile with one segment of each position based at 0. -/
def geo4 : Geo :=
  { profile := some profile4
    segments := List.replicate 4 (some 0 :: List.replicate 15 none) ++ List.replicate 12 (List.replicate 16 none) }

/-- No session, with the geometry complete. -/
def ready4 : State := { State.reset with geo := geo4 }

/-- A region record of 16 stripes. -/
def region (st : RegionState) (mark : Nat) : Region :=
  { state := st, stripeCount := 16, issueMark := mark, heat := 0, recordCount := 0,
    activation := if st = .stale then none else some 1 }

/-- A session in state `st` whose spare is position 0, both regions STALE. -/
def session (st : SessionState) : State :=
  { ready4 with
    ses := { Ses.absent 4 with state := st, failedPos := some 0, roles := [.spare, .survivor, .survivor, .survivor],
                               batchSize := some 1, fillKind := some .zero }
    rgt := { Rgt.empty 32 with regions := [region .stale 0, region .stale 0], queue := [0, 1], nextActivation := some 1,
                               rebuiltRegions := some 0, rebuiltStripes := some 0 } }

/-- The same session with position 1 the faulted survivor. -/
def degraded (st : SessionState) : State :=
  let s := session st
  { s with ses := { s.ses with roles := [.spare, .faulted, .survivor, .survivor], faultedSurvivor := some 1 } }

/-- The session with the first stripe of region 0 handed to lane 0, which stands in `stage`. -/
def working (st : SessionState) (stage : LaneStage) (outstanding : Nat) : State :=
  let s := session st
  { s with
    rgt := { s.rgt with regions := [region .active 1, region .stale 0], queue := [1], nextActivation := some 2 }
    sbp := { s.sbp with free := s.sbp.free.drop 4 }
    slk := { held := [{ owner := .lane 0, first := 0, count := 1 }], waiting := [] }
    lanes := s.lanes.set 0 { Lane.reset with
      stage := stage
      batch := some { region := 0, first := 0, length := 1 }
      bufs := [0, 1, 2, 3]
      reads := [[{ status := .excluded, left := 0, sawMissing := false, sawMask := 0 },
        { status := .pending, left := 1, sawMissing := false, sawMask := 0 },
        { status := .pending, left := 1, sawMissing := false, sawMask := 0 },
        { status := .pending, left := 1, sawMissing := false, sawMask := 0 }]]
      results := [StripeResult.empty]
      outstanding := outstanding } }

/-- A request of lane 0 at position `x`, with tag `tag`, due at 8,000 ms. -/
def request (kind : RequestKind) (x tag : Nat) : Request :=
  { newRequest kind x { address := 0, blocks := 1, firstBlock := 0 } (BitVec.ofNat 7 x).toFin (.lane 0) with
    tag := some tag, deadline := some 8000 }

/-- The state with the request outstanding at its position. -/
def withOutstanding (r : Request) (s : State) : State :=
  s.updPos r.position fun p => { p with outstanding := p.outstanding ++ [r] }

/-- The state with the request quarantined. -/
def withQuarantined (r : Request) (s : State) : State := s.updMru fun m => { m with quarantined := m.quarantined ++ [r] }

/-- The state after a command, from a state that stands in for a stop. -/
def after (i : Instr) (s : State) : State :=
  match exec i s with
  | .next t => t
  | _ => State.reset

/-- The latest response. -/
def reply (s : State) : Option Reply := s.mgp.responses.getLast?.map (·.reply)

/-- A response of `k` entries stands in the queue. -/
def responses (k : Nat) : List Response := List.replicate k { tag := 0, reply := Reply.done [] }

/-- A command message GET_STATUS. -/
def statusMessage : CommandMessage := { tag := 7, opcode := 0x14, params := [] }

/-! ## Ill-formed commands -/

/-- Byte 3 of a command message counts its parameters (R205). -/
theorem test_wf_refuses_parameters_other_than_counted :
    Instr.wf (.commandArrival [7, 0, 0x10, 2, 4]) = false ∧ Instr.wf (.commandArrival [7, 0, 0x10]) = false ∧
      Instr.wf (.commandArrival [7, 0, 0x10, 1, 4]) = true := by decide +kernel

theorem test_wf_refuses_known_opcode_as_unknown :
    Instr.wf (.unknownCommand 0 0x18 []) = false ∧ Instr.wf (.unknownCommand 0 0x19 []) = true ∧
      Instr.wf (.unknownCommand 0 0 []) = true := by decide +kernel

theorem test_wf_refuses_long_unknown_command : Instr.wf (.unknownCommand 0 0x19 (List.replicate 256 0)) = false := by
  decide +kernel

theorem test_wf_refuses_segments_beyond_31 :
    Instr.wf (.setSegments 0 0 0 (List.replicate 32 { base := 0, kind := 0, unread := 0 })) = false ∧
      Instr.wf (.setSegments 0 0 0 (List.replicate 31 { base := 0, kind := 0, unread := 0 })) = true := by decide +kernel

/-- Byte 3 of a RELEASE counts the 4-byte entries of its list; no list follows a QUERY (R207). -/
theorem test_wf_refuses_list_other_than_counted :
    Instr.wf (.routeRequestArrival [3, 9, 0, 2, 0, 0, 0, 0, 5, 0, 0, 0]) = false ∧
      Instr.wf (.routeRequestArrival [1, 9, 1, 1, 0, 0, 0, 0, 5, 0, 0, 0]) = false ∧
      Instr.wf (.routeRequestArrival [3, 9, 0, 1, 0, 0, 0, 0, 5, 0, 0, 0]) = true := by decide +kernel

theorem test_wf_refuses_long_release : Instr.wf (.release 0 (List.replicate 256 0)) = false := by decide +kernel

theorem test_wf_refuses_known_kind_as_unknown :
    Instr.wf (.unknownRouteKind { kind := 3, tag := 0, count := 0, overCount := 0, first := 0, listed := [] }) = false ∧
      Instr.wf (.unknownRouteKind { kind := 4, tag := 0, count := 0, overCount := 0, first := 0, listed := [] }) = true := by
  decide +kernel

theorem test_wf_refuses_list_behind_an_unknown_kind :
    Instr.wf (.unknownRouteKind { kind := 4, tag := 0, count := 0, overCount := 0, first := 0, listed := [1] }) = false := by
  decide +kernel

theorem test_wf_refuses_data_beyond_a_buffer (data : List Byte) (h : data.length = 262145) :
    Instr.wf (.completion 0 1 0 (List.replicate 8 0) data) = false := by simp [Instr.wf, h]

theorem test_wf_refuses_mask_of_seven_bytes : Instr.wf (.completion 0 1 0 (List.replicate 7 0) []) = false := by decide +kernel

/-! ## Messages read from their bytes -/

/-- R205: SET_PACE with W 4 and a window of 300 ms under tag 0x1234; byte 3 off by one reads as none. -/
theorem test_command_message_bytes :
    CommandMessage.read [0x34, 0x12, 0x0D, 3, 4, 0x2C, 0x01] =
      some { tag := 0x1234, opcode := 0x0D, params := [4, 0x2C, 0x01] } ∧
    decodeCommand 0x0D [4, 0x2C, 0x01] = .command (.setPace 4 300) ∧
    CommandMessage.read [0x34, 0x12, 0x0D, 2, 4, 0x2C, 0x01] = none ∧ CommandMessage.read [0x34, 0x12, 0x0D] = none := by
  decide +kernel

/-- R207: a RELEASE of tag 9 that lists stripes 3 and 0x01020304. -/
theorem test_route_request_bytes :
    RouteRequest.read [3, 9, 0, 2, 0, 0, 0, 0, 3, 0, 0, 0, 4, 3, 2, 1] =
      some { kind := 3, tag := 9, count := 0, overCount := 2, first := 0, listed := [3, 0x01020304] } ∧
    RouteRequest.read [3, 9, 0, 2, 0, 0, 0, 0, 3, 0, 0, 0] = none ∧
    (RouteRequest.read [1, 9, 4, 0, 0x10, 1, 0, 0]).map (fun r => (r.kind, r.count, r.first, r.listed)) =
      some (1, 4, 0x110, []) := by decide +kernel

/-- R209: MEDIUM under tag 5 for position 3, with bits 1 and 8 of the mask set. -/
theorem test_completion_bytes :
    Completion.read [5, 2, 3, 2, 1, 0, 0, 0, 0, 0, 0] = some { tag := 5, status := 2, position := 3, mask := 0x102 } ∧
      Completion.read [5, 2, 3, 2, 1, 0, 0, 0, 0, 0] = none := by decide +kernel

/-- Bytes that are no whole message change nothing (log 19). -/
theorem test_broken_messages_change_nothing :
    after (.commandArrival [7, 0, 0x10, 2, 4]) State.reset = State.reset ∧
      after (.routeRequestArrival [3, 9, 0, 2, 0, 0, 0, 0]) State.reset = State.reset ∧
      after (.completion 5 1 1 [] []) State.reset = State.reset := by decide +kernel

/-! ## Tables and worked values -/

/-- The profile of section 8.8. -/
def profile5 : Profile := { n := 5, l := 8, t := 70, rs := 16, k := 12 }

theorem test_placement_of_table_8_3 :
    [7, 9, 10].map (fun s => (profile5.pPos s, profile5.qPos s, [0, 1, 2].map (profile5.dataPos s), profile5.role s 0)) =
      [(2, 3, [4, 0, 1], .data 1), (0, 1, [2, 3, 4], .p), (4, 0, [1, 2, 3], .q)] := by decide +kernel

theorem test_stripe_7_of_table_8_4 :
    [[0], [0, 1], [0, 2], [0, 3]].map (fun m => (solveCase profile5 7 0 m).value profile5 7 [0, 0x56, 0x70, 0x3F, 0x12]) =
      [0x34, 0x34, 0x34, 0x34] ∧ solveCase profile5 7 0 [0, 1, 3] = .fill ∧
      (solveCase profile5 7 0 [0]).agrees profile5 7 [0, 0x56, 0x70, 0x3F, 0x12] = true ∧
      (solveCase profile5 7 0 [0]).agrees profile5 7 [0, 0x56, 0x70, 0x3E, 0x12] = false := by decide +kernel

theorem test_stripe_9_of_section_8_8 :
    [[0], [0, 3], [0, 1], [0, 4]].map (fun m => (solveCase profile5 9 0 m).value profile5 9 [0, 0x3F, 0x12, 0x34, 0x56]) =
      [0x70, 0x70, 0x70, 0x70] := by decide +kernel

theorem test_stripe_10_of_section_8_8 :
    [[0], [0, 3], [0, 4]].map (fun m => (solveCase profile5 10 0 m).value profile5 10 [0, 0x12, 0x34, 0x56, 0x70]) =
      [0x3F, 0x3F, 0x3F] := by decide +kernel

theorem test_division_of_section_8_8 : gmul 0xB8 (inverse 0x06) = 0x34 ∧ halveTimes 2 0x45 = 0x56 := by decide +kernel

/-- The position-F buffers of blocks 5 and 6 of stripe 9 begin with the stripe and the block (section 8.8). -/
theorem test_marked_fill_of_section_8_8 :
    (fillBytes .marked 9 5).take 7 = [0x09, 0, 0, 0, 0x05, 0xDB, 0xDB] ∧ (fillBytes .marked 9 6).take 5 = [9, 0, 0, 0, 6] := by
  decide +kernel

/-- Events are numbered as Table 10-4 lists them. -/
theorem test_event_bits :
    [Event.stateChange, .qualDone, .rebuildComplete, .recordAdded, .listFull, .memberFaulted, .memberTimeout, .stepDone,
      .commandOverrun, .routeOverrun, .engineReset].map Event.bit = (List.range 11).map (BitVec.twoPow 11) := by decide +kernel

/-- R206: the response to SET_HEAT 300 with tag 0x1234 is DONE with one byte, 255. -/
theorem test_response_bytes :
    Response.bytes { tag := 0x1234, reply := Reply.done [255] } = [0x34, 0x12, 0x01, 0x00, 0x01, 0x00, 255] := by
  decide +kernel

/-- R208: a REPORTED answer for one LOST stripe. -/
theorem test_answer_bytes :
    Answer.bytes { tag := 9, kind := 1, status := .reported, number := 1, stripe := 0x0102,
                   entries := [{ disposition := .current, lost := 0, suspect := 0 }] } =
      [9, 1, 1, 1, 0x02, 0x01, 0, 0] ++ DispositionEntry.bytes { disposition := .current, lost := 0, suspect := 0 } := by
  decide +kernel

/-- R209: a write of 8 blocks from block 16 of buffer 1 to member block 65,520 of position 3, under tag 5. -/
theorem test_member_request_bytes :
    Request.bytes { request .write 3 5 with address := 65520, blocks := 8, buf := 1, firstBlock := 16 } 5 =
      [5, 3, 1, 8, 0xF0, 0xFF, 0, 0, 0, 0, 0x00, 0x00, 0x05, 0x00] := by decide +kernel

/-! ## Steps -/

theorem test_step_takes_the_front_command :
    step { State.reset with pending := [.responseRead, .powerOnReset] } = exec .responseRead { State.reset with pending := [.powerOnReset] } :=
  rfl

/-- Tags 1, 3 and 4 of section 10.7, and a SET_GEOMETRY whose parameter length is 10. -/
theorem test_bring_up_of_section_10_7 :
    ((reply (after (.getStatus 1) State.reset)).map (·.payload.length) = some 35 ∧
      reply (after (.start 3) State.reset) = some Reply.refusedState) ∧
      reply (after (.unknownCommand 4 0x30 []) State.reset) = some (Reply.refuse .unknownCommand) ∧
      reply (after (.commandArrival ([5, 0, 1, 10] ++ List.replicate 10 0)) State.reset) =
        some (Reply.refuse .refusedRange) := by decide +kernel

theorem test_setGeometry_answers_the_need :
    reply (after (.setGeometry 1 4 1 32 16 12) State.reset) = some (Reply.done [2, 0, 1, 0, 0, 0, 4, 0]) := by decide +kernel

theorem test_setSegments_counts_the_missing :
    reply (after (.setSegments 1 0 0 [{ base := 8, kind := 0, unread := 0 }])
      { State.reset with geo := { Geo.reset with profile := some profile4 } }) = some (Reply.done [3, 0]) := by decide +kernel

theorem test_setSegments_finds_the_overlap :
    reply (after (.setSegments 1 0 1 [{ base := 4088, kind := 0, unread := 0 }]) ready4) = some (Reply.refuse .overlap) := by
  decide +kernel

theorem test_openSession_skips_qualification :
    reply (after (.openSession 1 0 1 9 0 0 0 1 1) ready4) = some (Reply.done [0x02, 4]) := by decide +kernel

/-- START hands the four lanes their first batches, and each waits for nothing: four lanes in READING. -/
theorem test_start_hands_out_batches :
    (after (.start 1) (session .ready)).lanes.toList.map (fun l => (l.stage, l.batch.map (·.first), l.outstanding)) =
      [(.reading, some 0, 3), (.reading, some 1, 3), (.reading, some 2, 3), (.reading, some 3, 3)] := by decide +kernel

theorem test_step_hands_out_one_batch :
    (after (.step 1) (session .paused)).lanes.toList.map (·.stage) = [.reading, .idle, .idle, .idle] := by decide +kernel

theorem test_pause_with_idle_lanes : (after (.pause 1) (session .running)).ses.state = .paused := by decide +kernel

theorem test_resume_runs : (after (.resume 1) (session .paused)).ses.state = .running := by decide +kernel

theorem test_abort_fails_the_session :
    (after (.abort 1) (working .running .reading 3)).lanes[0] = { Lane.reset with outcome := .abandoned } := by decide +kernel

theorem test_closeSession_returns_to_absent :
    (after (.closeSession 1) (session .complete)).ses = Ses.absent 4 := by decide +kernel

theorem test_memberDown_breaks_a_degraded_session : (after (.memberDown 1 2) (degraded .running)).ses.state = .broken := by
  decide +kernel

theorem test_promote_moves_to_the_head : (after (.promote 1 1) (session .ready)).rgt.queue = [1, 0] := by decide +kernel

theorem test_demote_moves_to_the_tail : (after (.demote 1 0) (session .ready)).rgt.queue = [1, 0] := by decide +kernel

theorem test_settings_are_clamped :
    (after (.setPace 1 33 0) State.reset).mru.paceLimit = 32 ∧ (after (.setPace 1 33 0) State.reset).mru.paceWindow = 1 ∧
      (after (.setTimeout 1 99) State.reset).mru.timeout = 100 ∧ (after (.setHeat 1 256) State.reset).rgt.heatThreshold = 255 ∧
      (after (.setLanes 1 0) State.reset).ses.laneCount = 1 ∧ (after (.setCheck 1 0) State.reset).rcd.check = false := by
  decide +kernel

/-- R198: bits 11 to 15 of an event set are not read; R199: the line follows. -/
theorem test_event_line_rises_and_falls :
    let s := after (.setEventEnables 1 0xF801) { State.reset with mgp := { Mgp.reset with status := 3 } }
    s.mgp.enables = 1 ∧ s.mgp.line = true ∧ (after (.ackEvents 2 1) s).mgp.line = false := by decide +kernel

theorem test_getRegion_reports_the_queue_place :
    reply (after (.getRegion 1 1) (session .ready)) =
      some (Reply.done [1, 0, 16, 0, 0, 0, 0, 0, 0, 0, 0, 0, 0xFF, 0xFF, 1, 0]) := by decide +kernel

/-- A state with one record, for stripe 3. -/
def recorded (st : SessionState) : State :=
  let s := session st
  { s with lrl := { records := [{ stripe := 3, lost := 1, suspect := 0, contributors := [1, 3] }] }
           rgt := { s.rgt with regions := [{ region .rebuilt 16 with recordCount := 1 }, region .stale 0] } }

theorem test_listRecords_pages :
    reply (after (.listRecords 1 3 1) (recorded .ready)) =
      some (Reply.done ([1, 0] ++ [3, 0, 0, 0] ++ [1, 0, 0, 0, 0, 0, 0, 0] ++ [0, 0, 0, 0, 0, 0, 0, 0] ++ [0x0A, 0])) := by
  decide +kernel

theorem test_forgive_retires :
    (after (.forgive 1 3) (recorded .ready)).lrl.records = [] ∧
      (after (.forgive 1 3) (recorded .ready)).rgt.regions.map (·.recordCount) = [0, 0] := by decide +kernel

theorem test_resetEngine_keeps_geometry :
    (after (.resetEngine 1) (session .ready)).geo = geo4 ∧
      (after (.resetEngine 1) (session .ready)).mgp.status = Event.bit .engineReset := by decide +kernel

theorem test_query_reports_a_lost_stripe :
    ((after (.query 1 1 3) (recorded .ready)).rtu.answers.map fun a => (a.status, a.entries)) =
      [(.reported, [{ disposition := .lost, lost := 1, suspect := 0 }])] := by decide +kernel

/-- A claim over a lane's entry waits; the release of a held claim is answered. -/
theorem test_claim_waits_behind_a_lane :
    (after (.claim 9 2 0) (working .running .reading 3)).slk.waiting = [{ owner := .claim 9, first := 0, count := 2 }] ∧
      (after (.claim 9 2 0) (working .running .reading 3)).rtu.reservations = 1 := by decide +kernel

theorem test_release_retires_and_answers :
    let s := { recorded .ready with slk := { held := [{ owner := .claim 9, first := 2, count := 2 }], waiting := [] } }
    ((after (.release 9 [3, 3, 7]) s).rtu.answers.map fun a => (a.status, a.number)) = [(.released, 1)] ∧
      (after (.release 9 [3, 3, 7]) s).lrl.records = [] := by decide +kernel

theorem test_unknown_kind_is_out_of_range :
    ((after (.unknownRouteKind { kind := 4, tag := 8, count := 0, overCount := 0, first := 0, listed := [] })
      State.reset).rtu.answers.map fun a => (a.tag, a.kind, a.status)) = [(8, 4, .range)] := by decide +kernel

/-- Reads of an empty queue hand over the empty indication. -/
theorem test_reads_of_empty_queues :
    (after .responseRead State.reset).sent = [.response [0, 0, 0, 0, 0, 0]] ∧
      (after .answerRead State.reset).sent = [.answer [0, 0, 0, 0, 0, 0, 0, 0]] := by decide +kernel

/-- The last read of a lane takes it to SOLVING. -/
theorem test_completion_settles_the_last_read :
    (after (.completion 5 1 1 (bytes64 0) [0xAA]) (withOutstanding (request .read 1 5) (working .running .reading 1))).lanes[0].stage =
      .solving ∧
    (after (.completion 5 1 1 (bytes64 0) [0xAA]) (withOutstanding (request .read 1 5) (working .running .reading 1))).mem =
      [(262144, 0xAA)] := by decide +kernel

theorem test_timeout_quarantines :
    let s := after (.timeout 5) (withOutstanding (request .read 1 5) (working .running .reading 3))
    s.now = 8000 ∧ s.mru.quarantined.map (·.deadline) = [some 16000] ∧ (s.mru.pos 1).timeouts = 1 := by decide +kernel

theorem test_quarantineEnd_frees_the_tag :
    (after (.quarantineEnd 5) (withQuarantined (request .read 1 5) State.reset)).mru.quarantined = [] := by decide +kernel

/-- Position 1 with one request held back by pacing, its expiry at 20 ms. -/
def paced : State :=
  ((session .running).updMru fun m => { m with paceLimit := 1 }).updPos 1 fun p =>
    { p with queue := [{ request .read 1 5 with tag := none, deadline := none }], history := [0], expiry := some 20 }

theorem test_pacingExpiry_issues_the_head :
    (after (.pacingExpiry 1) paced).now = 20 ∧ ((after (.pacingExpiry 1) paced).mru.pos 1).outstanding.map (·.tag) = [some 0] := by
  decide +kernel

/-- A fault of position 2 leaves the head of position 1 alone although its expiry is due, and lets it be issued when position 2
drops a request that held a tag (R139). -/
theorem test_memberDown_decides_elsewhere_at_a_freed_tag :
    let s := { paced with now := 20 }
    let dropping := s.updPos 2 fun p => { p with queue := [{ request .read 2 6 with deadline := none }] }
    (after (.memberDown 1 2) s).mru.pos 1 = s.mru.pos 1 ∧
      ((after (.memberDown 1 2) dropping).mru.pos 1).outstanding.map (·.tag) = [some 0] := by decide +kernel

theorem test_rcdTakeBlock_needs_a_context : after (.rcdTakeBlock 0) State.reset = State.reset := by decide +kernel

theorem test_powerOnReset_clears_the_session : after .powerOnReset (working .running .reading 3) = State.reset := by
  decide +kernel

/-- A step with no command waiting takes the deadline that is due, or lets a millisecond pass. -/
theorem test_idle_steps :
    (match step State.reset with | .next t => t.now | _ => 0) = 1 ∧
      (match step { withQuarantined (request .read 1 5) State.reset with now := 8000 } with
        | .next t => t.mru.quarantined.length | _ => 9) = 0 := by decide +kernel

/-! ## States that meet the hypotheses of the statements: the step and the Management Port -/

/-- The queues of the Management Port hold `c` commands and `r` responses. -/
def queued (c r : Nat) (s : State) : State :=
  s.updMgp fun m => { m with commands := List.replicate c statusMessage, responses := responses r }

/-- A quarantine that ends at 8,000 ms, at the time given. -/
def waitingUntil8000 (now : Nat) : State := { withQuarantined (request .read 1 5) State.reset with now := now }

theorem test_meets_EveryStepAnswers :
    (State.reset.pending = [] ∧ ∀ e ∈ State.reset.mru.timeEvents, State.reset.now < e.1) ∧
    (∀ e ∈ (waitingUntil8000 7999).mru.timeEvents, (waitingUntil8000 7999).now < e.1) ∧
    (waitingUntil8000 8000).pending = [] ∧ ∃ e ∈ (waitingUntil8000 8000).mru.timeEvents, e.1 ≤ (waitingUntil8000 8000).now := by decide +kernel

theorem test_meets_CommandQueuesOrIsDiscarded :
    statusMessage.params.length ≤ 255 ∧ (queued 15 16 State.reset).mgp.commands.length < 16 ∧ 16 ≤ (queued 16 16 State.reset).mgp.commands.length ∧
      16 ≤ (queued 16 16 State.reset).mgp.responses.length := by decide +kernel

theorem test_meets_CommandsTakenInOrder :
    (queued 0 3 State.reset).mgp.commands = [] ∧ 16 ≤ (queued 1 16 State.reset).mgp.responses.length ∧
      (queued 1 15 State.reset).mgp.commands = statusMessage :: [] ∧ (queued 1 15 State.reset).mgp.responses.length < 16 := by
  decide +kernel

theorem test_meets_ResponseReadFromHead :
    State.reset.mgp.responses = [] ∧ (queued 0 16 State.reset).mgp.responses = { tag := 0, reply := Reply.done [] } :: responses 15 ∧
      (responses 15).length < 16 ∧ (queued 0 16 State.reset).mgp.commands = [] := by decide +kernel

theorem test_meets_DecodeChecksInOrder :
    ([0, 0, 31] ++ List.replicate 248 (0 : Byte)).length ≤ 255 ∧ State.reset.HostReady ∧ (queued 0 15 State.reset).HostReady ∧ (0 : Byte).toNat = 0 ∧ 24 < (25 : Byte).toNat ∧
      1 ≤ (1 : Byte).toNat ∧ (24 : Byte).toNat ≤ 24 ∧ lengthFits { tag := 0, opcode := 1, params := List.replicate 10 0 } = false ∧
      lengthFits { tag := 0, opcode := 24, params := [0] } = false ∧
      lengthFits { tag := 0, opcode := 2, params := [0, 0] } = false ∧
      lengthFits { tag := 0, opcode := 24, params := [] } = true ∧
      lengthFits { tag := 0, opcode := 2, params := [0, 0, 31] ++ List.replicate 248 0 } = true := by
  unfold State.HostReady; decide +kernel

theorem test_meets_RowsSpellTheirMessages :
    (List.replicate 255 (0 : BitVec 32)).length ≤ 255 ∧
      (List.replicate 31 ({ base := 8, kind := 0, unread := 0 } : SegmentElement)).length ≤ 31 ∧
      ListsAsCounted { kind := 4, tag := 8, count := 0, overCount := 7, first := 0, listed := [] } := by
  unfold ListsAsCounted; decide +kernel

theorem test_meets_MessagesReadAsWritten :
    (HostCommand.openSession 255 255 255 255 65535 (2 ^ 48 - 1) 255 255).fits ∧
      (HostCommand.setSegments 255 255 (List.replicate 31 { base := 8, kind := 0, unread := 0 })).fits ∧
      (HostCommand.listRecords (2 ^ 32 - 1) 0).fits ∧ HostCommand.resetEngine.fits := by
  simp [HostCommand.fits]

theorem test_meets_RefusalsChangeNothing :
    (HostCommand.start.fits ∧ (session .running).HostReady ∧ (session .running).ses.state ∉ acceptedIn .start) ∧
    ((HostCommand.setCheck 1).fits ∧ (session .running).HostReady ∧ (session .running).ses.state ∉ acceptedIn (.setCheck 1)) ∧
    (runCommand .start (session .running)).2.code = .refusedState ∧
    (runCommand (.promote 0) (working .running .reading 3)).2.reason = .notStale ∧
    (runCommand .getStatus State.reset).2.code ≠ .refusedState := by
  refine ⟨⟨trivial, ?_⟩, ⟨by simp [HostCommand.fits], ?_⟩, ?_⟩ <;> (try unfold State.HostReady) <;> decide +kernel

/-! ## Geometry -/

theorem test_meets_SetGeometryResult :
    ((session .ready).HostReady ∧ (session .ready).ses.state ≠ .absent) ∧
    (State.reset.HostReady ∧ State.reset.ses.state = .absent ∧
      ¬Profile.Fits { n := 3, l := 1, t := 1, rs := 16, k := 12 } ∧ ¬Profile.Fits { n := 17, l := 1, t := 1, rs := 16, k := 12 } ∧
      ¬Profile.Fits { n := 4, l := 65, t := 1, rs := 16, k := 12 } ∧ ¬Profile.Fits { n := 4, l := 1, t := 0, rs := 16, k := 12 } ∧
      ¬Profile.Fits { n := 4, l := 1, t := 262145, rs := 16, k := 12 } ∧
      ¬Profile.Fits { n := 4, l := 1, t := 1, rs := 24, k := 12 } ∧ ¬Profile.Fits { n := 4, l := 1, t := 1, rs := 16, k := 31 }) ∧
    Profile.Fits { n := 4, l := 1, t := 1, rs := 16, k := 12 } ∧
    Profile.Fits { n := 16, l := 64, t := 1073741824, rs := 65536, k := 30 } := by
  simp only [← Profile.inRange_iff]; unfold State.HostReady; decide +kernel

/-- The entries a load of `elements` from index `f` leaves at position `x` (R10). -/
def loaded (s : State) (x f : Nat) (elements : List SegmentElement) (j : Nat) : Option Nat :=
  if f ≤ j ∧ j < f + elements.length then (elements[j - f]?).bind fun e => if e.kind = 0 then some e.base.toNat else none
  else s.geo.entry x j

/-- One base. -/
def base (b : Nat) : SegmentElement := { base := BitVec.ofNat 48 b, kind := 0, unread := 0 }

theorem test_meets_SetSegmentsResult :
    (ready4.HostReady ∧ ready4.geo.Shaped ∧ ready4.ses.state = .absent ∧ ready4.geo.profile = some profile4 ∧ profile4.Fits) ∧
    ((session .ready).ses.state ≠ .absent ∧ State.reset.geo.profile = none ∧ State.reset.geo.Shaped) ∧
    (¬(4 : Byte).toNat < profile4.n ∧ ¬1 ≤ ([] : List SegmentElement).length ∧ ¬2 + (List.replicate 15 (base 0)).length ≤ 16) ∧
    ((∃ e ∈ [base 12], ¬(e.base.toNat % 8 = 0)) ∧ (∃ e ∈ [base (2 ^ 48 - 8)], ¬e.base.toNat + 2 ^ profile4.k ≤ 2 ^ 48) ∧
      ∃ e ∈ [{ base 0 with kind := 2 }], ¬(e.kind = 1 ∨ e.kind = 0)) ∧
    ((3 : Byte).toNat < profile4.n ∧ 1 + [base 4088].length ≤ 16 ∧
      (∀ e ∈ [base 4088, base (2 ^ 48 - 4096)], e.base.toNat % 8 = 0 ∧ e.base.toNat + 2 ^ profile4.k ≤ 2 ^ 48)) ∧
    (∃ i j a b, 1 ≤ i ∧ i < 1 + [base 4088].length ∧ j < 16 ∧ i ≠ j ∧ loaded ready4 0 1 [base 4088] i = some a ∧
      loaded ready4 0 1 [base 4088] j = some b ∧ a < b + 2 ^ profile4.k ∧ b < a + 2 ^ profile4.k) := by
  refine ⟨?_, ?_, ?_, ?_, ?_, ⟨1, 0, 4088, 0, ?_⟩⟩ <;> (try simp only [← Profile.inRange_iff]) <;>
    (try unfold State.HostReady) <;> (try unfold Geo.Shaped) <;>
    decide +kernel

/-- A base one segment above the first shares nothing with it. -/
theorem test_meets_SetSegmentsResult_without_overlap :
    ¬∃ i j a b, 1 ≤ i ∧ i < 1 + [base 4096].length ∧ j < 16 ∧ i ≠ j ∧ loaded ready4 0 1 [base 4096] i = some a ∧
      loaded ready4 0 1 [base 4096] j = some b ∧ a < b + 2 ^ profile4.k ∧ b < a + 2 ^ profile4.k := by
  rintro ⟨i, j, a, b, h1, h2, h3, h4, h5, h6, h7, h8⟩
  obtain rfl : i = 1 := by simp only [List.length_singleton] at h2; omega
  have ha : a = 4096 := by
    have : loaded ready4 0 1 [base 4096] 1 = some 4096 := by decide +kernel
    rw [this] at h5; exact (Option.some.inj h5).symm
  have hk : 2 ^ profile4.k = 4096 := by decide
  have none_above : ∀ j < 16, j ≠ 0 → j ≠ 1 → loaded ready4 0 1 [base 4096] j = none := by decide +kernel
  by_cases hj : j = 0
  · subst hj
    have : loaded ready4 0 1 [base 4096] 0 = some 0 := by decide +kernel
    rw [this] at h6
    have := Option.some.inj h6
    omega
  · rw [none_above j h3 hj (Ne.symm h4)] at h6
    exact absurd h6 (by simp)

theorem test_meets_PlacementAndExtents_placement :
    4 ≤ profile4.n ∧ 1 < profile4.n - 2 ∧ 3 < profile4.n ∧ (3 ≠ profile4.pPos 1 ∧ 2 ≠ profile4.pPos 0) ∧
      (1 ≠ profile4.pPos 0 ∧ 1 ≠ profile4.qPos 0) ∧ profile5.n = 5 ∧ 4 ≤ profile5.n := by decide +kernel

/-- Strips of 24 blocks in segments of 65,536, with two bases (section 1.8). -/
def profile24 : Profile := { n := 6, l := 24, t := 4000, rs := 16, k := 16 }

/-- Two bases at position 0. -/
def geo24 : Geo := { profile := some profile24, segments := [some 0 :: some 131072 :: List.replicate 14 none] }

theorem test_meets_PlacementAndExtents :
    (profile4.Fits ∧ geo4.entry 0 (4095 * profile4.l / 2 ^ profile4.k) = some 0 ∧
      4095 * profile4.l % 2 ^ profile4.k + profile4.l ≤ 2 ^ profile4.k ∧ profile4.l = 2 ^ 0 ∧ 2 ^ profile4.k % profile4.l = 0) ∧
    (profile24.Fits ∧ geo24.entry 0 0 = some 0 ∧ geo24.entry 0 1 = some 131072 ∧ 2730 * profile24.l / 2 ^ profile24.k = 0 ∧
      2 ^ profile24.k < 2730 * profile24.l % 2 ^ profile24.k + profile24.l ∧ profile24.l = 24 ∧ profile24.k = 16) := by
  simp only [← Profile.inRange_iff]; decide +kernel

/-! ## Sessions -/

/-- Every entry a session needs is set: one of each position. -/
theorem complete_ready4 : ∀ x j, x < profile4.n → j < 1 → ready4.geo.entry x j ≠ none := by
  have : ∀ x < 4, ready4.geo.entry x 0 ≠ none := by decide +kernel
  intro x j hx hj
  obtain rfl : j = 0 := by omega
  exact this x hx

theorem test_meets_OpenSessionChecks :
    (ready4.HostReady ∧ ready4.ses.state = .absent ∧ ready4.geo.profile = some profile4 ∧ State.reset.geo.profile = none) ∧
    (¬(4 : Byte).toNat < profile4.n ∧ ¬(5 : Byte).toNat ≤ 4 ∧ ¬(2 : BitVec 16).toNat < (profile4.t + profile4.rs - 1) / profile4.rs) ∧
    ((3 : Byte).toNat < profile4.n ∧ (4 : Byte).toNat ≤ 4 ∧ (1 : BitVec 16).toNat < (profile4.t + profile4.rs - 1) / profile4.rs) ∧
    (profile4.t * profile4.l ≤ 16 * 2 ^ profile4.k ∧ (profile4.t * profile4.l + 2 ^ profile4.k - 1) / 2 ^ profile4.k = 1 ∧
      ¬64 * 1025 ≤ 16 * 2 ^ 12) ∧
    (¬(9 : Byte).toNat ≤ 8 ∧ (8 : Byte).toNat ≤ 8 ∧ (2 ^ 48 - 8) + 8 * profile4.l ≤ 2 ^ 48 ∧ ¬(2 ^ 48 - 7) + 8 * profile4.l ≤ 2 ^ 48) ∧
    (∃ j base, j < 16 ∧ ready4.geo.entry 0 j = some base ∧ 4095 < base + 2 ^ profile4.k ∧ base < 4095 + 1 * profile4.l) := by
  refine ⟨by unfold State.HostReady; decide +kernel, by decide, by decide, by decide, by decide, 0, 0, by decide +kernel⟩

/-- The area behind the one segment of position 0 shares nothing with it. -/
theorem test_meets_OpenSessionChecks_with_a_free_area :
    ¬∃ j base, j < 16 ∧ ready4.geo.entry 0 j = some base ∧ 4096 < base + 2 ^ profile4.k ∧ base < 4096 + 1 * profile4.l := by
  rintro ⟨j, b, hj, he, h, -⟩
  have : ∀ j < 16, ready4.geo.entry 0 j = none ∨ ready4.geo.entry 0 j = some 0 := by decide +kernel
  have hk : 2 ^ profile4.k = 4096 := by decide
  rcases this j hj with e | e <;> rw [e] at he
  · exact absurd he (by simp)
  · have := Option.some.inj he; omega

/-- SBP without free buffers, with the free pool at two, and with a request waiting. -/
def freeLeft (k : Nat) (s : State) : State := s.updSbp fun p => { p with free := p.free.take k }

theorem test_meets_OpenSessionAccepted :
    (ready4.HostReady ∧ ready4.ses.state = .absent ∧ ready4.geo.profile = some profile4 ∧ (3 : Byte).toNat < profile4.n ∧
      1 ≤ (1 : Byte).toNat ∧ (4 : Byte).toNat ≤ 4 ∧ (1 : BitVec 16).toNat < profile4.regionCount ∧ (1 : Byte).toNat ≤ 1) ∧
    (ready4.geo.sessionProblem profile4 3 0 1 true = none ∧ ready4.geo.sessionProblem profile4 3 4096 8 false = none) ∧
    ((freeLeft 2 ready4).sbp.waiting = [] ∧ 2 ≤ (freeLeft 2 ready4).sbp.free.length ∧
      (freeLeft 2 ready4).mru.namesQuarantined ((freeLeft 2 ready4).sbp.free.getD 0 0) = false) ∧
    (freeLeft 1 ready4).sbp.free.length < 2 := by
  unfold State.HostReady; decide +kernel

theorem test_meets_StartAndResumeAssignBatches :
    ((session .ready).HostReady ∧ (session .ready).ses.state = .ready ∧ (session .paused).ses.state = .paused) ∧
    ((3 : Fin 4).val < (session .ready).ses.laneCount ∧ (session .ready).lanes[(3 : Fin 4)].stage = .idle) ∧
    (working .paused .reading 3).lanes[(0 : Fin 4)].stage ≠ .idle := by
  unfold State.HostReady; decide +kernel

/-- LN0 is served first, and each lane gets the batch that is next after the one before it (R57). -/
theorem test_pass_serves_lanes_in_order :
    (List.finRange 4).map (fun n => (after (.start 0) (session .ready)).lanes[n].batch) =
      [0, 1, 2, 3].map fun k => some { region := 0, first := k, length := 1 } := by decide +kernel

/-- Every region REBUILT. -/
def finished (st : SessionState) : State :=
  let s := session st
  { s with rgt := { s.rgt with regions := [region .rebuilt 16, region .rebuilt 16], queue := [] } }

theorem test_meets_PauseDrains :
    ((session .running).HostReady ∧ (session .running).ses.state = .running ∧ (session .suspended).ses.state = .suspended) ∧
    (¬∀ n : Fin 4, (working .running .reading 3).lanes[n].stage = .idle) ∧
    ((∀ n : Fin 4, (session .running).lanes[n].stage = .idle) ∧ ¬∀ r ∈ (session .running).rgt.regions, r.state = .rebuilt) ∧
    (∀ n : Fin 4, (finished .running).lanes[n].stage = .idle) ∧ ∀ r ∈ (finished .running).rgt.regions, r.state = .rebuilt := by
  unfold State.HostReady; decide +kernel

theorem test_meets_StepGivesLane0OneBatch :
    ((session .ready).HostReady ∧ (session .ready).ses.state = .ready ∧ (session .ready).lanes[0].stage = .idle) ∧
    ((session .ready).rgt.nextBatch (session .ready).profile.rs ((session .ready).ses.batchSize.getD 0)).isSome = true := by
  unfold State.HostReady; decide +kernel

theorem test_meets_AbortEndsSession :
    (session .qualifying).HostReady ∧ (session .qualifying).ses.state ∈ acceptedIn .abort ∧
      (session .complete).ses.state ∈ acceptedIn .abort := by unfold State.HostReady; decide +kernel

theorem test_meets_CloseSessionForgets :
    (session .ready).HostReady ∧ ∀ st ∈ [SessionState.ready, .paused, .complete, .failed, .broken],
      (session st).ses.state ∈ acceptedIn .closeSession := by unfold State.HostReady; decide +kernel

theorem test_meets_MemberDownEscalates :
    ((session .running).HostReady ∧ (session .running).ses.state ∈ acceptedIn (.memberDown 4)) ∧
    ((session .running).profile.n ≤ (4 : Byte).toNat ∧ (3 : Byte).toNat < (session .running).profile.n) ∧
    ((degraded .running).ses.roles[1]? = some .faulted ∧ (degraded .running).ses.roles[0]? = some .spare ∧
      (degraded .running).ses.roles[3]? = some .survivor ∧ (degraded .running).ses.faultedSurvivor ≠ none) ∧
    ((session .running).ses.roles[3]? = some .survivor ∧ (session .running).ses.faultedSurvivor = none) ∧
    (∀ k ∈ [1, 3], (working .running .reading k).lanes[(0 : Fin 4)].stage = .reading ∧
      ((working .running .reading k).lanes[(0 : Fin 4)].outstanding -
        (((working .running .reading k).lanes[(0 : Fin 4)].reads.map fun row => (row[3]?.map (·.left)).getD 0).sum) = k - 1)) ∧
    (∀ q ∈ (paced.mru.pos 1).queue, q.tag = none) ∧
    (working .running .solving 0).lanes[(0 : Fin 4)].stage = .solving ∧
    (working .running .writing 1).lanes[(0 : Fin 4)].stage = .writing := by unfold State.HostReady; decide +kernel

theorem test_meets_ResetEngineResult : (working .suspended .writing 1).HostReady := by unfold State.HostReady; decide +kernel

/-! ## The rebuild order -/

theorem test_meets_QueueReordersAndHeatRises :
    ((working .running .reading 3).HostReady ∧ (working .running .reading 3).ses.state ∈ acceptedIn (.promote 1)) ∧
    (working .running .reading 3).rgt.regions.length ≤ (2 : BitVec 16).toNat ∧
    (∃ r, (working .running .reading 3).rgt.regions[0]? = some r ∧ r.state ≠ .stale) ∧
    ∃ r, (working .running .reading 3).rgt.regions[1]? = some r ∧ r.state = .stale := by
  refine ⟨by unfold State.HostReady; decide +kernel, by decide +kernel, ⟨region .active 1, by decide +kernel⟩,
    region .stale 0, by decide +kernel⟩

theorem test_meets_QueueReordersAndHeatRises_heat : 1 ≤ profile4.rs ∧ 15 ≤ 16 ∧ 15 / profile4.rs = 0 ∧ 16 / profile4.rs = 1 := by decide

theorem test_meets_NextBatchFromTwoSources :
    (let g := (working .running .reading 3).rgt
      ∃ r, g.regions[0]? = some r ∧ r.state = .active ∧ r.issueMark < r.stripeCount) ∧
    ((session .ready).rgt.queue = 0 :: [1] ∧ (session .ready).rgt.regions[0]? = some (region .stale 0) ∧
      ∀ r ∈ (session .ready).rgt.regions, ¬(r.state = .active ∧ r.issueMark < r.stripeCount)) ∧
    ((finished .ready).rgt.queue = [] ∧
      ∀ r ∈ (finished .ready).rgt.regions, ¬(r.state = .active ∧ r.issueMark < r.stripeCount)) := by
  refine ⟨⟨region .active 1, by decide +kernel⟩, by decide +kernel, by decide +kernel⟩

/-- A region whose last batch has ended, with no lane at work. -/
def handedOut : State :=
  let s := session .draining
  { s with rgt := { s.rgt with regions := [region .active 16, region .stale 0], queue := [1] } }

theorem test_meets_BatchEndCountsAndClears :
    ((working .draining .settling 0).lanes[(0 : Fin 4)].batch = some { region := 0, first := 0, length := 1 } ∧
      (working .draining .settling 0).ses.state ≠ .running ∧ (working .draining .settling 0).ses.state ≠ .suspended) ∧
    (handedOut.rgt.regions[0]? = some (region .active 16) ∧ (region .active 16).state = .active ∧
      (region .active 16).issueMark = (region .active 16).stripeCount ∧ ∀ n : Fin 4, handedOut.lanes[n].batch = none) ∧
    ((working .draining .settling 0).rgt.regions[0]? = some (region .active 1) ∧
      (region .active 1).issueMark ≠ (region .active 1).stripeCount) := by decide +kernel

/-- Lane 0 at the last batch of the last region, alone at work. -/
def lastBatch (st : SessionState) : State :=
  let s := working st .settling 0
  { s with rgt := { s.rgt with regions := [region .active 16, region .rebuilt 16], queue := [] } }

/-- The exits: every region REBUILT after the batch and the other lanes IDLE, a batch left, another lane at work, and a claim
that waits behind the lane's stripe. -/
theorem test_meets_BatchEndCountsAndClears_exits :
    (∀ st ∈ [SessionState.running, .suspended, .draining, .stepping],
      ((lastBatch st).lanes[(0 : Fin 4)].batch = some { region := 0, first := 0, length := 1 } ∧ (lastBatch st).ses.state = st ∧
        (lastBatch st).slk.waiting = [] ∧ (lastBatch st).sbp.waiting = [] ∧ (lastBatch st).holdingOrder = [] ∧
        (∀ m : Fin 4, m ≠ 0 → (lastBatch st).lanes[m].stage = .idle)) ∧
      (∀ r ∈ (({ lastBatch st with lanes := (lastBatch st).lanes.set 0 Lane.reset } : State).testRegion 0).rgt.regions,
        r.state = .rebuilt) ∧
      ¬∀ r ∈ (({ working st .settling 0 with
          lanes := (working st .settling 0).lanes.set 0 Lane.reset } : State).testRegion 0).rgt.regions, r.state = .rebuilt) ∧
    (let s := { lastBatch .suspended with lanes := (lastBatch .suspended).lanes.set 1 { Lane.reset with stage := .holding }
                                          holdingOrder := [1] };
      s.holdingOrder ≠ [] ∧ ¬∀ m : Fin 4, m ≠ 0 → s.lanes[m].stage = .idle) ∧
    ((lastBatch .running).WaitersAtWork 0 ∧
      ({ lastBatch .draining with
        slk := { held := [], waiting := [{ owner := .claim 9, first := 0, count := 1 }] } } : State).WaitersAtWork 0) := by
  unfold State.WaitersAtWork; decide +kernel

/-! ## Settings, events and reports -/

theorem test_meets_SettingsTakenAndClamped :
    ((session .ready).HostReady ∧ (session .ready).ses.state ∈ acceptedIn (.setCheck 1) ∧ (1 : Byte).toNat ≤ 1 ∧
      1 < (2 : Byte).toNat) ∧ ((session .ready).mru.pos 15).queue = [] := by unfold State.HostReady; decide +kernel

theorem test_meets_SettingsTakenAndClamped_pace :
    paced.HostReady ∧ paced.TagOrderServed ∧ (paced.mru.pos 1).queue ≠ [] :=
  ⟨by unfold State.HostReady; decide +kernel, .inl rfl, by decide +kernel⟩

/-- A raised W releases the head at once, and a longer window moves its expiry (R141). -/
theorem test_setPace_decides_under_the_new_setting :
    ((after (.setPace 0 2 20) paced).mru.pos 1).outstanding.map (·.tag) = [some 0] ∧
      ((after (.setPace 0 1 50) paced).mru.pos 1).expiry = some 50 := by decide +kernel

/-- A running session with a lane count of 3. -/
def threeLanes : State := (session .running).updSes fun e => { e with laneCount := 3 }

theorem test_meets_SettingsTakenAndClamped_lanes :
    (threeLanes.HostReady ∧ threeLanes.ses.state = .running ∧ threeLanes.ses.laneCount < 4 ∧ 3 ≤ threeLanes.ses.laneCount ∧
      threeLanes.lanes[(3 : Fin 4)].stage = .idle) ∧ (session .ready).ses.state ≠ .running := by
  unfold State.HostReady; decide +kernel

theorem test_meets_EnableAndAcknowledgeEvents : State.reset.HostReady := by unfold State.HostReady; decide +kernel

theorem test_meets_StatusReport : (session .running).HostReady ∧ 3 < ((session .running).geo.profile.map (·.n)).getD 0 := by
  unfold State.HostReady; decide +kernel

theorem test_meets_RegionAndRecordReports :
    ((recorded .failed).HostReady ∧ (recorded .failed).ses.state ≠ .absent) ∧ (recorded .failed).rgt.regions[2]? = none ∧
      (recorded .failed).rgt.regions[1]? = some (region .stale 0) ∧
      ((0 : Byte).toNat < 1 ∧ 8 < (9 : Byte).toNat ∧ 1 ≤ (1 : Byte).toNat ∧ (8 : Byte).toNat ≤ 8) := by
  unfold State.HostReady; decide +kernel

/-- The record's stripe under a held claim of one stripe. -/
def claimed (st : SessionState) : State :=
  { recorded st with slk := { held := [{ owner := .claim 9, first := 3, count := 1 }], waiting := [] } }

theorem test_meets_ForgiveRetiresOneRecord :
    ((recorded .ready).HostReady ∧ (recorded .ready).ses.state ∈ acceptedIn (.forgive 3)) ∧
    ((recorded .ready).profile.t ≤ (32 : BitVec 32).toNat ∧ (31 : BitVec 32).toNat < (recorded .ready).profile.t ∧
      ∀ r ∈ (recorded .ready).lrl.records, r.stripe ≠ 31) ∧
    ((recorded .ready).lrl.records.find? (fun r => r.stripe == 3)).isSome = true ∧
    (∃ e ∈ (claimed .ready).slk.held, e.owner.isClaim = true ∧ e.first ≤ 3 ∧ 3 < e.first + e.count) ∧
    (recorded .ready).slk.held = [] ∧ (recorded .ready).holdingOrder = [] := by unfold State.HostReady; decide +kernel

theorem test_meets_MessageCodesAndLayouts : 7 < 8 ∧ 63 < 64 ∧ 15 < 16 := by decide

/-! ## The Route Port -/

/-- The queues of the Route Port hold `q` requests, `a` answers and `k` reservations. -/
def routed (q a k : Nat) (s : State) : State :=
  { s with rtu := { requests := List.replicate q { kind := 1, tag := 0, count := 1, overCount := 0, first := 0, listed := [] }
                    answers := List.replicate a { tag := 0, kind := 1, status := .range, number := 0, stripe := 0, entries := [] }
                    reservations := k } }

theorem test_meets_RequestQueuesOrIsDiscarded :
    ListsAsCounted { kind := 3, tag := 9, count := 0, overCount := 1, first := 0, listed := [5] } ∧ (routed 31 64 0 State.reset).rtu.requests.length < 32 ∧ 32 ≤ (routed 32 36 28 State.reset).rtu.requests.length ∧
      64 ≤ (routed 32 36 28 State.reset).rtu.answers.length + (routed 32 36 28 State.reset).rtu.reservations := by
  unfold ListsAsCounted; decide +kernel

theorem test_meets_RequestsTakenAndAnswersRead :
    ((routed 0 3 0 State.reset).rtu.requests = [] ∧
      64 ≤ (routed 1 64 0 State.reset).rtu.answers.length + (routed 1 64 0 State.reset).rtu.reservations) ∧
    ((routed 1 63 0 State.reset).rtu.requests.length = 1 ∧
      (routed 1 63 0 State.reset).rtu.answers.length + (routed 1 63 0 State.reset).rtu.reservations < 64) ∧
    (State.reset.rtu.answers = [] ∧ (routed 0 1 0 State.reset).rtu.answers ≠ []) ∧
    ((routed 0 63 0 State.reset).RouteReady ∧ (4 : Byte) ≠ 1 ∧ (0 : Byte) ≠ 3 ∧
      ListsAsCounted { kind := 0, tag := 8, count := 0, overCount := 7, first := 0, listed := [] }) := by
  unfold State.RouteReady ListsAsCounted; decide +kernel

theorem test_meets_QueryAnswered :
    ((session .ready).RouteReady ∧ State.reset.ses.state = .absent ∧ (session .failed).ses.state = .failed) ∧
    ((session .ready).ses.state ≠ .absent ∧ ¬((session .ready).ses.state = .failed ∨ (session .ready).ses.state = .broken)) ∧
    (¬1 ≤ (0 : Byte).toNat ∧ ¬(17 : Byte).toNat ≤ 16 ∧ ¬17 + 16 ≤ (session .ready).profile.t) ∧
    (1 ≤ (16 : Byte).toNat ∧ (16 : Byte).toNat ≤ 16 ∧ 16 + 16 ≤ (session .ready).profile.t) := by
  unfold State.RouteReady; decide +kernel

theorem test_meets_DispositionOfAStripe :
    (let s := working .running .reading 3;
      s.rgt.regions[0 / s.profile.rs]? = some (region .active 1) ∧ s.rgt.regions[16 / s.profile.rs]? = some (region .stale 0) ∧
        (1 - 1 / s.profile.rs * s.profile.rs = 1) ∧ (region .active 1).issueMark ≤ 1 ∧ 0 < (region .active 1).issueMark ∧
        s.lanes[(0 : Fin 4)].batch = some { region := 0, first := 0, length := 1 } ∧
        ∀ n : Fin 4, n ≠ 0 → s.lanes[n].batch = none) ∧
    ((working .running .buffering 0).lanes[(0 : Fin 4)].stage = .buffering) ∧
    ((recorded .running).rgt.regions[3 / (recorded .running).profile.rs]?.map (·.state) = some .rebuilt ∧
      (recorded .running).lrl.records.find? (fun y => y.stripe == 3) =
        some { stripe := 3, lost := 1, suspect := 0, contributors := [1, 3] } ∧
      ∀ x ∈ (recorded .running).lrl.records, x.stripe ≠ 4) ∧
    (handedOut.rgt.regions[15 / handedOut.profile.rs]? = some (region .active 16) ∧ 15 < (region .active 16).issueMark ∧
      ∀ n : Fin 4, handedOut.lanes[n].batch = none) := by decide +kernel

/-- 28 claims wait for the lane's stripe. -/
def crowded : State :=
  let s := working .running .reading 3
  { s with
    slk := { s.slk with waiting := (List.range 28).map fun k => { owner := .claim (BitVec.ofNat 8 k), first := 0, count := 1 } }
    rtu := { s.rtu with reservations := 28 } }

theorem test_meets_ClaimGrantedOrWaits :
    ((working .running .reading 3).RouteReady ∧ crowded.RouteReady ∧ (working .running .reading 3).ses.state ≠ .absent ∧
      ¬((working .running .reading 3).ses.state = .failed ∨ (working .running .reading 3).ses.state = .broken)) ∧
    (1 ≤ (16 : Byte).toNat ∧ (16 : Byte).toNat ≤ 16 ∧ 16 + 16 ≤ crowded.profile.t ∧ ¬17 + 16 ≤ crowded.profile.t) ∧
    ((∃ e ∈ crowded.slk.held ++ crowded.slk.waiting, e.owner = .claim 27) ∧
      ¬∃ e ∈ crowded.slk.held ++ crowded.slk.waiting, e.owner = .claim 28) ∧
    ((crowded.slk.waiting.filter fun w => w.owner.isClaim).length = 28 ∧
      ((working .running .reading 3).slk.waiting.filter fun w => w.owner.isClaim).length < 28) ∧
    ¬MayBeGranted crowded.slk.held crowded.slk.waiting { owner := .claim 28, first := 0, count := 1 } ∧
    ¬MayBeGranted (working .running .reading 3).slk.held (working .running .reading 3).slk.waiting
      { owner := .claim 28, first := 0, count := 1 } := by
  simp only [← grantable_iff]; unfold State.RouteReady; decide +kernel

/-- A claim beside the lane's stripe may be granted at intake. -/
theorem test_meets_ClaimGrantedOrWaits_free :
    MayBeGranted (working .running .reading 3).slk.held (working .running .reading 3).slk.waiting
      { owner := .claim 28, first := 1, count := 16 } := by
  rw [← grantable_iff]; decide +kernel

theorem test_meets_ReleaseEndsClaim :
    ((claimed .ready).RouteReady ∧ (claimed .ready).RecordsInOrder ∧ (List.replicate 255 (3 : BitVec 32)).length ≤ 255) ∧
    ((claimed .ready).slk.held.find? (fun e => e.owner == .claim 9)).isSome = true ∧
    (crowded.slk.held.find? (fun e => e.owner == .claim 9) = none ∧
      (crowded.slk.waiting.find? fun e => e.owner == .claim 9) ≠ none) ∧
    ((claimed .ready).slk.held.find? (fun e => e.owner == .claim 8) = none ∧
      (claimed .ready).slk.waiting.find? (fun e => e.owner == .claim 8) = none) := by
  unfold State.RouteReady State.RecordsInOrder; decide +kernel

/-- Lane 0 waits for its lock, with a claim behind it. -/
def locking : State :=
  let s := working .running .locking 0
  { s with slk := { held := [], waiting := [{ owner := .lane 0, first := 0, count := 1 },
                                            { owner := .claim 9, first := 0, count := 1 }] } }

/-- A scan grants the lane's request, the lane enters READING, and the claim stays. -/
theorem test_meets_ScanGrantsInOrder :
    locking.scanLocks.slk.held = [{ owner := .lane 0, first := 0, count := 1 }] ∧
      locking.scanLocks.slk.waiting = [{ owner := .claim 9, first := 0, count := 1 }] ∧
      locking.lanes[(0 : Fin 4)].batch = some { region := 0, first := 0, length := 1 } ∧
      locking.scanLocks.lanes[(0 : Fin 4)].stage = .reading := by decide +kernel

/-- A claim granted by a scan stands beside the lane's request, which names its batch. -/
theorem test_meets_ScanGrantsInOrder_answers :
    let s := { locking with slk := { held := [], waiting := [{ owner := .lane 0, first := 0, count := 1 },
                                                             { owner := .claim 9, first := 1, count := 2 }] }
                            rtu := { locking.rtu with reservations := 1 } }
    s.RequestsNameBatches ∧
      s.scanLocks.rtu.answers.map (fun a => (a.status, a.entries.map (·.disposition))) = [(.granted, [.stale, .stale])] := by
  refine ⟨fun e he n b hn hb => ?_, by decide +kernel⟩
  have : ∀ n : Fin 4, locking.lanes[n].batch = none ∨
      (n = 0 ∧ locking.lanes[n].batch = some { region := 0, first := 0, length := 1 }) := by decide +kernel
  simp only [List.mem_cons, List.not_mem_nil, or_false] at he
  rcases he with rfl | rfl
  · rcases this n with h | ⟨-, h⟩ <;> rw [h] at hb
    · exact absurd hb (by simp)
    · obtain rfl := Option.some.inj hb; decide
  · exact absurd hn (by simp)

/-! ## Lanes, buffers and records -/

/-- A lane's request is granted over an empty held table and waits behind a held claim; an SBP head fits or does not. -/
theorem test_meets_LaneDrawsBuffersAndReads_lock :
    MayBeGranted [] [] { owner := .lane 0, first := 0, count := 1 } ∧
      ¬MayBeGranted [{ owner := .claim 9, first := 0, count := 1 }] [] { owner := .lane 0, first := 0, count := 1 } ∧
      ∀ k ∈ [3, 4], ((freeLeft k (session .running)).updSbp fun p =>
        { p with waiting := [{ owner := .lane 0, size := 4 }] }).sbp.free.length = k := by
  simp only [← grantable_iff]; decide +kernel

theorem test_meets_LaneDrawsBuffersAndReads :
    ((freeLeft 4 (session .running)).sbp.waiting = [] ∧ 4 ≤ (freeLeft 4 (session .running)).sbp.free.length ∧
      (freeLeft 3 (session .running)).sbp.free.length < 4) ∧
    ((working .running .locking 0).lanes[(0 : Fin 4)].batch.isSome = true ∧ (working .running .locking 0).profile.inRange = true ∧
      (working .running .locking 0).mru.positions.length = 16 ∧ (working .running .locking 0).ses.failedPos = some 0) := by
  decide +kernel

/-- The record list full, with records for stripes 16 and up; lane 0 writes with stripe 0 lost. -/
def full : State :=
  let s := working .running .writing 1
  { s with
    lrl := { records := (List.range 256).map fun k => { stripe := 16 + k, lost := 1, suspect := 0, contributors := [] } }
    lanes := s.lanes.set 0 { s.lanes[0] with results := [{ lost := 1, suspect := 0, contributors := [1, 2] }] } }

theorem test_meets_OffersAndHolding :
    ((recorded .running).lrl.records.length < 256 ∧ (recorded .running).RecordsInOrder ∧
      ∀ x ∈ (recorded .running).lrl.records, x.stripe ≠ 4) ∧
    (256 ≤ full.lrl.records.length ∧ full.lanes[(0 : Fin 4)].batch = some { region := 0, first := 0, length := 1 } ∧
      ((List.range' 0 1).filter fun stripe =>
        let r := full.lanes[(0 : Fin 4)].results.getD (stripe - 0) StripeResult.empty
        r.lost != 0 || r.suspect != 0) ≠ []) := by
  unfold State.RecordsInOrder; decide +kernel

/-- Lane 0 of `full` with `k` records in the list, stripe 0 offered. -/
def offering (k : Nat) (stage : LaneStage) : State :=
  { full with lrl := { records := full.lrl.records.take k }
              lanes := full.lanes.set 0 { full.lanes[(0 : Fin 4)] with stage := stage, offers := [0] } }

theorem offering_in_order (k : Nat) (stage : LaneStage) : (offering k stage).RecordsInOrder := by
  have records : (offering k stage).lrl.records = full.lrl.records.take k := rfl
  refine ⟨?_, ?_⟩ <;> rw [records]
  · exact List.Pairwise.sublist (List.take_sublist ..)
      (List.pairwise_map.mpr (List.pairwise_lt_range.imp fun h => Nat.add_lt_add_left h 16))
  · have : full.lrl.records.length = 256 := by decide +kernel
    rw [List.length_take]
    omega

/-- The last spare write completes; the list has room for the one record, or is full. -/
theorem test_meets_LastSpareWriteSettlesBatch :
    (let s := withOutstanding (request .write 0 5) (offering 255 .writing);
      s.mru.findOutstanding 5 = some (request .write 0 5) ∧ (request .write 0 5).kind = .write ∧
        (request .write 0 5).owner = some (.lane 0) ∧ s.lanes[(0 : Fin 4)].stage = .writing ∧
        s.lanes[(0 : Fin 4)].outstanding = 1) ∧
    (∀ k, (offering k .settling).RecordsInOrder) ∧
    (∀ k ∈ [255, 256], (offering k .settling).lanes[(0 : Fin 4)].batch = some { region := 0, first := 0, length := 1 } ∧
      (offering k .settling).lrl.records.length = k ∧ ∀ x ∈ (offering k .settling).lrl.records, x.stripe ∉ [0]) :=
  ⟨by decide +kernel, fun k => offering_in_order k _, by decide +kernel⟩

/-- Lane 0 holds stripe 0, with room for its record or without. -/
theorem test_meets_HoldersServedInOrder :
    (session .running).holdingOrder = [] ∧ (∀ k, ({ offering k .holding with holdingOrder := [0] } : State).RecordsInOrder) ∧
    ∀ k ∈ [255, 256], let s := { offering k .holding with holdingOrder := [0] }
      s.holdingOrder = 0 :: [] ∧ s.lanes[(0 : Fin 4)].batch = some { region := 0, first := 0, length := 1 } ∧
        s.lanes[(0 : Fin 4)].offers.Nodup ∧ s.lrl.records.length = k ∧
        ∀ x ∈ s.lrl.records, x.stripe ∉ s.lanes[(0 : Fin 4)].offers :=
  ⟨by decide +kernel, fun k => offering_in_order k .holding, by decide +kernel⟩

/-! ## Member requests -/

/-- A state whose MRU holds the one outstanding request of a position below 16 holds each tag once. -/
theorem tagsHeldOnce_of_records (s : State) (length : s.mru.positions.length = 16)
    (named : ∀ x < 16, ∀ r ∈ (s.mru.pos x).queue ++ (s.mru.pos x).outstanding, r.position = x)
    (once : (s.mru.records.filterMap (·.tag)).Nodup) : s.TagsHeldOnce := by
  refine ⟨length, fun x => ?_, once⟩
  by_cases h : x < 16
  · exact named x h
  · have : s.mru.pos x = PosState.reset := by
      simp only [Mru.pos, List.getD_eq_getElem?_getD]
      rw [List.getElem?_eq_none (by omega)]
      rfl
    rw [this]
    simp [PosState.reset]

/-- One lane request outstanding at its position, under tag 5. -/
def oneRequest (kind : RequestKind) (x defers : Nat) (rewritten : Bool) (stage : LaneStage) (outstanding : Nat) : State :=
  withOutstanding { request kind x 5 with defers := defers, rewritten := rewritten } (working .running stage outstanding)

theorem test_meets_ReadSettlesAtItsLane :
    (∀ k ∈ [0, 7], (oneRequest .read 1 k false .reading 3).mru.findOutstanding 5 = some { request .read 1 5 with defers := k }) ∧
    ((request .read 1 5).kind = .read ∧ (request .read 1 5).owner = some (.lane 0) ∧ (request .read 1 5).blocks ≤ 64) ∧
    (∀ k ∈ [1, 3], (oneRequest .read 1 0 false .reading k).lanes[(0 : Fin 4)].stage = .reading ∧
      (oneRequest .read 1 0 false .reading k).lanes[(0 : Fin 4)].outstanding = k) ∧
    (∀ k ∈ [1, 2], ({ status := .pending, left := k, sawMissing := false, sawMask := 0 } : ReadCell).status = .pending) := by
  decide +kernel

/-- The request of a read and of a write each stands once (the premise of `RequestEnded`). -/
theorem test_meets_ReadSettlesAtItsLane_tags :
    (oneRequest .read 1 0 false .reading 1).TagsHeldOnce ∧ (oneRequest .write 0 0 false .writing 2).TagsHeldOnce :=
  ⟨tagsHeldOnce_of_records _ (by decide +kernel) (by decide +kernel) (by decide +kernel),
    tagsHeldOnce_of_records _ (by decide +kernel) (by decide +kernel) (by decide +kernel)⟩

/-- A QWRITE of qualification, before and after its rewrite and its defer retries. -/
theorem test_meets_SpareWriteCompletesOrFails_qwrite :
    ∀ k ∈ [0, 6, 7], ∀ w ∈ [false, true],
      (withOutstanding { request .qwrite 0 5 with owner := some .qualification, defers := k, rewritten := w }
        (session .qualifying)).mru.findOutstanding 5 =
          some { request .qwrite 0 5 with owner := some .qualification, defers := k, rewritten := w } := by decide +kernel

theorem test_meets_SpareWriteCompletesOrFails :
    (∀ k ∈ [0, 6, 7], ∀ w ∈ [false, true], (oneRequest .write 0 k w .writing 2).mru.findOutstanding 5 =
      some { request .write 0 5 with defers := k, rewritten := w }) ∧
    ((request .write 0 5).kind = .write ∧ (request .write 0 5).owner = some (.lane 0) ∧ (request .write 0 5).position < 16) ∧
    ((oneRequest .write 0 0 false .writing 2).lanes[(0 : Fin 4)].stage = .writing ∧
      2 ≤ (oneRequest .write 0 0 false .writing 2).lanes[(0 : Fin 4)].outstanding ∧
      (oneRequest .write 0 0 false .writing 2).mru.positions.length = 16) := by decide +kernel

theorem test_meets_LostCompletionFaultsPosition :
    ((oneRequest .read 1 0 false .reading 3).mru.findOutstanding 5 = some (request .read 1 5) ∧
      (oneRequest .read 1 0 false .reading 3).ses.state ∈ acceptedIn .abort) ∧
    ((oneRequest .read 1 0 false .reading 3).ses.roles[1]? = some .survivor ∧
      (oneRequest .read 1 0 false .reading 3).ses.faultedSurvivor = none) ∧
    (oneRequest .write 0 0 false .writing 2).ses.roles[0]? = some .spare ∧
    (withOutstanding (request .read 2 5) (degraded .running)).ses.roles[2]? = some .survivor ∧
    (withOutstanding (request .read 2 5) (degraded .running)).ses.faultedSurvivor ≠ none ∧
    (degraded .running).ses.roles[1]? = some .faulted ∧ (oneRequest .read 1 0 false .reading 3).mru.tagWait = [] ∧
    (oneRequest .write 0 0 false .writing 2).mru.tagWait = [] := by decide +kernel

theorem test_meets_QuarantineEndsAndDiscards :
    (4 < (5 : Byte).toNat ∧ 1 ≤ (1 : Byte).toNat ∧ (4 : Byte).toNat ≤ 4 ∧ State.reset.mru.findOutstanding 5 = none ∧
      State.reset.mru.findQuarantined 5 = none) ∧
    (State.reset.mru.standing (.timeout 5) = none ∧ State.reset.mru.standing (.quarantineEnd 5) = none ∧
      State.reset.mru.standing (.pacing 15) = none) ∧
    ((withQuarantined (request .read 1 5) State.reset).mru.findOutstanding 5 = none ∧
      (withQuarantined (request .read 1 5) State.reset).mru.findQuarantined 5 ≠ none ∧
      (withQuarantined (request .read 1 5) State.reset).mru.standing (.quarantineEnd 5) = some 8000 ∧
      (withQuarantined (request .read 1 5) State.reset).sbp.waiting = []) := by decide +kernel

/-- The request's position has counted `k` timeouts. -/
def counted (k : Nat) (s : State) : State := s.updPos 1 fun p => { p with timeouts := k }

theorem test_meets_TimeoutQuarantinesRequest :
    (∀ k ∈ [1, 2], let s := counted k (oneRequest .read 1 0 false .reading 3)
      s.mru.standing (.timeout 5) = some 8000 ∧ s.mru.findOutstanding 5 = some (request .read 1 5) ∧
        s.mru.positions.length = 16 ∧ (s.mru.pos 1).timeouts + 1 = k + 1 ∧ s.lanes[(0 : Fin 4)].stage = .reading ∧
        2 ≤ s.lanes[(0 : Fin 4)].outstanding ∧ s.ses.state ∈ acceptedIn .abort ∧ s.ses.roles[1]? = some .survivor ∧
        s.ses.faultedSurvivor = none ∧ ∀ q ∈ (s.mru.pos 1).queue, q.tag = none) ∧
    (oneRequest .read 1 0 false .reading 1).lanes[(0 : Fin 4)].outstanding = 1 ∧
    (let s := (withOutstanding (request .read 2 5) (degraded .running)).updPos 2 fun p => { p with timeouts := 2 };
      s.mru.standing (.timeout 5) = some 8000 ∧ s.mru.findOutstanding 5 = some (request .read 2 5) ∧
        s.ses.roles[2]? = some .survivor ∧ s.ses.faultedSurvivor ≠ none ∧ (s.mru.pos 2).timeouts + 1 = 3) ∧
    (withOutstanding (request .read 1 5) (degraded .running)).ses.roles[1]? = some .faulted ∧
    ((oneRequest .write 0 0 false .writing 2).mru.standing (.timeout 5) = some 8000 ∧
      (oneRequest .write 0 0 false .writing 2).mru.findOutstanding 5 = some (request .write 0 5) ∧
      (oneRequest .write 0 0 false .writing 2).ses.roles[0]? = some .spare) := by decide +kernel

/-- Every tag belongs to a quarantined request, and position 1 waits for one with a request at its head. -/
def starved : State :=
  ((session .running).updPos 1 fun p => { p with queue := [{ request .read 1 5 with tag := none, deadline := none }] }).updMru
    fun m => { m with quarantined := (List.range 256).map (request .read 2), tagWait := [1] }

theorem starved_noTagFree : starved.NoTagFree := fun k hk =>
  ⟨request .read 2 k, List.mem_append_right _ (List.mem_map_of_mem (List.mem_range.mpr hk)), rfl⟩

theorem test_meets_TagWaitServedInOrder :
    (starved.TagsHeldOnce ∧ starved.NoTagFree ∧ starved.mru.tagWait = 1 :: [] ∧ starved.mru.tagWait.Nodup) ∧
    ((starved.mru.pos 1).queue = [{ request .read 1 5 with tag := none, deadline := none }] ∧ starved.MayIssue 1 ∧
      ({ starved with now := 8000 } : State).MayIssue 1 ∧ (starved.mru.pos 2).queue = []) ∧
    (starved.mru.findOutstanding 7 = none ∧ starved.mru.findQuarantined 7 ≠ none ∧
      starved.mru.standing (.quarantineEnd 7) = some 8000) ∧
    ({ starved with mru := { starved.mru with quarantined := [] } } : State).LowestFree 0 := by
  have tags : starved.mru.records.filterMap (·.tag) = List.range 256 := by decide +kernel
  refine ⟨⟨tagsHeldOnce_of_records _ (by decide +kernel) (by decide +kernel) (tags ▸ List.nodup_range), starved_noTagFree,
    rfl, by decide +kernel⟩, ?_, by decide +kernel, ?_⟩
  · unfold State.MayIssue; decide +kernel
  · refine ⟨⟨by decide, by decide +kernel⟩, fun j hj => absurd hj (Nat.not_lt_zero j)⟩

/-- The same with tag 5 at an OUTSTANDING read of lane 0. -/
def starvedReading : State :=
  withOutstanding (request .read 3 5) (starved.updMru fun m => { m with quarantined := m.quarantined.eraseIdx 5 })

theorem test_meets_TagWaitServedInOrder_completion :
    starvedReading.TagsHeldOnce ∧ starvedReading.NoTagFree ∧ starvedReading.mru.tagWait = [1] ∧
      starvedReading.mru.findOutstanding 5 = some (request .read 3 5) ∧ (request .read 3 5).owner = some (.lane 0) ∧
      ((after (.completion 5 1 3 (bytes64 0) []) starvedReading).mru.pos 1).outstanding.map (·.tag) = [some 5] := by
  have tags : starvedReading.mru.records.filterMap (·.tag) = 5 :: (List.range 256).erase 5 := by decide +kernel
  have once : (5 :: (List.range 256).erase 5).Nodup :=
    List.nodup_cons.mpr ⟨List.nodup_range.not_mem_erase, List.nodup_range.erase 5⟩
  refine ⟨tagsHeldOnce_of_records _ (by decide +kernel) (by decide +kernel) (tags ▸ once), fun k hk => ?_, by decide +kernel⟩
  have : k ∈ starvedReading.mru.records.filterMap (·.tag) := by
    rw [tags]
    by_cases h : k = 5
    · exact h ▸ List.mem_cons_self
    · exact List.mem_cons_of_mem _ ((List.mem_erase_of_ne h).mpr (List.mem_range.mpr hk))
  simpa using List.mem_filterMap.mp this

/-- Positions wait for a tag while one is free, or none is and nobody waits: the cases of a decision's premises. -/
theorem test_meets_TagWaitServedInOrder_waiting :
    ({ starved with mru := { starved.mru with quarantined := [] } } : State).mru.tagWait ≠ [] ∧ starved.TagOrderServed :=
  ⟨by decide +kernel, .inr starved_noTagFree⟩

/-- Tag 7's quarantine ends, and position 1 issues its head with it. -/
theorem test_freed_tag_goes_to_the_tag_wait_order :
    ((after (.quarantineEnd 7) starved).mru.pos 1).outstanding.map (·.tag) = [some 7] ∧
      (after (.quarantineEnd 7) starved).mru.tagWait = [] := by decide +kernel

/-- Lane 0 waits for four buffers, of which three are free and the request with tag 7 names the fourth. -/
def starvedBuffering : State :=
  let s := starved.updMru fun m =>
    { m with quarantined := m.quarantined.modify 7 fun r => { r with buf := 9 } }
  { s with
    lanes := s.lanes.set 0 { Lane.reset with stage := .buffering, batch := some { region := 0, first := 0, length := 1 } }
    sbp := { s.sbp with free := [4, 5, 6], quarantineHold := [9], waiting := [{ owner := .lane 0, size := 4 }] } }

/-- The reads that the grant submits find no tag, although tag 7 has just become free: they join behind position 1, which then
issues its head with it, and waits again behind them (R139, R152). -/
theorem test_quarantine_end_tells_sbp_before_the_tag_goes :
    let t := after (.quarantineEnd 7) starvedBuffering
    t.lanes[(0 : Fin 4)].bufs = [4, 5, 6, 9] ∧ t.lanes[(0 : Fin 4)].stage = .reading ∧
      (t.mru.pos 1).outstanding.map (·.tag) = [some 7] ∧ (t.mru.pos 1).queue.length = 1 ∧ t.mru.tagWait = [2, 3, 1] := by
  decide +kernel

/-- The expiry stands, and the head may go once it is taken, with a tag of its own or the lowest free one. -/
theorem test_meets_PacingExpiryIssuesHead :
    let own := paced.updPos 1 fun p => { p with queue := [{ request .read 1 5 with deadline := none }] }
    let expired := fun (s : State) =>
      ({ s with now := max s.now 20, sent := [] } : State).updPos 1 fun p => { p with expiry := none }
    (paced.mru.standing (.pacing 1) = some 20 ∧ paced.mru.tagWait = [] ∧
      (paced.mru.pos 1).queue = [{ request .read 1 5 with tag := none, deadline := none }] ∧ (expired paced).MayIssue 1) ∧
    (own.mru.standing (.pacing 1) = some 20 ∧ own.mru.tagWait = [] ∧
      (own.mru.pos 1).queue = [{ request .read 1 5 with deadline := none }] ∧ (expired own).MayIssue 1) ∧
    ((∀ q ∈ paced.mru.records, q.tag ≠ some 0) ∧ 0 < 256) := by unfold State.MayIssue; decide +kernel

/-- Qualification reading strip `k` back at attempt `a`, with two strips in the area. -/
def qualifying (k a defers : Nat) : State :=
  let s := session .qualifying
  withOutstanding { request .qread 0 5 with owner := some .qualification, buf := 1, defers := defers }
    { s with ses := { s.ses with qualArea := some (4096, 2), qualSet := [0, 1],
                                 qualProgress := some { strip := k, attempt := a, phase := .reading, held := .none } }
             sbp := { s.sbp with free := s.sbp.free.drop 2 } }

theorem test_meets_QualificationAttempts :
    ((qualifying 0 1 0).mru.namesQuarantined (qualifying 0 1 0).ses.patternBuf = false ∧ 0 < (qualifying 0 1 0).profile.l) ∧
    ((qualifying 0 1 7).mem.wf = true ∧ (qualifying 0 1 7).sbp.waiting = [] ∧ (qualifying 0 1 7).mru.findOutstanding 5 =
      some { request .qread 0 5 with owner := some .qualification, buf := 1, defers := 7 }) ∧
    (0 + 1 < (qualifying 0 1 0).ses.stripCount ∧ (qualifying 0 1 0).ses.stripCount ≤ 1 + 1 ∧ 4 < 5 ∧ 5 ≤ 5) ∧
    (qualifying 1 5 0).ses.qualProgress = some { strip := 1, attempt := 5, phase := .reading, held := .none } := by decide +kernel

/-- The QWRITE of a strip is outstanding, its read-back buffer free or named by a quarantined request. -/
def qualWriting : State :=
  let s := session .qualifying
  withOutstanding { request .qwrite 0 5 with owner := some .qualification, buf := 0 }
    { s with ses := { s.ses with qualArea := some (4096, 2), qualSet := [0, 1],
                                 qualProgress := some { strip := 0, attempt := 1, phase := .writing, held := .none } }
             sbp := { s.sbp with free := s.sbp.free.drop 2 } }

theorem test_meets_QualificationAttempts_write :
    (qualWriting.mru.findOutstanding 5 = some { request .qwrite 0 5 with owner := some .qualification, buf := 0 } ∧
      qualWriting.ses.failedPos = some 0 ∧ qualWriting.mru.positions.length = 16) ∧
    qualWriting.mru.namesQuarantined qualWriting.ses.readBackBuf = false ∧
    (withQuarantined (request .read 1 6) qualWriting).mru.namesQuarantined qualWriting.ses.readBackBuf = true := by decide +kernel

/-- A step of qualification waits for its buffer, and the one quarantine that names it, or one of two, ends. -/
theorem test_meets_QualificationAttempts_held :
    ∀ h ∈ [HeldStep.fill, .read],
      let s := withQuarantined { request .read 1 6 with buf := if h = .fill then 0 else 1 } (qualWriting.updSes fun e =>
        { e with qualProgress := some { strip := 0, attempt := 1, phase := .writing, held := h } });
      s.mru.findOutstanding 6 = none ∧ s.mru.findQuarantined 6 ≠ none ∧ s.mru.standing (.quarantineEnd 6) = some 8000 ∧
        s.ses.failedPos = some 0 ∧ s.sbp.waiting = [] ∧
        (s.mru.quarantined.filter fun r => r.tag != some 6).any (fun r => r.buf == s.ses.patternBuf) = false ∧
        (s.mru.quarantined.filter fun r => r.tag != some 6).any (fun r => r.buf == s.ses.readBackBuf) = false ∧
        s.ses.patternBuf = 0 ∧ s.ses.readBackBuf = 1 := by decide +kernel

/-- The deadline of a QREAD stands, at the first attempt and at the fifth. -/
theorem test_meets_QualificationAttempts_timeout :
    ∀ a ∈ [1, 5], (qualifying 0 a 0).mru.standing (.timeout 5) = some 8000 ∧
      (qualifying 0 a 0).ses.qualProgress = some { strip := 0, attempt := a, phase := .reading, held := .none } ∧
      (1 : BufId) ≠ (qualifying 0 a 0).ses.patternBuf ∧ ((qualifying 0 a 0).mru.pos 0).timeouts + 1 < 3 ∧
      (qualifying 0 a 0).ses.failedPos = some 0 ∧ (qualifying 0 a 0).mru.positions.length = 16 := by decide +kernel

/-! ## Reconstruction -/

theorem test_meets_ByteFieldArithmetic : (0 : Nat) < 14 ∧ 13 < 14 ∧ (0 : Nat) ≠ 13 ∧ (1 : Byte) ≠ 0 := by decide

/-- The column of stripe 7 of section 8.8 satisfies both equations, and one position besides the spare is missing. -/
theorem test_meets_RcdRecoversTheSpareByte :
    (4 ≤ profile5.n ∧ profile5.n ≤ 16 ∧ 0 < profile5.n) ∧ ([0].filter (· != 0) = [] ∧ [0, 4].filter (· != 0) = [4]) ∧
    ([0x34, 0x56, 0x70, 0x3F, 0x12] : Column).getD (profile5.pPos 7) 0 =
      (List.range (profile5.n - 2)).foldr
        (fun d acc => ([0x34, 0x56, 0x70, 0x3F, 0x12] : Column).getD (profile5.dataPos 7 d) 0 ^^^ acc) 0 ∧
    ([0x34, 0x56, 0x70, 0x3F, 0x12] : Column).getD (profile5.qPos 7) 0 =
      (List.range (profile5.n - 2)).foldr
        (fun d acc => gmul (gpow d) (([0x34, 0x56, 0x70, 0x3F, 0x12] : Column).getD (profile5.dataPos 7 d) 0) ^^^ acc) 0 ∧
    ∀ y < profile5.n, y ≠ 0 → y ∉ [0, 4] →
      ([0, 0x56, 0x70, 0x3F, 0] : Column).getD y 0 = ([0x34, 0x56, 0x70, 0x3F, 0x12] : Column).getD y 0 := by decide +kernel

/-- Bytes read that satisfy both equations with F's byte, and bytes that do not. -/
theorem test_meets_RcdRecoversTheSpareByte_check :
    ParityHolds profile5 7 (fun y => ([0x34, 0x56, 0x70, 0x3F, 0x12] : Column).getD y 0) ∧
      ¬ParityHolds profile5 7 (fun y => ([0x34, 0x56, 0x70, 0x3E, 0x12] : Column).getD y 0) := by
  unfold ParityHolds PEquation QEquation; decide +kernel

/-- F alone missing, at a data position, at P and at Q. In stripe 7 with a byte read wrong the cross-check fails, and F's byte is
still the one from P. -/
theorem test_meets_RcdRecoversTheSpareByte_alone :
    (0 ≠ profile5.qPos 7 ∧ 2 = profile5.pPos 7 ∧ 2 ≠ profile5.qPos 7 ∧ 3 = profile5.qPos 7) ∧
      (solveCase profile5 7 0 [0]).agrees profile5 7 [0, 0x56, 0x71, 0x3F, 0x12] = false ∧
      (solveCase profile5 7 0 [0]).value profile5 7 [0, 0x56, 0x71, 0x3F, 0x12] = 0x35 := by decide +kernel

/-- Lane 0 in SOLVING at the only block of its batch. -/
def solving : State :=
  let s := working .running .solving 0
  { s with rcd := { s.rcd with contexts := s.rcd.contexts.set 0
                                 (some { stripe := 0, block := 0, results := [StripeResult.empty] }) } }

theorem test_meets_RcdTakesTheNextBlock :
    (State.reset.rcd.contexts[(0 : Fin 4)] = none ∧ solving.mem.wf = true ∧
      solving.rcd.contexts[(0 : Fin 4)] = some { stripe := 0, block := 0, results := [StripeResult.empty] } ∧
      solving.lanes[(0 : Fin 4)].batch = some { region := 0, first := 0, length := 1 }) ∧
    (solving.missingSet 0 0 0 = [0] ∧ nextPlace solving.profile.l 1 0 0 = none ∧ nextPlace 2 1 0 0 = some (0, 1)) := by
  decide +kernel

/-- The read record of `solving` with the cells of positions 2 and 3 settled as given. -/
def solvingWith (two three : ReadStatus) (mem : Memory) : State :=
  let cell := fun (st : ReadStatus) => ({ status := st, left := 0, sawMissing := false, sawMask := 0 } : ReadCell)
  { solving with mem := mem
                 lanes := solving.lanes.set 0 { solving.lanes[(0 : Fin 4)] with
                   reads := [[cell .excluded, cell .good, cell two, cell three]] } }

/-- A lost block (two positions besides the spare missing) and a suspect one (all read, and the equations disagree). -/
theorem test_meets_RcdTakesTheNextBlock_lost_and_suspect :
    ((solvingWith .missing (.part 1) []).missingSet 0 0 0 = [0, 2, 3] ∧ 2 ≤ ([0, 2, 3].filter (· != 0)).length) ∧
    (let s := solvingWith .good .good [(262144, 1)];
      s.mem.wf = true ∧ s.missingSet 0 0 0 = [0] ∧ s.rcd.check = true ∧
        (solveCase s.profile 0 0 [0]).agrees s.profile 0 (s.columnAt 0 0 0 0) = false) := by decide +kernel

/-- One byte that disagrees makes the block disagree. -/
theorem test_meets_RcdTakesTheNextBlock_disagrees :
    (List.range 4096).any (fun i => !(solveCase profile4 0 0 [0]).agrees profile4 0
      ((solvingWith .good .good [(262144, 1)]).columnAt 0 0 0 i)) = true :=
  List.any_eq_true.mpr ⟨0, by decide +kernel, by decide +kernel⟩

/-! ## Invariants -/

theorem test_meets_EventLineFollowsSets :
    (session .running).LineFollows ∧ (session .running).HostReady ∧ ∃ t, step (session .running) = .next t := by
  refine ⟨by unfold State.LineFollows; decide +kernel, by unfold State.HostReady; decide +kernel, _, rfl⟩

theorem test_meets_PortQueuesKeepCapacity : crowded.HostQueuesFit ∧ crowded.RouteRoom ∧ ∃ t, step crowded = .next t := by
  refine ⟨by unfold State.HostQueuesFit; decide +kernel, by unfold State.RouteRoom; decide +kernel, _, rfl⟩

/-- Lane 0 of `working` holds four buffers and the free pool the rest; nothing waits. -/
theorem working_in_place : (working .running .reading 3).StagesFit ∧ (working .running .reading 3).BuffersInPlace := by
  have waiting : (working .running .reading 3).slk.waiting = [] := by decide +kernel
  have buffers : (working .running .reading 3).sbp.waiting = [] := by decide +kernel
  refine ⟨⟨⟨?_, ?_, ?_⟩, ⟨?_, ?_⟩, by decide +kernel, by decide +kernel, by decide +kernel, by decide +kernel⟩,
    by decide +kernel, by decide +kernel⟩ <;> simp [waiting, buffers]

theorem test_meets_LocksAndBuffersStayInPlace_buffers :
    (working .running .reading 3).StagesFit ∧ (working .running .reading 3).BuffersInPlace ∧
      ∃ t, step (working .running .reading 3) = .next t := ⟨working_in_place.1, working_in_place.2, _, rfl⟩

theorem test_meets_LocksAndBuffersStayInPlace :
    (working .running .reading 3).LocksApart ∧ (working .running .reading 3).BufferHeadWaits ∧
      ∃ t, step (working .running .reading 3) = .next t := by
  have waiting : (working .running .reading 3).slk.waiting = [] := by decide +kernel
  have buffers : (working .running .reading 3).sbp.waiting = [] := by decide +kernel
  refine ⟨⟨?_, by decide +kernel, by decide +kernel, ?_⟩, ?_, _, rfl⟩
  · have : (working .running .reading 3).slk.held = [{ owner := .lane 0, first := 0, count := 1 }] := by decide +kernel
    rw [this]
    exact List.pairwise_singleton _ _
  · intro older e younger h
    rw [waiting] at h
    simp at h
  · intro r rest h
    rw [buffers] at h
    simp at h

theorem test_meets_RecordsAndQueueStayOrdered :
    (recorded .running).RecordsInOrder ∧ (session .running).QueueHoldsStale ∧ ∃ t, step (session .running) = .next t := by
  refine ⟨by unfold State.RecordsInOrder; decide +kernel, ⟨by decide +kernel, fun r => ?_⟩, _, rfl⟩
  have queue : (session .running).rgt.queue = [0, 1] := by decide +kernel
  have regions : (session .running).rgt.regions = [region .stale 0, region .stale 0] := by decide +kernel
  rw [queue, Rgt.isStale, regions]
  match r with
  | 0 => decide +kernel
  | 1 => decide +kernel
  | r + 2 => simp

theorem test_meets_MemberRequestsKeepLimits :
    (session .running).IssueLimits ∧ (session .running).TagsHeldOnce ∧ (session .running).TagOrderServed ∧
      ∃ t, step (session .running) = .next t :=
  ⟨by unfold State.IssueLimits; decide +kernel,
    tagsHeldOnce_of_records _ (by decide +kernel) (by decide +kernel) (by decide +kernel), .inl rfl, _, rfl⟩

theorem test_meets_SettingsGeometryAndMemoryStayInRange :
    (session .running).SettingsInRange ∧ (session .running).GeometryInRange ∧ ∃ t, step (session .running) = .next t := by
  refine ⟨by unfold State.SettingsInRange; decide +kernel, ⟨fun p hp => ?_, by unfold Geo.Shaped; decide +kernel⟩, _, rfl⟩
  have : (session .running).geo.profile = some profile4 := by decide +kernel
  rw [this] at hp
  obtain rfl := Option.some.inj hp
  exact (Profile.inRange_iff profile4).mp (by decide)

theorem test_meets_SettingsGeometryAndMemoryStayInRange_memory :
    solving.MemoryCanonical ∧ ∃ t, step solving = .next t := by
  refine ⟨⟨by decide +kernel, fun p hp => ?_, by decide +kernel, fun n c hc => ?_⟩, _, rfl⟩
  · have : solving.geo.profile = some profile4 := by decide +kernel
    rw [this] at hp
    obtain rfl := Option.some.inj hp
    decide
  · have : ∀ n : Fin 4, solving.rcd.contexts[n] = none ∨
        solving.rcd.contexts[n] = some { stripe := 0, block := 0, results := [StripeResult.empty] } := by decide +kernel
    rcases this n with h | h <;> rw [h] at hc
    · exact absurd hc (by simp)
    · obtain rfl := Option.some.inj hc; decide

end Sys2Proof.Tests
end

section
/-! What a step can do, said once. -/

namespace Sys2Proof.Machine

/-- What can happen to the part at one event: power-on reset, nothing but the beginning of the event (or the passing of a
millisecond), a message or a read at a port, a completion, a block taken by RCD, or an event of time. -/
inductive State.Occurs (s : State) : State → Prop
  | reset : s.Occurs { State.reset with pending := s.pending, freeCount := s.freeCount }
  | nothing : s.Occurs s.beginEvent
  | tick : s.Occurs { s.beginEvent with now := s.now + 1 }
  | commandArrives (m : CommandMessage) : s.Occurs (s.commandArrives m)
  | readResponse : s.Occurs s.beginEvent.readResponse
  | requestArrives (r : RouteRequest) : s.Occurs (s.requestArrives r)
  | readAnswer : s.Occurs s.beginEvent.readAnswer
  | takeCompletion (tag : Nat) (status : Byte) (mask : Mask) (data : List Byte) :
      s.Occurs (s.beginEvent.takeCompletion tag status mask data)
  | takeBlock (n : Fin 4) : s.Occurs (s.beginEvent.takeBlock n)
  | takeTimeEvent (e : TimeEvent) : s.Occurs (s.takeTimeEvent e)

theorem exec_occurs {i : Instr} {s t : State} (h : exec i s = .next t) : s.Occurs t := by
  cases i with
  | powerOnReset => obtain rfl := Host.Outcome.next.inj h; exact .reset
  | responseRead => obtain rfl := Host.Outcome.next.inj h; exact .readResponse
  | answerRead => obtain rfl := Host.Outcome.next.inj h; exact .readAnswer
  | rcdTakeBlock lane => obtain rfl := Host.Outcome.next.inj h; exact .takeBlock lane
  | commandArrival message =>
    cases hm : CommandMessage.read message with
    | none => obtain rfl := Host.Outcome.next.inj ((execCommandArrival_of_none hm s).symm.trans h); exact .nothing
    | some m => obtain rfl := Host.Outcome.next.inj ((execCommandArrival_of_read hm s).symm.trans h); exact .commandArrives m
  | routeRequestArrival message =>
    cases hm : RouteRequest.read message with
    | none => obtain rfl := Host.Outcome.next.inj ((execRouteRequestArrival_of_none hm s).symm.trans h); exact .nothing
    | some r =>
      obtain rfl := Host.Outcome.next.inj ((execRouteRequestArrival_of_read hm s).symm.trans h); exact .requestArrives r
  | completion tag status position mask data =>
    by_cases hm : mask.length = 8
    · obtain rfl := Host.Outcome.next.inj ((execCompletion_of_mask hm tag status position data s).symm.trans h)
      exact .takeCompletion _ _ _ _
    · obtain rfl := Host.Outcome.next.inj ((execCompletion_of_broken hm tag status position data s).symm.trans h)
      exact .nothing
  | unknownCommand | setGeometry | setSegments | openSession | start | pause | resume | step | abort | closeSession
  | promote | demote | memberDown | setPace | setTimeout | setHeat | setLanes | setCheck | setEventEnables | ackEvents
  | getStatus | getRegion | listRecords | forgive | resetEngine =>
    obtain rfl := Host.Outcome.next.inj h; exact .commandArrives _
  | query | claim | release | unknownRouteKind => obtain rfl := Host.Outcome.next.inj h; exact .requestArrives _
  | pacingExpiry | timeout | quarantineEnd => obtain rfl := Host.Outcome.next.inj h; exact .takeTimeEvent _

theorem State.takeOneOf_occurs (events : List TimeEvent) (s : State) :
    ∃ k, ({ s with freeCount := k } : State).Occurs (s.takeOneOf events) := by
  match events with
  | [] => exact ⟨s.freeCount, .nothing⟩
  | [e] => exact ⟨s.freeCount, .takeTimeEvent e⟩
  | _ :: _ :: _ => exact ⟨s.freeCount + 1, .takeTimeEvent _⟩

theorem State.idle_occurs (s : State) : ∃ k, ({ s with freeCount := k } : State).Occurs s.idle := by
  unfold State.idle
  split
  · split
    · exact s.takeOneOf_occurs _
    · exact ⟨s.freeCount, .tick⟩
  · exact ⟨s.freeCount, .tick⟩

/-- A step takes the next command off the queue, or draws at most one free value, and then one event occurs. -/
theorem step_occurs {s t : State} (h : step s = .next t) :
    ∃ k, ({ s with pending := s.pending.tail, freeCount := k } : State).Occurs t := by
  unfold step at h
  split at h
  · rename_i hp
    obtain rfl := Host.Outcome.next.inj h
    have hs : s.pending.tail = s.pending := by rw [hp, List.tail_nil]
    rw [hs]
    exact s.idle_occurs
  · rename_i c rest hp
    exact ⟨s.freeCount, by rw [hp]; exact exec_occurs h⟩

end Sys2Proof.Machine
end

section
/-! What a lane's work, a settlement, a fault or a completion keeps of MRU's settings and of the buffer memory. The
lemmas go through the operations in the order of the model's files, as those of Laws/Frames do. -/

namespace Sys2Proof.Machine

/-! ## Request records and MRU's settings -/

/-- The request's block range ends by block 64 (R134). -/
def Request.Ends (r : Request) : Prop := r.firstBlock + r.blocks ≤ 64

/-- Every request of the position ends by block 64. -/
def PosState.Ends (p : PosState) : Prop := (∀ r ∈ p.queue, r.Ends) ∧ ∀ r ∈ p.outstanding, r.Ends

/-- The condition of MemoryCanonical on the request records. -/
def Mru.RecordsEnd (m : Mru) : Prop := ∀ r ∈ m.records, r.Ends

theorem Mru.recordsEnd_iff (m : Mru) :
    m.RecordsEnd ↔ (∀ p ∈ m.positions, p.Ends) ∧ ∀ r ∈ m.quarantined, r.Ends := by
  simp only [Mru.RecordsEnd, Mru.records, PosState.Ends, List.mem_append, List.mem_flatMap]
  constructor
  · intro h
    exact ⟨fun p hp => ⟨fun r hr => h r (.inl ⟨p, hp, .inl hr⟩), fun r hr => h r (.inl ⟨p, hp, .inr hr⟩)⟩,
      fun r hr => h r (.inr hr)⟩
  · rintro ⟨hp, hq⟩ r (⟨p, hm, hr | hr⟩ | hr)
    · exact (hp p hm).1 r hr
    · exact (hp p hm).2 r hr
    · exact hq r hr

/-- A place beyond the 16 positions holds no request. -/
theorem Mru.pos_ends {m : Mru} (h : ∀ p ∈ m.positions, p.Ends) (x : Nat) : (m.pos x).Ends := by
  unfold Mru.pos
  rw [List.getD_eq_getElem?_getD]
  cases hx : m.positions[x]? with
  | none => exact ⟨by simp [PosState.reset], by simp [PosState.reset]⟩
  | some p => exact h p (List.mem_of_getElem? hx)

/-- MRU's settings stay, and so does the condition of MemoryCanonical on its records. -/
structure Mru.KeepsRecords (m m' : Mru) : Prop where
  paceLimit : m'.paceLimit = m.paceLimit
  paceWindow : m'.paceWindow = m.paceWindow
  timeout : m'.timeout = m.timeout
  records : m.RecordsEnd → m'.RecordsEnd

theorem Mru.KeepsRecords.refl (m : Mru) : m.KeepsRecords m := ⟨rfl, rfl, rfl, id⟩

theorem Mru.KeepsRecords.trans {a b c : Mru} (h : a.KeepsRecords b) (h' : b.KeepsRecords c) : a.KeepsRecords c :=
  ⟨h'.paceLimit.trans h.paceLimit, h'.paceWindow.trans h.paceWindow, h'.timeout.trans h.timeout,
    h'.records ∘ h.records⟩

/-- The tag wait order holds no records. -/
theorem Mru.keeps_tagWait (m : Mru) (order : List Nat) : m.KeepsRecords { m with tagWait := order } := ⟨rfl, rfl, rfl, id⟩

/-- A change of one position that brings no request in from elsewhere. -/
theorem Mru.keeps_updPos (x : Nat) {f : PosState → PosState} {m : Mru} (hf : (m.pos x).Ends → (f (m.pos x)).Ends) :
    m.KeepsRecords (m.updPos x f) := by
  refine ⟨rfl, rfl, rfl, fun h => ?_⟩
  rw [Mru.recordsEnd_iff] at h ⊢
  refine ⟨fun p hp => ?_, h.2⟩
  rcases List.mem_or_eq_of_mem_set hp with hp | rfl
  · exact h.1 p hp
  · exact hf (Mru.pos_ends h.1 x)

/-! ## States: MRU's settings, and the canonical form of the buffer memory -/

/-- MRU's settings stay, and the buffer memory keeps its canonical form with what every block address rests on. -/
structure State.KeepsMemory (s t : State) : Prop where
  paceLimit : t.mru.paceLimit = s.mru.paceLimit
  paceWindow : t.mru.paceWindow = s.mru.paceWindow
  timeout : t.mru.timeout = s.mru.timeout
  canonical : s.MemoryCanonical → t.MemoryCanonical

theorem State.KeepsMemory.refl (s : State) : s.KeepsMemory s := ⟨rfl, rfl, rfl, id⟩

theorem State.KeepsMemory.trans {s t u : State} (h : s.KeepsMemory t) (h' : t.KeepsMemory u) : s.KeepsMemory u :=
  ⟨h'.paceLimit.trans h.paceLimit, h'.paceWindow.trans h.paceWindow, h'.timeout.trans h.timeout,
    h'.canonical ∘ h.canonical⟩

theorem State.KeepsMemory.foldl {α : Type} {f : State → α → State} (h : ∀ s a, State.KeepsMemory s (f s a)) (l : List α)
    (s : State) : s.KeepsMemory (l.foldl f s) := by
  induction l generalizing s with
  | nil => exact .refl s
  | cons a l ih => exact (h s a).trans (ih _)

/-- Whatever leaves MRU, the solve contexts, the geometry and the buffer memory alone. -/
theorem State.KeepsMemory.of_same {s t : State} (hmru : t.mru = s.mru) (hctx : t.rcd.contexts = s.rcd.contexts)
    (hgeo : t.geo = s.geo) (hmem : t.mem = s.mem) : s.KeepsMemory t := by
  refine ⟨by rw [hmru], by rw [hmru], by rw [hmru], ?_⟩
  unfold State.MemoryCanonical
  rw [hmru, hctx, hgeo, hmem]
  exact id

/-- A change of MRU's state. -/
theorem State.keeps_updMru {f : Mru → Mru} {s : State} (h : s.mru.KeepsRecords (f s.mru)) : s.KeepsMemory (s.updMru f) :=
  ⟨h.paceLimit, h.paceWindow, h.timeout, fun ⟨hmem, hgeo, hrec, hctx⟩ => ⟨hmem, hgeo, h.records hrec, hctx⟩⟩

theorem State.keeps_updPos (x : Nat) {f : PosState → PosState} {s : State}
    (hf : (s.mru.pos x).Ends → (f (s.mru.pos x)).Ends) : s.KeepsMemory (s.updPos x f) :=
  State.keeps_updMru (Mru.keeps_updPos x hf)

theorem State.keeps_updLane (n : Fin 4) (f : Lane → Lane) (s : State) :
    s.KeepsMemory (s.updLane n f) := .of_same rfl rfl rfl rfl
theorem State.keeps_updSes (f : Ses → Ses) (s : State) : s.KeepsMemory (s.updSes f) := .of_same rfl rfl rfl rfl
theorem State.keeps_updRgt (f : Rgt → Rgt) (s : State) : s.KeepsMemory (s.updRgt f) := .of_same rfl rfl rfl rfl
theorem State.keeps_updRtu (f : Rtu → Rtu) (s : State) : s.KeepsMemory (s.updRtu f) := .of_same rfl rfl rfl rfl
theorem State.keeps_updSlk (f : Slk → Slk) (s : State) : s.KeepsMemory (s.updSlk f) := .of_same rfl rfl rfl rfl
theorem State.keeps_updSbp (f : Sbp → Sbp) (s : State) : s.KeepsMemory (s.updSbp f) := .of_same rfl rfl rfl rfl
theorem State.keeps_updMgp (f : Mgp → Mgp) (s : State) : s.KeepsMemory (s.updMgp f) := .of_same rfl rfl rfl rfl
theorem State.keeps_emit (o : Output) (s : State) : s.KeepsMemory (s.emit o) := .of_same rfl rfl rfl rfl
theorem State.keeps_beginEvent (s : State) : s.KeepsMemory s.beginEvent := .of_same rfl rfl rfl rfl
theorem State.keeps_setEvent (e : Event) (s : State) : s.KeepsMemory (s.setEvent e) := .of_same rfl rfl rfl rfl
theorem State.keeps_changeState (st : SessionState) (s : State) :
    s.KeepsMemory (s.changeState st) := .of_same rfl rfl rfl rfl
theorem State.keeps_answer (a : Answer) (s : State) : s.KeepsMemory (s.answer a) := .of_same rfl rfl rfl rfl
theorem State.keeps_holdingOrder (l : List (Fin 4)) (s : State) : s.KeepsMemory { s with holdingOrder := l } :=
  .of_same rfl rfl rfl rfl

/-! ## Block addresses and written blocks (R110) -/

/-- A block range that ends by block 64 of its buffer lies in the buffer memory. -/
theorem blockAddress_le (b : BufId) {j blocks length : Nat} (hj : j + blocks ≤ 64) (hl : length ≤ blocks * 4096) :
    blockAddress b j + length ≤ memoryBytes := by
  have hb := b.isLt
  unfold blockAddress memoryBytes
  omega

theorem State.keeps_writeMem {b : BufId} {j blocks : Nat} {bytes : List Byte} {s : State}
    (h : s.MemoryCanonical → j + blocks ≤ 64) (hl : bytes.length ≤ blocks * 4096) :
    s.KeepsMemory (s.writeMem (blockAddress b j) bytes) := by
  refine ⟨rfl, rfl, rfl, fun hs => ?_⟩
  have hroom := h hs
  obtain ⟨hmem, hgeo, hrec, hctx⟩ := hs
  exact ⟨Memory.wf_write hmem (blockAddress_le b hroom hl), hgeo, hrec, hctx⟩

/-- Strips have at most 64 blocks: with no profile set the strip length reads as 0. -/
theorem State.MemoryCanonical.strip_le {s : State} (h : s.MemoryCanonical) : s.profile.l ≤ 64 := by
  obtain ⟨-, hgeo, -, -⟩ := h
  unfold State.profile
  cases hp : s.geo.profile with
  | none => exact Nat.zero_le _
  | some p => exact hgeo p hp

theorem length_patternBytes (k l : Nat) : (patternBytes k l).length = l * 4096 := by
  simp [patternBytes, List.length_flatMap]

theorem length_mapColumns {α : Type} (f : Column → α) (n : Nat) (strips : List (List Byte)) :
    (mapColumns f n strips).length = n := by
  induction n generalizing strips with
  | zero => rfl
  | succ n ih => simp [mapColumns, ih]

theorem length_fillBytes (kind : FillKind) (stripe b : Nat) : (fillBytes kind stripe b).length = blockBytes := by
  cases kind with
  | zero => exact List.length_replicate
  | marked =>
    simp only [fillBytes, List.length_append, length_leBytes, List.length_replicate]
    decide

/-- RCD writes a whole block (R163, R171, R172). -/
theorem State.length_solvedBytes (s : State) (k : SolveCase) (n : Fin 4) (i stripe b : Nat) :
    (s.solvedBytes k n i stripe b).length = blockBytes := by
  unfold State.solvedBytes
  split
  · exact length_fillBytes _ _ _
  · exact length_mapColumns _ _ _

/-! ## MRU's operations -/

theorem State.keeps_leaveTagWait (x : Nat) (s : State) : s.KeepsMemory (s.leaveTagWait x) :=
  State.keeps_updMru (s.mru.keeps_tagWait _)

theorem State.keeps_joinTagWait (x : Nat) (s : State) : s.KeepsMemory (s.joinTagWait x) :=
  State.keeps_updMru (s.mru.keeps_tagWait _)

theorem State.keeps_setExpiry (x : Nat) (e : Option Nat) (s : State) : s.KeepsMemory (s.setExpiry x e) := by
  unfold State.setExpiry
  exact State.keeps_updPos x id

theorem State.keeps_setTimeouts (x count : Nat) (s : State) : s.KeepsMemory (s.setTimeouts x count) := by
  unfold State.setTimeouts
  exact State.keeps_updPos x id

theorem State.keeps_leaveOutstanding (x tag : Nat) (s : State) : s.KeepsMemory (s.leaveOutstanding x tag) := by
  unfold State.leaveOutstanding
  exact State.keeps_updPos x fun h => ⟨h.1, fun r hr => h.2 r (List.mem_of_mem_filter hr)⟩

/-- An issued request is the one that stood at the head of the queue. -/
theorem State.keeps_issueHead (x tag : Nat) (s : State) : s.KeepsMemory (s.issueHead x tag) := by
  unfold State.issueHead
  split
  · exact .refl s
  · rename_i r rest hq
    refine (State.KeepsMemory.trans (State.keeps_updPos x fun h => ?_)
      (State.keeps_updMru (Mru.keeps_tagWait _ _))).trans (State.keeps_emit _ _)
    obtain ⟨hqueue, hout⟩ := h
    rw [hq] at hqueue
    refine ⟨fun r' h' => hqueue r' (List.mem_cons_of_mem _ h'), fun r' h' => ?_⟩
    rcases List.mem_append.1 h' with h' | h'
    · exact hout r' h'
    · obtain rfl := List.mem_singleton.1 h'
      exact hqueue r List.mem_cons_self

theorem State.keeps_issueFuel (fuel x : Nat) (s : State) : s.KeepsMemory (s.issueFuel fuel x) := by
  induction fuel generalizing s with
  | zero => exact .refl s
  | succ fuel ih =>
    simp only [State.issueFuel]
    split
    · exact (s.keeps_leaveTagWait x).trans (State.keeps_setExpiry x _ _)
    · split
      · exact s.keeps_leaveTagWait x
      · split
        · split
          · exact (s.keeps_leaveTagWait x).trans (State.keeps_setExpiry x _ _)
          · exact s.keeps_leaveTagWait x
        · split
          · exact (s.keeps_issueHead x _).trans (ih _)
          · split
            · exact (s.keeps_issueHead x _).trans (ih _)
            · exact s.keeps_joinTagWait x

theorem State.keeps_issueDecision (x : Nat) (s : State) : s.KeepsMemory (s.issueDecision x) := s.keeps_issueFuel 5 x

theorem State.keeps_decideAll (s : State) : s.KeepsMemory s.decideAll := by
  refine State.KeepsMemory.foldl (fun s x => ?_) _ _
  split
  · exact .refl s
  · exact s.keeps_issueDecision x

theorem State.keeps_serveTagWaitFuel (fuel : Nat) (s : State) : s.KeepsMemory (s.serveTagWaitFuel fuel) := by
  induction fuel generalizing s with
  | zero => exact .refl s
  | succ fuel ih =>
    simp only [State.serveTagWaitFuel]
    split
    · split
      · exact (s.keeps_leaveTagWait _).trans (ih _)
      · split
        · exact (s.keeps_leaveTagWait _).trans (ih _)
        · exact ((s.keeps_leaveTagWait _).trans (State.keeps_issueHead _ _ _)).trans (ih _)
    · exact .refl s

theorem State.keeps_serveTagWait (s : State) : s.KeepsMemory s.serveTagWait := s.keeps_serveTagWaitFuel _

theorem State.keeps_decideAfterFree (x : Nat) (s : State) : s.KeepsMemory (s.decideAfterFree x) :=
  (s.keeps_issueDecision x).trans (State.keeps_decideAll _)

/-- A request that a position's own state takes in must end by block 64, where the memory of the state it comes from is
canonical. -/
theorem State.KeepsMemory.updPos {s u : State} (h : s.KeepsMemory u) (x : Nat) {f : PosState → PosState}
    (hf : s.MemoryCanonical → (u.mru.pos x).Ends → (f (u.mru.pos x)).Ends) : s.KeepsMemory (u.updPos x f) :=
  ⟨h.paceLimit, h.paceWindow, h.timeout, fun hs => (State.keeps_updPos x (hf hs)).canonical (h.canonical hs)⟩

theorem State.KeepsMemory.submit {s u : State} (h : s.KeepsMemory u) {r : Request} (hr : s.MemoryCanonical → r.Ends) :
    s.KeepsMemory (u.submit r) := by
  refine (h.updPos r.position fun hs hp => ⟨fun r' h' => ?_, hp.2⟩).trans (State.keeps_issueDecision _ _)
  rcases List.mem_append.1 h' with h' | h'
  · exact hp.1 r' h'
  · obtain rfl := List.mem_singleton.1 h'
    exact hr hs

theorem State.KeepsMemory.submitAll {s u : State} (h : s.KeepsMemory u) {requests : List Request}
    (hr : s.MemoryCanonical → ∀ r ∈ requests, r.Ends) : s.KeepsMemory (u.submitAll requests) := by
  induction requests generalizing u with
  | nil => exact h
  | cons r rest ih =>
    exact ih (h.submit fun hs => hr hs r List.mem_cons_self) fun hs r' h' => hr hs r' (List.mem_cons_of_mem _ h')

theorem State.KeepsMemory.requeueHead {s u : State} (h : s.KeepsMemory u) {r : Request} (hr : s.MemoryCanonical → r.Ends) :
    s.KeepsMemory (u.requeueHead r) := by
  unfold State.requeueHead
  refine h.updPos r.position fun hs hp => ⟨fun r' h' => ?_, hp.2⟩
  rcases List.mem_cons.1 h' with rfl | h'
  · exact hr hs
  · exact hp.1 r' h'

/-- Requests join the quarantine. -/
theorem State.KeepsMemory.quarantine {s u : State} (h : s.KeepsMemory u) {late : List Request}
    (hl : s.MemoryCanonical → ∀ r ∈ late, r.Ends) :
    s.KeepsMemory (u.updMru fun m => { m with quarantined := m.quarantined ++ late }) := by
  refine ⟨h.paceLimit, h.paceWindow, h.timeout, fun hs => ?_⟩
  obtain ⟨hmem, hgeo, hrec, hctx⟩ := h.canonical hs
  refine ⟨hmem, hgeo, (Mru.recordsEnd_iff _).2 ?_, hctx⟩
  obtain ⟨hpos, hq⟩ := (Mru.recordsEnd_iff _).1 hrec
  refine ⟨hpos, fun r hr => ?_⟩
  rcases List.mem_append.1 hr with hr | hr
  · exact hq r hr
  · exact hl hs r hr

/-- An outstanding request put in quarantine covers the blocks it covered. -/
theorem quarantine_ends {late : List Request} (h : ∀ r ∈ late, r.Ends) (until' : Nat) :
    ∀ r ∈ late.map (Request.quarantine until'), r.Ends := by
  intro r hr
  obtain ⟨r', h', rfl⟩ := List.mem_map.1 hr
  exact h r' h'

theorem State.MemoryCanonical.outstanding {s : State} (h : s.MemoryCanonical) (x : Nat) :
    ∀ r ∈ (s.mru.pos x).outstanding, r.Ends := by
  obtain ⟨-, -, hrec, -⟩ := h
  exact (Mru.pos_ends ((Mru.recordsEnd_iff _).1 hrec).1 x).2

theorem State.keeps_clearPosition (x : Nat) (s : State) : s.KeepsMemory (s.clearPosition x) := by
  have hcut : s.KeepsMemory (s.updPos x fun p => { p with queue := [], outstanding := [], expiry := none }) :=
    State.keeps_updPos x fun _ => ⟨by simp, by simp⟩
  have hclear := (hcut.quarantine (late := (s.mru.pos x).outstanding.map (Request.quarantine (s.now + s.mru.timeout)))
    fun hs => quarantine_ends (hs.outstanding x) _).trans (State.keeps_leaveTagWait x _)
  unfold State.clearPosition
  simp only
  split
  · exact (hclear.trans (State.keeps_serveTagWait _)).trans (State.keeps_decideAll _)
  · exact hclear

theorem State.keeps_clearAll (s : State) : s.KeepsMemory s.clearAll := by
  refine ⟨rfl, rfl, rfl, fun ⟨hmem, hgeo, hrec, hctx⟩ => ⟨hmem, hgeo, (Mru.recordsEnd_iff _).2 ?_, hctx⟩⟩
  obtain ⟨hpos, hq⟩ := (Mru.recordsEnd_iff _).1 hrec
  refine ⟨fun p hp => ?_, fun r hr => ?_⟩
  · obtain ⟨p₀, -, rfl⟩ := List.mem_map.1 hp
    exact ⟨by simp, by simp⟩
  · obtain ⟨r₀, h₀, rfl⟩ := List.mem_map.1 hr
    rcases List.mem_append.1 h₀ with h₀ | h₀
    · exact hq r₀ h₀
    · refine quarantine_ends (fun r' h' => ?_) _ r₀ h₀
      obtain ⟨p, hp, h'⟩ := List.mem_flatMap.1 h'
      exact (hpos p hp).2 r' h'

theorem State.keeps_zeroTimeouts (s : State) : s.KeepsMemory s.zeroTimeouts := by
  refine ⟨rfl, rfl, rfl, fun ⟨hmem, hgeo, hrec, hctx⟩ => ⟨hmem, hgeo, (Mru.recordsEnd_iff _).2 ?_, hctx⟩⟩
  obtain ⟨hpos, hq⟩ := (Mru.recordsEnd_iff _).1 hrec
  refine ⟨fun p hp => ?_, hq⟩
  obtain ⟨p₀, h₀, rfl⟩ := List.mem_map.1 hp
  exact hpos p₀ h₀

/-! ## What lanes and qualification submit (R14, R117, R123) -/

/-- An extent lies in its strip (R12). -/
theorem Geo.extents_end (g : Geo) (p : Profile) (stripe x : Nat) :
    ∀ e ∈ g.extents p stripe x, e.firstBlock + e.blocks ≤ p.l := by
  intro e he
  unfold Geo.extents at he
  simp only at he
  split at he
  · simp only [List.mem_singleton] at he
    subst he
    simp
  · simp only [List.mem_cons, List.not_mem_nil, or_false] at he
    rcases he with rfl | rfl
    · simp only
      omega
    · simp only
      omega

theorem State.stripRequests_end {s : State} (hs : s.MemoryCanonical) (kind : RequestKind) (n : Fin 4) (buf : BufId)
    (stripe x : Nat) : ∀ r ∈ s.stripRequests kind n buf stripe x, r.Ends := by
  intro r hr
  obtain ⟨e, he, rfl⟩ := List.mem_map.1 hr
  exact Nat.le_trans (s.geo.extents_end s.profile stripe x e he) hs.strip_le

theorem State.readRequests_end {s : State} (hs : s.MemoryCanonical) (n : Fin 4) (b : Batch) :
    ∀ r ∈ s.readRequests n b, r.Ends := by
  intro r hr
  obtain ⟨i, -, hr⟩ := List.mem_flatMap.1 hr
  obtain ⟨x, -, hr⟩ := List.mem_flatMap.1 hr
  exact State.stripRequests_end hs _ _ _ _ _ r hr

theorem State.writeRequests_end {s : State} (hs : s.MemoryCanonical) (n : Fin 4) (b : Batch) :
    ∀ r ∈ s.writeRequests n b, r.Ends := by
  intro r hr
  obtain ⟨i, -, hr⟩ := List.mem_flatMap.1 hr
  exact State.stripRequests_end hs _ _ _ _ _ r hr

theorem State.qualRequest_end {s : State} (hs : s.MemoryCanonical) (kind : RequestKind) (k : Nat) (buf : BufId) :
    (s.qualRequest kind k buf).Ends := by
  have := hs.strip_le
  simpa [State.qualRequest, newRequest, qualExtent, Request.Ends] using this

/-! ## Locks and lanes -/

theorem State.keeps_enterReading (n : Fin 4) (s : State) : s.KeepsMemory (s.enterReading n) := by
  unfold State.enterReading
  split
  · exact .refl s
  · exact (s.keeps_updLane n _).submitAll fun hs => State.readRequests_end hs n _

theorem State.keeps_enterWriting (n : Fin 4) (results : List StripeResult) (s : State) :
    s.KeepsMemory (s.enterWriting n results) := by
  unfold State.enterWriting
  split
  · exact .refl s
  · exact (s.keeps_updLane n _).submitAll fun hs => State.writeRequests_end hs n _

theorem State.keeps_grantWaiting (e : LockEntry) (s : State) : s.KeepsMemory (s.grantWaiting e) := by
  unfold State.grantWaiting
  split
  · exact s.keeps_enterReading _
  · exact (s.keeps_answer _).trans (State.keeps_updRtu _ _)

theorem State.keeps_scanFrom (rest kept : List LockEntry) (s : State) : s.KeepsMemory (State.scanFrom rest kept s) := by
  induction rest generalizing kept s with
  | nil => exact .refl s
  | cons e rest ih =>
    simp only [State.scanFrom]
    split
    · exact ((s.keeps_updSlk _).trans (State.keeps_grantWaiting _ _)).trans (ih _ _)
    · exact ih _ _

theorem State.keeps_scanLocks (s : State) : s.KeepsMemory s.scanLocks := State.keeps_scanFrom _ _ s

theorem State.keeps_requestLaneLock (n : Fin 4) (s : State) : s.KeepsMemory (s.requestLaneLock n) := by
  unfold State.requestLaneLock
  split
  · exact .refl s
  · simp only
    split
    · exact (s.keeps_updSlk _).trans (State.keeps_enterReading _ _)
    · exact s.keeps_updSlk _

theorem State.keeps_emptyLocks (status : RouteStatus) (s : State) : s.KeepsMemory (s.emptyLocks status) :=
  .of_same rfl rfl rfl rfl

/-! ## Buffers and qualification -/

theorem State.keeps_setProgress (q : QualProgress) (s : State) : s.KeepsMemory (s.setProgress q) := s.keeps_updSes _

theorem State.keeps_beginAttempt (q : QualProgress) (s : State) : s.KeepsMemory (s.beginAttempt q) := by
  unfold State.beginAttempt
  split
  · exact s.keeps_setProgress _
  · have hfill : s.KeepsMemory (s.writeMem (blockAddress s.ses.patternBuf 0) (patternBytes q.strip s.profile.l)) :=
      State.keeps_writeMem (blocks := s.profile.l) (fun hs => by simpa using hs.strip_le)
        (Nat.le_of_eq (length_patternBytes _ _))
    exact (hfill.trans (State.keeps_setProgress _ _)).submit fun hs => State.qualRequest_end hs _ _ _

theorem State.keeps_beginReadBack (q : QualProgress) (s : State) : s.KeepsMemory (s.beginReadBack q) := by
  unfold State.beginReadBack
  split
  · exact s.keeps_setProgress _
  · exact (s.keeps_setProgress _).submit fun hs => State.qualRequest_end hs _ _ _

theorem State.keeps_resumeHeldStep (s : State) : s.KeepsMemory s.resumeHeldStep := by
  unfold State.resumeHeldStep
  split
  · exact .refl s
  · split
    · exact .refl s
    · exact s.keeps_beginAttempt _
    · exact s.keeps_beginReadBack _

theorem State.keeps_grantSet (owner : Owner) (bufs : List BufId) (s : State) : s.KeepsMemory (s.grantSet owner bufs) := by
  unfold State.grantSet
  split
  · exact (s.keeps_updLane _ _).trans (State.keeps_requestLaneLock _ _)
  · simp only
    split
    · exact s.keeps_updSes _
    · exact (s.keeps_updSes _).trans (State.keeps_beginAttempt _ _)

theorem State.keeps_grantBuffers (r : BufRequest) (s : State) : s.KeepsMemory (s.grantBuffers r) :=
  (s.keeps_updSbp _).trans (State.keeps_grantSet _ _ _)

theorem State.keeps_requestBuffers (r : BufRequest) (s : State) : s.KeepsMemory (s.requestBuffers r) := by
  unfold State.requestBuffers
  split
  · exact s.keeps_grantBuffers r
  · exact s.keeps_updSbp _

theorem State.keeps_scanBuffersFrom (l : List BufRequest) (s : State) : s.KeepsMemory (State.scanBuffersFrom l s) := by
  induction l generalizing s with
  | nil => exact .refl s
  | cons r rest ih =>
    simp only [State.scanBuffersFrom]
    split
    · exact ((s.keeps_updSbp _).trans (State.keeps_grantBuffers _ _)).trans (ih _)
    · exact .refl s

theorem State.keeps_scanBuffers (s : State) : s.KeepsMemory s.scanBuffers := State.keeps_scanBuffersFrom _ s

theorem State.keeps_returnSet (bufs : List BufId) (s : State) : s.KeepsMemory (s.returnSet bufs) := .of_same rfl rfl rfl rfl

theorem State.keeps_releaseHold (s : State) : s.KeepsMemory s.releaseHold := .of_same rfl rfl rfl rfl

/-! ## Batches -/

theorem State.keeps_serveLane {n : Fin 4} {s t : State} (h : s.serveLane n = some t) : s.KeepsMemory t := by
  unfold State.serveLane at h
  obtain ⟨x, -, rfl⟩ := Option.map_eq_some_iff.1 h
  exact ((s.keeps_updRgt _).trans (State.keeps_updLane n _ _)).trans (State.keeps_requestBuffers _ _)

theorem State.keeps_passOver (l : List (Fin 4)) (s : State) : s.KeepsMemory (State.passOver l s) := by
  induction l generalizing s with
  | nil => exact .refl s
  | cons n rest ih =>
    simp only [State.passOver]
    split
    · split
      · exact .refl s
      · rename_i h
        exact (State.keeps_serveLane h).trans (ih _)
    · exact ih _

theorem State.keeps_stepPass (s : State) : s.KeepsMemory s.stepPass := by
  unfold State.stepPass
  split
  · cases h : s.serveLane 0 with
    | none => exact .refl s
    | some t => exact State.keeps_serveLane h
  · exact .refl s

theorem State.keeps_offer (r : Record) (s : State) : s.KeepsMemory (s.offer r).1 := by
  unfold State.offer
  split
  · exact .of_same rfl rfl rfl rfl
  · exact s.keeps_setEvent _

theorem State.keeps_retire (stripe : Nat) (s : State) : s.KeepsMemory (s.retire stripe).1 := by
  unfold State.retire
  split
  · exact .of_same rfl rfl rfl rfl
  · exact .refl s

theorem State.keeps_retireAll (l : List Nat) (s : State) : s.KeepsMemory (State.retireAll l s).1 := by
  induction l generalizing s with
  | nil => exact .refl s
  | cons stripe rest ih => exact (s.keeps_retire stripe).trans (ih _)

theorem State.keeps_offerAll (n : Fin 4) (l : List Nat) (s : State) : s.KeepsMemory (State.offerAll n l s).1 := by
  induction l generalizing s with
  | nil => exact .refl s
  | cons stripe rest ih =>
    have h := s.keeps_offer (s.lanes[n].recordOf stripe)
    simp only [State.offerAll]
    split
    · exact (h.trans (State.keeps_updLane n _ _)).trans (ih _)
    · exact h

theorem State.keeps_complete (s : State) :
    s.KeepsMemory s.complete := (s.keeps_changeState _).trans (State.keeps_setEvent _ _)

theorem State.keeps_completeOr (st : SessionState) (s : State) : s.KeepsMemory (s.completeOr st) := by
  unfold State.completeOr
  split
  · exact s.keeps_complete
  · exact s.keeps_changeState _

theorem State.keeps_drainingExit (s : State) : s.KeepsMemory s.drainingExit := by
  unfold State.drainingExit
  split
  · exact s.keeps_completeOr _
  · exact .refl s

theorem State.keeps_steppingExit (s : State) : s.KeepsMemory s.steppingExit := by
  unfold State.steppingExit
  split
  · exact (s.keeps_setEvent _).trans (State.keeps_completeOr _ _)
  · exact .refl s

theorem State.keeps_completionTest (s : State) : s.KeepsMemory s.completionTest := by
  unfold State.completionTest
  split
  · split
    · exact s.keeps_complete
    · exact .refl s
  · exact s.keeps_drainingExit
  · exact s.keeps_steppingExit
  · exact .refl s

theorem State.keeps_suspendedExit (s : State) : s.KeepsMemory s.suspendedExit := by
  unfold State.suspendedExit
  split
  · split
    · exact s.keeps_complete
    · exact s.keeps_changeState _
  · exact .refl s

theorem State.keeps_testRegion (region : Nat) (s : State) : s.KeepsMemory (s.testRegion region) := by
  unfold State.testRegion
  split
  · exact .refl s
  · split
    · exact s.keeps_updRgt _
    · exact .refl s

theorem State.keeps_passAfterBatch (n : Fin 4) (returned : Bool) (s : State) :
    s.KeepsMemory (s.passAfterBatch n returned) := by
  unfold State.passAfterBatch
  split
  · split
    · exact State.keeps_passOver _ s
    · exact State.keeps_passOver _ s
  · exact .refl s

theorem State.keeps_giveUpBatch (n : Fin 4) (s : State) : s.KeepsMemory (s.giveUpBatch n) := .of_same rfl rfl rfl rfl

theorem State.keeps_giveUpBuffers (n : Fin 4) (s : State) : s.KeepsMemory (s.giveUpBuffers n) := .of_same rfl rfl rfl rfl

theorem State.keeps_reportBatch (b : Batch) (s : State) : s.KeepsMemory (s.reportBatch b) :=
  (s.keeps_updRgt _).trans (State.keeps_testRegion _ _)

/-- The seven steps of R129, one after another. -/
theorem State.keeps_endBatch (n : Fin 4) (s : State) : s.KeepsMemory (s.endBatch n) := by
  unfold State.endBatch
  split
  · exact .refl s
  · rename_i b _
    have locks : s.KeepsMemory (s.giveUpBatch n).scanLocks := (s.keeps_giveUpBatch n).trans (State.keeps_scanLocks _)
    have buffers (u : State) : u.KeepsMemory (u.giveUpBuffers n).scanBuffers :=
      (u.keeps_giveUpBuffers n).trans (State.keeps_scanBuffers _)
    have report (u : State) : u.KeepsMemory (((u.clearLane n).reportBatch b).completionTest) :=
      ((u.keeps_updLane n _).trans (State.keeps_reportBatch b _)).trans (State.keeps_completionTest _)
    exact (((locks.trans (buffers _)).trans (report _)).trans (State.keeps_suspendedExit _)).trans
      (State.keeps_passAfterBatch _ _ _)

theorem State.keeps_enterHolding (n : Fin 4) (s : State) : s.KeepsMemory (s.enterHolding n) := by
  unfold State.enterHolding
  simp only
  split
  · exact .of_same rfl rfl rfl rfl
  · exact .of_same rfl rfl rfl rfl

theorem State.keeps_enterSettling (n : Fin 4) (s : State) : s.KeepsMemory (s.enterSettling n) := by
  unfold State.enterSettling
  have h := (s.keeps_updLane n fun l => { l with stage := .settling, offers := s.lanes[n].firstOffers }).trans
    (State.keeps_offerAll n s.lanes[n].firstOffers _)
  simp only
  split
  · rename_i heq
    rw [heq] at h
    exact h.trans (State.keeps_endBatch _ _)
  · rename_i heq
    rw [heq] at h
    exact h.trans (State.keeps_enterHolding _ _)

theorem State.keeps_serveHolders (l : List (Fin 4)) (s : State) : s.KeepsMemory (State.serveHolders l s) := by
  induction l generalizing s with
  | nil => exact .refl s
  | cons n rest ih =>
    have h := State.keeps_offerAll n s.lanes[n].offers s
    simp only [State.serveHolders]
    split
    · rename_i heq
      rw [heq] at h
      exact ((h.trans (State.keeps_holdingOrder _ _)).trans (State.keeps_endBatch _ _)).trans (ih _)
    · rename_i heq
      rw [heq] at h
      exact h

theorem State.keeps_afterRetirement (s : State) : s.KeepsMemory s.afterRetirement := State.keeps_serveHolders _ s

/-! ## Solve contexts, the end of a session and faults -/

/-- A solve context stands at a block below 64 (R161). -/
theorem State.keeps_contexts {s : State} {f : Rcd → Rcd}
    (h : s.MemoryCanonical → ∀ n : Fin 4, ∀ c, (f s.rcd).contexts[n] = some c → c.block < 64) :
    s.KeepsMemory (s.updRcd f) := by
  refine ⟨rfl, rfl, rfl, fun hs => ?_⟩
  have hblocks := h hs
  obtain ⟨hmem, hgeo, hrec, -⟩ := hs
  exact ⟨hmem, hgeo, hrec, hblocks⟩

/-- RCD's next block is below 64 (R161). -/
theorem State.MemoryCanonical.block_lt {s : State} (h : s.MemoryCanonical) {n : Fin 4} {c : SolveContext}
    (hc : s.rcd.contexts[n] = some c) : c.block < 64 := by
  obtain ⟨-, -, -, hctx⟩ := h
  exact hctx n c hc

theorem State.keeps_setContext {n : Fin 4} {c : Option SolveContext} {s : State}
    (h : s.MemoryCanonical → ∀ c', c = some c' → c'.block < 64) : s.KeepsMemory (s.setContext n c) := by
  refine State.keeps_contexts fun hs m c' hc => ?_
  simp only [Fin.getElem_fin, Vector.getElem_set] at hc
  split at hc
  · exact h hs c' hc
  · exact hs.block_lt hc

theorem State.keeps_enterSolving (n : Fin 4) (s : State) : s.KeepsMemory (s.enterSolving n) := by
  refine (s.keeps_updLane n _).trans (State.keeps_setContext fun _ c hc => ?_)
  obtain rfl := Option.some.inj hc
  exact Nat.zero_lt_succ _

theorem State.keeps_abandonLane (s : State) (n : Fin 4) : s.KeepsMemory (s.abandonLane n) := by
  unfold State.abandonLane
  split
  · exact (s.keeps_returnSet _).trans (State.keeps_updLane n _ _)
  · exact .refl s

theorem State.keeps_abandonQualification (s : State) : s.KeepsMemory s.abandonQualification := .of_same rfl rfl rfl rfl

theorem State.keeps_abandonAll (s : State) : s.KeepsMemory s.abandonAll := by
  have waits : s.KeepsMemory (s.clearAll.updSbp fun p => { p with waiting := [] }) :=
    s.keeps_clearAll.trans (State.keeps_updSbp _ _)
  have lanes := waits.trans (State.KeepsMemory.foldl State.keeps_abandonLane allLanes _)
  have rest := (lanes.trans (State.keeps_abandonQualification _)).trans (State.keeps_holdingOrder [] _)
  unfold State.abandonAll
  exact rest.trans (State.keeps_contexts fun _ n c hc => by simp at hc)

theorem State.keeps_endSession (new : SessionState) (cause : Cause) (s : State) : s.KeepsMemory (s.endSession new cause) :=
  ((s.keeps_abandonAll.trans (State.keeps_emptyLocks _ _)).trans (State.keeps_updSes _ _)).trans
    (State.keeps_changeState _ _)

theorem State.keeps_faultLane (x : Nat) (s : State) (n : Fin 4) : s.KeepsMemory (s.faultLane x n) := by
  unfold State.faultLane
  split
  · simp only
    split
    · exact (State.keeps_updLane n _ _).trans (State.keeps_enterSolving n _)
    · exact State.keeps_updLane n _ _
  · exact State.keeps_updLane n _ _
  · exact .refl s

theorem State.keeps_markFaulted (x : Nat) (s : State) : s.KeepsMemory (s.markFaulted x) := .of_same rfl rfl rfl rfl

theorem State.keeps_firstFault (x : Nat) (s : State) : s.KeepsMemory (s.firstFault x) := by
  unfold State.firstFault
  exact (((s.keeps_markFaulted x).trans (State.keeps_updSes _ _)).trans (State.keeps_clearPosition x _)).trans
    (State.KeepsMemory.foldl (State.keeps_faultLane x) allLanes _)

theorem State.keeps_takeFault (x : Nat) (s : State) : s.KeepsMemory (s.takeFault x) := by
  unfold State.takeFault
  split
  · exact .refl s
  · split
    · exact .refl s
    · exact .refl s
    · exact s.keeps_endSession _ _
    · split
      · exact s.keeps_firstFault x
      · exact (s.keeps_markFaulted x).trans (State.keeps_endSession _ _ _)

/-! ## RCD, settlements, completions and timeouts -/

/-- RCD's next place is block 0 of a stripe, or a block below the strip length (R161). -/
theorem nextPlace_lt {l length i b i' b' : Nat} (h : nextPlace l length i b = some (i', b')) : b' < max l 1 := by
  unfold nextPlace at h
  split at h
  · cases h
    omega
  · split at h
    · cases h
      omega
    · cases h

theorem State.keeps_takeBlock (n : Fin 4) (s : State) : s.KeepsMemory (s.takeBlock n) := by
  unfold State.takeBlock
  split
  · rename_i c batch hctx _
    have hwrite (buf : BufId) (k : SolveCase) (stripe : Nat) :
        s.KeepsMemory (s.writeMem (blockAddress buf c.block) (s.solvedBytes k n c.stripe stripe c.block)) :=
      State.keeps_writeMem (blocks := 1) (fun hs => hs.block_lt hctx)
        (Nat.le_of_eq (State.length_solvedBytes _ _ _ _ _ _))
    simp only
    split
    · rename_i i b hplace
      refine (hwrite _ _ _).trans (State.keeps_setContext fun hs c' hc => ?_)
      obtain rfl := Option.some.inj hc
      have hl := hs.strip_le
      exact Nat.lt_of_lt_of_le (nextPlace_lt hplace) (by omega)
    · exact ((hwrite _ _ _).trans (State.keeps_setContext fun _ _ hc => by cases hc)).trans (State.keeps_enterWriting n _ _)
  · exact .refl s

theorem State.keeps_settleRead (n : Fin 4) (r : Request) (o : Settlement) (s : State) :
    s.KeepsMemory (s.settleRead n r o) := by
  unfold State.settleRead
  split
  · simp only
    split
    · exact (State.keeps_updLane n _ _).trans (State.keeps_enterSolving n _)
    · exact State.keeps_updLane n _ _
  · exact .refl s

theorem State.keeps_settleWrite (n : Fin 4) (s : State) : s.KeepsMemory (s.settleWrite n) := by
  unfold State.settleWrite
  split
  · simp only
    split
    · exact (State.keeps_updLane n _ _).trans (State.keeps_enterSettling n _)
    · exact State.keeps_updLane n _ _
  · exact .refl s

theorem State.keeps_finishQualification (s : State) : s.KeepsMemory s.finishQualification :=
  ((((s.keeps_returnSet _).trans (State.keeps_updSes _ _)).trans (State.keeps_scanBuffers _)).trans
    (State.keeps_changeState _ _)).trans (State.keeps_setEvent _ _)

theorem State.keeps_attemptOutcome (q : QualProgress) (passed : Bool) (s : State) :
    s.KeepsMemory (s.attemptOutcome q passed) := by
  unfold State.attemptOutcome
  split
  · split
    · exact s.keeps_beginAttempt _
    · exact s.keeps_finishQualification
  · split
    · exact s.keeps_beginAttempt _
    · exact s.keeps_endSession _ _

theorem State.keeps_settleQualification (o : Settlement) (s : State) : s.KeepsMemory (s.settleQualification o) := by
  unfold State.settleQualification
  split
  · exact .refl s
  · split
    · exact .refl s
    · exact s.keeps_beginReadBack _
    · exact s.keeps_attemptOutcome _ _

theorem State.keeps_settle (r : Request) (o : Settlement) (s : State) : s.KeepsMemory (s.settle r o) := by
  unfold State.settle
  split
  · exact .refl s
  · exact s.keeps_settleQualification o
  · split
    · exact s.keeps_settleWrite _
    · exact s.keeps_settleRead _ _ _

theorem State.keeps_endWith {report : State → State} (h : ∀ s : State, s.KeepsMemory (report s)) (x : Nat) (s : State) :
    s.KeepsMemory (s.endWith x report) :=
  ((h s).trans (State.keeps_serveTagWait _)).trans (State.keeps_decideAfterFree x _)

/-- A completed request either ends or stands in its queue again, with the blocks it has. -/
theorem State.KeepsMemory.completeRequest {s u : State} (h : s.KeepsMemory u) {r : Request} (hr : s.MemoryCanonical → r.Ends)
    (status : CompletionStatus) (mask : Mask) : s.KeepsMemory (u.completeRequest r status mask) := by
  have settles (o : Settlement) (v : State) : v.KeepsMemory (v.endWith r.position (State.settle r o)) :=
    State.keeps_endWith (fun w => w.keeps_settle r o) _ v
  have fails (v : State) : v.KeepsMemory (v.endWith r.position (State.endSession .failed .spareUnwritable)) :=
    State.keeps_endWith (fun w => w.keeps_endSession _ _) _ v
  cases status with
  | good =>
    simp only [State.completeRequest, State.completeGood]
    exact (h.trans (State.keeps_setTimeouts _ _ _)).trans (settles _ _)
  | medium =>
    have h := h.trans (State.keeps_setTimeouts r.position 0 u)
    simp only [State.completeRequest, State.completeMedium]
    split
    · exact h.trans (settles _ _)
    · split
      · exact h.trans (fails _)
      · exact (h.requeueHead (r := { r with rewritten := true }) hr).trans (State.keeps_issueDecision _ _)
  | defer =>
    simp only [State.completeRequest, State.completeDefer]
    split
    · exact (h.requeueHead (r := { r with defers := r.defers + 1 }) hr).trans (State.keeps_issueDecision _ _)
    · split
      · exact h.trans (fails _)
      · exact h.trans (settles _ _)
  | lost =>
    simp only [State.completeRequest, State.completeLost]
    exact ((h.trans (State.keeps_serveTagWait _)).trans (State.keeps_takeFault _ _)).trans (State.keeps_decideAfterFree _ _)

theorem State.keeps_removeQuarantined (tag : Nat) (s : State) : s.KeepsMemory (s.removeQuarantined tag) := by
  refine State.keeps_updMru ⟨rfl, rfl, rfl, fun h => (Mru.recordsEnd_iff _).2 ?_⟩
  obtain ⟨hpos, hq⟩ := (Mru.recordsEnd_iff _).1 h
  exact ⟨hpos, fun r hr => hq r (List.mem_of_mem_filter hr)⟩

theorem State.keeps_reportQuarantineEnd (s : State) : s.KeepsMemory s.reportQuarantineEnd := by
  unfold State.reportQuarantineEnd
  exact (s.keeps_releaseHold.trans (State.keeps_scanBuffers _)).trans (State.keeps_resumeHeldStep _)

theorem State.keeps_endQuarantine (tag : Nat) (s : State) : s.KeepsMemory (s.endQuarantine tag) := by
  unfold State.endQuarantine
  exact (((s.keeps_removeQuarantined tag).trans (State.keeps_reportQuarantineEnd _)).trans
    (State.keeps_serveTagWait _)).trans (State.keeps_decideAll _)

theorem State.keeps_landData {r : Request} {s : State} (hr : s.MemoryCanonical → r.Ends) (data : List Byte) :
    s.KeepsMemory (s.landData r data) := by
  unfold State.landData
  split
  · exact .refl s
  · exact State.keeps_writeMem (blocks := r.blocks) hr (List.length_take_le _ _)

theorem Mru.mem_records_of_findOutstanding {m : Mru} {tag : Nat} {r : Request} (h : m.findOutstanding tag = some r) :
    r ∈ m.records := by
  obtain ⟨p, hp, hr⟩ := List.mem_flatMap.1 (List.mem_of_find?_eq_some h)
  exact List.mem_append_left _ (List.mem_flatMap.2 ⟨p, hp, List.mem_append_right _ hr⟩)

theorem Mru.mem_records_of_findQuarantined {m : Mru} {tag : Nat} {r : Request} (h : m.findQuarantined tag = some r) :
    r ∈ m.records := List.mem_append_right _ (List.mem_of_find?_eq_some h)

theorem State.MemoryCanonical.ends {s : State} (h : s.MemoryCanonical) {r : Request} (hr : r ∈ s.mru.records) : r.Ends := by
  obtain ⟨-, -, hrec, -⟩ := h
  exact hrec r hr

theorem State.keeps_takeCompletion (tag : Nat) (status : Byte) (mask : Mask) (data : List Byte) (s : State) :
    s.KeepsMemory (s.takeCompletion tag status mask data) := by
  unfold State.takeCompletion
  split
  · exact .refl s
  · split
    · rename_i r hr
      have hends : s.MemoryCanonical → r.Ends := fun hs => hs.ends (Mru.mem_records_of_findOutstanding hr)
      exact ((State.keeps_landData hends data).trans (State.keeps_leaveOutstanding _ _ _)).completeRequest hends _ _
    · split
      · rename_i r hr
        exact (State.keeps_landData (fun hs => hs.ends (Mru.mem_records_of_findQuarantined hr)) data).trans
          (State.keeps_endQuarantine _ _)
      · exact .refl s

theorem State.KeepsMemory.serveTimedOut {s u : State} (h : s.KeepsMemory u) {r : Request} (hr : s.MemoryCanonical → r.Ends) :
    s.KeepsMemory (u.serveTimedOut r) := by
  unfold State.serveTimedOut
  split
  · exact h.requeueHead hr
  · exact h.trans (State.keeps_settle _ _ _)

theorem State.keeps_timeOut {r : Request} {s : State} (hr : s.MemoryCanonical → r.Ends) (tag : Nat) :
    s.KeepsMemory (s.timeOut r tag) := by
  have late : s.KeepsMemory _ := (s.keeps_leaveOutstanding r.position tag).quarantine
    fun hs => quarantine_ends (late := [r]) (by simpa using hr hs) (s.now + s.mru.timeout)
  have counted := (late.trans (State.keeps_setEvent .memberTimeout _)).trans
    (State.keeps_setTimeouts r.position (min 3 ((s.mru.pos r.position).timeouts + 1)) _)
  unfold State.timeOut
  dsimp only
  refine State.KeepsMemory.trans ?_ (State.keeps_issueDecision _ _)
  split
  · exact counted.serveTimedOut hr
  · exact counted.trans (State.keeps_takeFault _ _)

end Sys2Proof.Machine
end

section
/-! What each command, each port and each event of time keeps of the settings, the geometry and the buffer memory, and so
what a step keeps (O60). -/

namespace Sys2Proof.Machine

/-! ## The ranges from one state to the next -/

/-- What O60 says of the states before and after a step, as a relation that composes. -/
structure State.RangesKept (s t : State) : Prop where
  settings : s.SettingsInRange → t.SettingsInRange
  geometry : s.GeometryInRange → t.GeometryInRange
  memory : s.GeometryInRange → s.MemoryCanonical → t.MemoryCanonical

theorem State.RangesKept.refl (s : State) : s.RangesKept s := ⟨id, id, fun _ => id⟩

theorem State.RangesKept.trans {s t u : State} (h : s.RangesKept t) (h' : t.RangesKept u) : s.RangesKept u :=
  ⟨h'.settings ∘ h.settings, h'.geometry ∘ h.geometry, fun hg hm => h'.memory (h.geometry hg) (h.memory hg hm)⟩

/-- Only the heat threshold and the lane count may change, within their ranges. -/
theorem State.KeepsMemory.ranges {s t : State} (h : s.KeepsMemory t) (hgeo : t.geo = s.geo)
    (heat : s.rgt.heatThreshold ≤ 255 → t.rgt.heatThreshold ≤ 255)
    (lanes : 1 ≤ s.ses.laneCount ∧ s.ses.laneCount ≤ 4 → 1 ≤ t.ses.laneCount ∧ t.ses.laneCount ≤ 4) :
    s.RangesKept t := by
  refine ⟨fun ⟨hlimit, hwindow, htime, hheat, hlanes⟩ => ⟨?_, ?_, ?_, heat hheat, lanes hlanes⟩, ?_, fun _ => h.canonical⟩
  · rwa [h.paceLimit]
  · rwa [h.paceWindow]
  · rwa [h.timeout]
  · unfold State.GeometryInRange
    rw [hgeo]
    exact id

/-- A lane's work, a settlement or a fault changes no setting at all. -/
theorem State.KeepsMemory.ranges_of_rebuild {s t : State} (h : s.KeepsMemory t) (hr : RebuildOnly s t) : s.RangesKept t := by
  obtain ⟨hgeo, -, -, -, -, hlanes, hheat, -, -⟩ := hr
  exact h.ranges hgeo (by rw [hheat]; exact id) (by rw [hlanes]; exact id)

/-! ## The commands -/

theorem clampTo_range {lo hi : Nat} (h : lo ≤ hi) (v : Nat) : lo ≤ clampTo lo hi v ∧ clampTo lo hi v ≤ hi := by
  unfold clampTo
  split
  · omega
  · split <;> omega

theorem Geo.shaped_unset (p : Option Profile) : ({ profile := p, segments := Geo.unsetSegments } : Geo).Shaped := by
  refine ⟨rfl, fun row hr => ?_⟩
  rw [List.eq_of_mem_replicate hr]
  rfl

/-- A new geometry in range: the settings stay, and so does the memory, whose blocks are not GEO's. -/
theorem State.ranges_geo {s : State} {g : Geo}
    (h : s.GeometryInRange → (∀ p, g.profile = some p → p.Fits) ∧ g.Shaped) : s.RangesKept { s with geo := g } := by
  refine ⟨id, h, fun hg ⟨hmem, _, hrec, hctx⟩ => ⟨hmem, fun p hp => ?_, hrec, hctx⟩⟩
  obtain ⟨-, ⟨-, hl⟩, -⟩ := (h hg).1 p hp
  exact hl

theorem takeSetGeometry_ranges (n l t rs k : Nat) (s : State) : s.RangesKept (takeSetGeometry n l t rs k s).1 := by
  unfold takeSetGeometry
  simp only
  split
  · exact .refl s
  · split
    · rename_i hp
      refine State.ranges_geo fun _ => ⟨fun p h => ?_, Geo.shaped_unset _⟩
      obtain rfl := Option.some.inj h
      exact (Profile.inRange_iff _).1 hp
    · exact .refl s

theorem Geo.Shaped.row {g : Geo} (h : g.Shaped) {x : Nat} (hx : x < 16) : (g.segments.getD x []).length = 16 := by
  have hlt : x < g.segments.length := by rw [h.1]; exact hx
  rw [List.getD_eq_getElem _ _ hlt]
  exact h.2 _ (List.getElem_mem hlt)

theorem takeSetSegments_ranges (x f : Nat) (elements : List SegmentElement) (s : State) :
    s.RangesKept (takeSetSegments x f elements s).1 := by
  unfold takeSetSegments
  split
  · exact .refl s
  · split
    · exact .refl s
    · rename_i p hp
      split
      · exact .refl s
      · rename_i hx
        split
        · exact .refl s
        · rename_i hf
          split
          · exact .refl s
          · simp only
            split
            · exact .refl s
            · refine State.ranges_geo fun hg => ⟨hg.1, hg.2.set x ?_⟩
              obtain ⟨⟨-, hn⟩, -⟩ := hg.1 p hp
              exact length_loadRow (hg.2.row (by omega)) (by rw [List.length_map]; omega)

theorem takeOpenSession_ranges (f b lanes fill start aq kq skipQual : Nat) (s : State) :
    s.RangesKept (takeOpenSession f b lanes fill start aq kq skipQual s).1 := by
  have opened (p : Profile) (kind : FillKind) (skip : Bool) (st : SessionState) :
      s.RangesKept ((((s.updSes fun _ => Ses.opened p.n f b lanes kind aq kq skip).updRgt
        (Rgt.build p start)).zeroTimeouts).changeState st) :=
    ((((s.keeps_updSes _).trans (State.keeps_updRgt _ _)).trans (State.keeps_zeroTimeouts _)).trans
      (State.keeps_changeState _ _)).ranges rfl id fun _ => clampTo_range (by decide) lanes
  unfold takeOpenSession
  split
  · exact .refl s
  · split
    · exact .refl s
    · exact .refl s
    · split
      · exact .refl s
      · simp only
        split
        · exact .refl s
        · split
          · exact opened _ _ _ _
          · exact (opened _ _ _ _).trans
              ((State.keeps_requestBuffers _ _).ranges_of_rebuild (State.requestBuffers_only _ _).rebuild)

theorem State.passOver_ranges (l : List (Fin 4)) (s : State) : s.RangesKept (State.passOver l s) :=
  (State.keeps_passOver l s).ranges_of_rebuild (State.passOver_rebuild l s)

theorem State.changeState_ranges (st : SessionState) (s : State) : s.RangesKept (s.changeState st) :=
  (s.keeps_changeState st).ranges_of_rebuild (s.changeState_rebuild st)

theorem State.forgetSession_ranges (s : State) : s.RangesKept s.forgetSession :=
  State.KeepsMemory.ranges (.of_same rfl rfl rfl rfl) rfl id id

theorem takeResetEngine_ranges (s : State) : s.RangesKept (takeResetEngine s).1 := by
  have cleared : s.RangesKept s.abandonAll.zeroTimeouts :=
    (s.keeps_abandonAll.trans (State.keeps_zeroTimeouts _)).ranges_of_rebuild
      (s.abandonAll_rebuild.trans (State.zeroTimeouts_only _).rebuild)
  have emptied (u : State) :
      u.RangesKept (((u.updSlk fun _ => Slk.reset).updRtu fun _ => Rtu.reset).updMgp (Mgp.onlyEvent .engineReset)) :=
    State.KeepsMemory.ranges (.of_same rfl rfl rfl rfl) rfl id id
  unfold takeResetEngine
  exact (cleared.trans (State.forgetSession_ranges _)).trans (emptied _)

theorem takeSetPace_ranges (w window : Nat) (s : State) : s.RangesKept (takeSetPace w window s).1 := by
  have paced : s.RangesKept
      (s.updMru fun m => { m with paceLimit := clampTo 1 32 w, paceWindow := clampTo 1 1000 window }) := by
    refine ⟨?_, id, fun _ => id⟩
    rintro ⟨-, -, hrest⟩
    exact ⟨clampTo_range (by decide) w, clampTo_range (by decide) window, hrest⟩
  have decided (u : State) : u.RangesKept u.decideAll := u.keeps_decideAll.ranges_of_rebuild u.decideAll_only.rebuild
  simp only [takeSetPace]
  exact paced.trans (decided _)

theorem takeSetTimeout_ranges (ms : Nat) (s : State) : s.RangesKept (takeSetTimeout ms s).1 := by
  refine ⟨?_, id, fun _ => id⟩
  rintro ⟨hlimit, hwindow, -, hrest⟩
  exact ⟨hlimit, hwindow, clampTo_range (by decide) ms, hrest⟩

theorem takeSetHeat_ranges (h : Nat) (s : State) : s.RangesKept (takeSetHeat h s).1 := by
  unfold takeSetHeat
  exact (s.keeps_updRgt fun g => { g with heatThreshold := min h 255 }).ranges rfl (fun _ => Nat.min_le_right h 255) id

theorem takeSetLanes_ranges (count : Nat) (s : State) : s.RangesKept (takeSetLanes count s).1 := by
  have counted : s.RangesKept (s.updSes fun e => { e with laneCount := clampTo 1 4 count }) :=
    (s.keeps_updSes _).ranges rfl id fun _ => clampTo_range (by decide) count
  unfold takeSetLanes
  simp only
  split
  · exact counted.trans (State.passOver_ranges _ _)
  · exact counted

theorem takeForgive_ranges (stripe : Nat) (s : State) : s.RangesKept (takeForgive stripe s).1 := by
  unfold takeForgive
  split
  · exact .refl s
  · split
    · exact .refl s
    · split
      · exact .refl s
      · split
        · exact .refl s
        · exact ((s.keeps_retire stripe).trans (State.keeps_afterRetirement _)).ranges_of_rebuild
            ((s.retire_rebuild stripe).trans (State.afterRetirement_rebuild _))

/-- Every command of Table 10-2 leaves the settings, the geometry and the memory in range. -/
theorem runCommand_ranges (c : HostCommand) (s : State) : s.RangesKept (runCommand c s).1 := by
  cases c with
  | setGeometry n l t rs k => exact takeSetGeometry_ranges n l t rs k s
  | setSegments position first elements => exact takeSetSegments_ranges position first elements s
  | openSession f b lanes fill startRegion aq kq skipQual =>
    exact takeOpenSession_ranges f b lanes fill startRegion aq kq skipQual s
  | start =>
    simp only [runCommand, takeStart]
    split
    · exact (s.changeState_ranges _).trans (State.passOver_ranges _ _)
    · exact .refl s
  | pause =>
    simp only [runCommand, takePause]
    split
    · exact (s.changeState_ranges _).trans ((State.keeps_drainingExit _).ranges_of_rebuild (State.drainingExit_rebuild _))
    · exact .refl s
  | resume =>
    simp only [runCommand, takeResume]
    split
    · exact (s.changeState_ranges _).trans (State.passOver_ranges _ _)
    · exact .refl s
  | step =>
    simp only [runCommand, takeStep]
    split
    · exact (s.changeState_ranges _).trans (((State.keeps_stepPass _).trans (State.keeps_steppingExit _)).ranges_of_rebuild
        ((State.stepPass_rebuild _).trans (State.steppingExit_rebuild _)))
    · exact .refl s
  | abort =>
    simp only [runCommand, takeAbort]
    split
    · exact (s.keeps_endSession _ _).ranges_of_rebuild (s.endSession_rebuild _ _)
    · exact .refl s
  | closeSession =>
    simp only [runCommand, takeCloseSession]
    split
    · exact (((s.keeps_emptyLocks _).ranges_of_rebuild (s.emptyLocks_only _).rebuild).trans
        (State.forgetSession_ranges _)).trans ((State.keeps_setEvent _ _).ranges_of_rebuild (State.setEvent_rebuild _ _))
    · exact .refl s
  | promote region =>
    simp only [runCommand, takePromote]
    split
    · exact .refl s
    · exact State.KeepsMemory.ranges (.of_same rfl rfl rfl rfl) rfl id id
  | demote region =>
    simp only [runCommand, takeDemote]
    split
    · exact .refl s
    · exact State.KeepsMemory.ranges (.of_same rfl rfl rfl rfl) rfl id id
  | memberDown position =>
    simp only [runCommand, takeMemberDown]
    split
    · exact .refl s
    · split
      · exact .refl s
      · exact (s.keeps_takeFault _).ranges_of_rebuild (s.takeFault_rebuild _)
  | setPace w window => exact takeSetPace_ranges w window s
  | setTimeout ms => exact takeSetTimeout_ranges ms s
  | setHeat h => exact takeSetHeat_ranges h s
  | setLanes count => exact takeSetLanes_ranges count s
  | setCheck setting =>
    simp only [runCommand, takeSetCheck]
    split
    · exact .refl s
    · split
      · exact .refl s
      · exact State.KeepsMemory.ranges (.of_same rfl rfl rfl rfl) rfl id id
  | setEventEnables events => exact (s.keeps_updMgp _).ranges rfl id id
  | ackEvents events => exact (s.keeps_updMgp _).ranges rfl id id
  | getStatus => exact .refl s
  | getRegion region =>
    simp only [runCommand, takeGetRegion]
    split
    · exact .refl s
    · split <;> exact .refl s
  | listRecords first maxCount =>
    simp only [runCommand, takeListRecords]
    split
    · exact .refl s
    · split <;> exact .refl s
  | forgive stripe => exact takeForgive_ranges stripe s
  | resetEngine => exact takeResetEngine_ranges s

theorem runDecoded_ranges (d : Decoded) (s : State) : s.RangesKept (runDecoded d s).1 := by
  cases d with
  | unknown => exact .refl s
  | badLength => exact .refl s
  | command c => exact runCommand_ranges c s

/-! ## The ports -/

theorem State.updMgp_ranges (f : Mgp → Mgp) (s : State) : s.RangesKept (s.updMgp f) := (s.keeps_updMgp f).ranges rfl id id

theorem State.updRtu_ranges (f : Rtu → Rtu) (s : State) : s.RangesKept (s.updRtu f) := (s.keeps_updRtu f).ranges rfl id id

theorem State.emit_ranges (o : Output) (s : State) : s.RangesKept (s.emit o) := (s.keeps_emit o).ranges rfl id id

theorem State.setEvent_ranges (e : Event) (s : State) : s.RangesKept (s.setEvent e) := (s.keeps_setEvent e).ranges rfl id id

theorem State.beginEvent_ranges (s : State) : s.RangesKept s.beginEvent := s.keeps_beginEvent.ranges rfl id id

theorem State.takeMessage_ranges (m : CommandMessage) (s : State) : s.RangesKept (s.takeMessage m) := by
  unfold State.takeMessage State.respond
  exact (runDecoded_ranges _ s).trans (State.updMgp_ranges _ _)

theorem State.takeCommandsFuel_ranges (fuel : Nat) (s : State) : s.RangesKept (s.takeCommandsFuel fuel) := by
  induction fuel generalizing s with
  | zero => exact .refl s
  | succ fuel ih =>
    simp only [State.takeCommandsFuel]
    split
    · exact .refl s
    · split
      · exact ((s.updMgp_ranges _).trans (State.takeMessage_ranges _ _)).trans (ih _)
      · exact .refl s

theorem State.takeCommands_ranges (s : State) : s.RangesKept s.takeCommands := s.takeCommandsFuel_ranges _

theorem State.commandArrives_ranges (m : CommandMessage) (s : State) : s.RangesKept (s.commandArrives m) := by
  refine s.beginEvent_ranges.trans (State.RangesKept.trans ?_ (State.takeCommands_ranges _))
  unfold State.queueCommand
  split
  · exact State.updMgp_ranges _ _
  · exact State.setEvent_ranges _ _

theorem State.readResponse_ranges (s : State) : s.RangesKept s.readResponse := by
  unfold State.readResponse
  split
  · exact s.emit_ranges _
  · exact ((s.updMgp_ranges _).trans (State.emit_ranges _ _)).trans (State.takeCommands_ranges _)

theorem State.keeps_contribute (first count : Nat) (s : State) : s.KeepsMemory (s.contribute first count) := s.keeps_updRgt _

theorem State.keeps_takeQuery (tag : Byte) (first count : Nat) (s : State) :
    s.KeepsMemory (s.takeQuery tag first count) := by
  unfold State.takeQuery
  split
  · exact s.keeps_answer _
  · exact (s.keeps_answer _).trans (State.keeps_contribute _ _ _)

theorem State.keeps_takeClaim (tag : Byte) (first count : Nat) (s : State) :
    s.KeepsMemory (s.takeClaim tag first count) := by
  unfold State.takeClaim
  split
  · exact s.keeps_answer _
  · simp only
    split
    · exact ((s.keeps_updSlk _).trans (State.keeps_answer _ _)).trans (State.keeps_contribute _ _ _)
    · exact ((s.keeps_updSlk _).trans (State.keeps_updRtu _ _)).trans (State.keeps_contribute _ _ _)

theorem State.keeps_dropHeld (o : LockOwner) (s : State) : s.KeepsMemory (s.dropHeld o) := s.keeps_updSlk _

theorem State.keeps_releaseHeld (tag : Byte) (e : LockEntry) (listed : List Nat) (s : State) :
    s.KeepsMemory (s.releaseHeld tag e listed) := by
  have retired := State.keeps_retireAll (e.overwritten listed) s
  unfold State.releaseHeld
  simp only
  generalize State.retireAll (e.overwritten listed) s = x at retired ⊢
  have scanned := ((retired.trans (State.keeps_dropHeld (.claim tag) _)).trans
    (State.keeps_answer (releasedAnswer tag x.2) _)).trans (State.keeps_scanLocks _)
  split
  · exact scanned
  · exact scanned.trans (State.keeps_afterRetirement _)

theorem State.keeps_withdraw (tag : Byte) (s : State) : s.KeepsMemory (s.withdraw tag) := by
  have answered : s.KeepsMemory
      ((s.dropWaiting (.claim tag)).answer (plainAnswer tag kindRelease .withdrawn 0)).dropReservation :=
    .of_same rfl rfl rfl rfl
  exact answered.trans (State.keeps_scanLocks _)

theorem State.keeps_takeRelease (tag : Byte) (listed : List Nat) (s : State) : s.KeepsMemory (s.takeRelease tag listed) := by
  unfold State.takeRelease
  split
  · exact s.keeps_answer _
  · split
    · exact s.keeps_answer _
    · split
      · exact s.keeps_releaseHeld _ _ _
      · split
        · exact s.keeps_withdraw _
        · exact s.keeps_answer _

theorem State.takeRequest_ranges (r : RouteRequest) (s : State) : s.RangesKept (s.takeRequest r) := by
  unfold State.takeRequest
  split
  · exact (s.keeps_takeQuery _ _ _).ranges_of_rebuild (s.takeQuery_only _ _ _)
  · split
    · exact (s.keeps_takeClaim _ _ _).ranges_of_rebuild (s.takeClaim_only _ _ _)
    · split
      · exact (s.keeps_takeRelease _ _).ranges_of_rebuild (s.takeRelease_only _ _)
      · exact State.KeepsMemory.ranges (.of_same rfl rfl rfl rfl) rfl id id

theorem State.takeRequestsFuel_ranges (fuel : Nat) (s : State) : s.RangesKept (s.takeRequestsFuel fuel) := by
  induction fuel generalizing s with
  | zero => exact .refl s
  | succ fuel ih =>
    simp only [State.takeRequestsFuel]
    split
    · exact .refl s
    · split
      · exact ((s.updRtu_ranges _).trans (State.takeRequest_ranges _ _)).trans (ih _)
      · exact .refl s

theorem State.takeRequests_ranges (s : State) : s.RangesKept s.takeRequests := s.takeRequestsFuel_ranges _

theorem State.requestArrives_ranges (r : RouteRequest) (s : State) : s.RangesKept (s.requestArrives r) := by
  refine s.beginEvent_ranges.trans (State.RangesKept.trans ?_ (State.takeRequests_ranges _))
  unfold State.queueRequest
  split
  · exact State.updRtu_ranges _ _
  · exact State.setEvent_ranges _ _

theorem State.readAnswer_ranges (s : State) : s.RangesKept s.readAnswer := by
  unfold State.readAnswer
  split
  · exact s.emit_ranges _
  · exact ((s.updRtu_ranges _).trans (State.emit_ranges _ _)).trans (State.takeRequests_ranges _)

/-! ## Time, and the step -/

theorem State.runTimeEvent_ranges (e : TimeEvent) (s : State) : s.RangesKept (s.runTimeEvent e) := by
  cases e with
  | timeout tag =>
    simp only [State.runTimeEvent]
    split
    · exact .refl s
    · rename_i r hr
      exact (State.keeps_timeOut (fun hs => hs.ends (Mru.mem_records_of_findOutstanding hr)) tag).ranges_of_rebuild
        (s.timeOut_rebuild r tag)
  | quarantineEnd tag => exact (s.keeps_endQuarantine tag).ranges_of_rebuild (s.endQuarantine_rebuild tag)
  | pacing x =>
    exact ((s.keeps_setExpiry x none).trans (State.keeps_issueDecision x _)).ranges_of_rebuild
      ((s.setExpiry_only x none).trans (State.issueDecision_only x _)).rebuild

theorem State.takeTimeEvent_ranges (e : TimeEvent) (s : State) : s.RangesKept (s.takeTimeEvent e) := by
  unfold State.takeTimeEvent
  split
  · exact s.beginEvent_ranges
  · have reached (d : Nat) : s.RangesKept (s.beginEvent.reachTime d) :=
      State.KeepsMemory.ranges (.of_same rfl rfl rfl rfl) rfl id id
    exact (reached _).trans (State.runTimeEvent_ranges e _)

theorem State.reset_inRange : State.reset.SettingsInRange ∧ State.reset.GeometryInRange ∧ State.reset.MemoryCanonical := by
  have unset (p : Profile) : State.reset.geo.profile ≠ some p := by simp [State.reset, Geo.reset]
  have idle (n : Fin 4) (c : SolveContext) : State.reset.rcd.contexts[n] ≠ some c := by simp [State.reset, Rcd.reset]
  exact ⟨by unfold State.SettingsInRange; decide, ⟨fun p hp => absurd hp (unset p), Geo.shaped_unset none⟩, rfl,
    fun p hp => absurd hp (unset p), by decide, fun n c hc => absurd hc (idle n c)⟩

theorem State.Occurs.ranges {s t : State} (h : s.Occurs t) : s.RangesKept t := by
  cases h with
  | reset =>
    obtain ⟨hset, hgeo, hmem⟩ := State.reset_inRange
    exact ⟨fun _ => hset, fun _ => hgeo, fun _ _ => hmem⟩
  | nothing => exact s.beginEvent_ranges
  | tick => exact State.KeepsMemory.ranges (.of_same rfl rfl rfl rfl) rfl id id
  | commandArrives m => exact s.commandArrives_ranges m
  | readResponse => exact s.beginEvent_ranges.trans (State.readResponse_ranges _)
  | requestArrives r => exact s.requestArrives_ranges r
  | readAnswer => exact s.beginEvent_ranges.trans (State.readAnswer_ranges _)
  | takeCompletion tag status mask data =>
    exact s.beginEvent_ranges.trans
      ((State.keeps_takeCompletion tag status mask data _).ranges_of_rebuild (State.takeCompletion_rebuild _ _ _ _ _))
  | takeBlock n =>
    exact s.beginEvent_ranges.trans ((State.keeps_takeBlock n _).ranges_of_rebuild (State.takeBlock_rebuild n _))
  | takeTimeEvent e => exact s.takeTimeEvent_ranges e

/-- Settles O60: whatever occurs at a step keeps the ranges, and so does taking a command off the queue. -/
theorem settingsGeometryAndMemoryStayInRange : Obligations.SettingsGeometryAndMemoryStayInRange := by
  intro s t h
  obtain ⟨k, hk⟩ := step_occurs h
  have taken : s.RangesKept { s with pending := s.pending.tail, freeCount := k } :=
    State.KeepsMemory.ranges (.of_same rfl rfl rfl rfl) rfl id id
  obtain ⟨hset, hgeo, hmem⟩ := taken.trans hk.ranges
  exact ⟨hset, hgeo, hmem⟩

end Sys2Proof.Machine
end

section
/-! The Management Port: a command in a message is decoded as it was spelled, and taken at once by a port that is ready. -/

namespace Sys2Proof.Machine

/-! ## Fields and elements -/

/-- A field behind others, at the offset their lengths add up to. -/
theorem fieldAt_behind {front : List Byte} {o w v : Nat} (ho : o = front.length) (h : v < 256 ^ w) (rest : List Byte) :
    fieldAt (front ++ (leBytes w v ++ rest)) o w = v := by
  subst ho
  have := fieldAt_append front (leBytes w v ++ rest) 0 w
  rw [Nat.add_zero] at this
  rw [this, fieldAt_zero h]

/-- A field that ends a message. -/
theorem fieldAt_last {front : List Byte} {o w v : Nat} (ho : o = front.length) (h : v < 256 ^ w) :
    fieldAt (front ++ leBytes w v) o w = v := by
  simpa using fieldAt_behind ho h []

@[simp] theorem length_elementBytes (e : SegmentElement) : (elementBytes e).length = 8 := by simp [elementBytes]

theorem length_elements (elements : List SegmentElement) : (elements.flatMap elementBytes).length = 8 * elements.length := by
  induction elements with
  | nil => rfl
  | cons e rest ih =>
    rw [List.flatMap_cons, List.length_append, ih, length_elementBytes, List.length_cons]
    omega

/-- Elements are read as they were written, 8 bytes each (R205). -/
theorem decodeElements_flatMap (elements : List SegmentElement) :
    decodeElements (elements.flatMap elementBytes) = elements := by
  induction elements with
  | nil => rfl
  | cons e rest ih =>
    obtain ⟨b0, b1, b2, b3, b4, b5, hb⟩ : ∃ b0 b1 b2 b3 b4 b5, leBytes 6 e.base.toNat = [b0, b1, b2, b3, b4, b5] :=
      ⟨_, _, _, _, _, _, rfl⟩
    have hbase : BitVec.ofNat 48 (leNat [b0, b1, b2, b3, b4, b5]) = e.base := by
      rw [← hb, leNat_leBytes e.base.isLt, BitVec.ofNat_toNat, BitVec.setWidth_eq]
    simp only [List.flatMap_cons, elementBytes, hb, List.cons_append, List.nil_append, decodeElements, hbase, ih]

/-! ## Decoding (R194) -/

theorem withLength_of_length {length : Nat} {p : List Byte} (h : p.length = length) (c : HostCommand) :
    withLength length p c = .command c := if_pos h

theorem decodeCommand_setSegments {position first : Nat} {elements : List SegmentElement}
    (h : (HostCommand.setSegments position first elements).fits) :
    decodeCommand 0x02 (HostCommand.setSegments position first elements).params =
      .command (.setSegments position first elements) := by
  obtain ⟨hp, hf, he⟩ := h
  set p := (HostCommand.setSegments position first elements).params with hpdef
  have hp0 : fieldAt p 0 1 = position := by
    simp only [hpdef, HostCommand.params, List.append_assoc]
    exact fieldAt_zero hp _
  have hp1 : fieldAt p 1 1 = first := by
    simp only [hpdef, HostCommand.params, List.append_assoc]
    exact fieldAt_behind (by simp) hf _
  have hp2 : fieldAt p 2 1 = elements.length := by
    simp only [hpdef, HostCommand.params]
    rw [List.append_assoc]
    exact fieldAt_behind (by simp) (by omega) _
  have hlen : p.length = 3 + 8 * elements.length := by
    simp only [hpdef, HostCommand.params, List.length_append, length_leBytes, length_elements]
  have hdrop : p.drop 3 = elements.flatMap elementBytes := List.drop_left' (by simp)
  show (if 3 ≤ p.length ∧ p.length = 3 + 8 * fieldAt p 2 1 ∧ p.length ≤ 255 then _ else _) = _
  rw [if_pos ⟨by omega, by omega, by omega⟩, hp0, hp1, hdrop, decodeElements_flatMap]

/-- A command of one field. -/
theorem withLength_field {w v : Nat} (h : v < 256 ^ w) (c : Nat → HostCommand) :
    withLength w (leBytes w v) (c (fieldAt (leBytes w v) 0 w)) = .command (c v) := by
  have hv : fieldAt (leBytes w v) 0 w = v := by simpa using fieldAt_zero h []
  rw [hv, withLength_of_length (length_leBytes w v)]

theorem decodeCommand_setGeometry {n l t rs k : Nat} (h : (HostCommand.setGeometry n l t rs k).fits) :
    decodeCommand 0x01 (HostCommand.setGeometry n l t rs k).params = .command (.setGeometry n l t rs k) := by
  obtain ⟨hn, hl, ht, hrs, hk⟩ := h
  have hparams : (HostCommand.setGeometry n l t rs k).params =
      leBytes 1 n ++ (leBytes 1 l ++ (leBytes 4 t ++ (leBytes 4 rs ++ leBytes 1 k))) := by
    simp only [HostCommand.params, List.append_assoc]
  generalize (HostCommand.setGeometry n l t rs k).params = p at hparams
  have hn' : fieldAt p 0 1 = n := by rw [hparams]; exact fieldAt_zero hn _
  have hl' : fieldAt p 1 1 = l := by rw [hparams]; exact fieldAt_behind (by simp) hl _
  have ht' : fieldAt p 2 4 = t := by
    rw [hparams, ← List.append_assoc]; exact fieldAt_behind (by simp) ht _
  have hrs' : fieldAt p 6 4 = rs := by
    rw [hparams, ← List.append_assoc, ← List.append_assoc]; exact fieldAt_behind (by simp) hrs _
  have hk' : fieldAt p 10 1 = k := by
    rw [hparams, ← List.append_assoc, ← List.append_assoc, ← List.append_assoc]; exact fieldAt_last (by simp) hk
  refine (withLength_of_length (by simp [hparams]) _).trans ?_
  rw [hn', hl', ht', hrs', hk']

theorem decodeCommand_openSession {f b lanes fill startRegion aq kq skipQual : Nat}
    (h : (HostCommand.openSession f b lanes fill startRegion aq kq skipQual).fits) :
    decodeCommand 0x03 (HostCommand.openSession f b lanes fill startRegion aq kq skipQual).params =
      .command (.openSession f b lanes fill startRegion aq kq skipQual) := by
  obtain ⟨hf, hb, hlanes, hfill, hstart, haq, hkq, hskip⟩ := h
  have hparams : (HostCommand.openSession f b lanes fill startRegion aq kq skipQual).params =
      leBytes 1 f ++ (leBytes 1 b ++ (leBytes 1 lanes ++ (leBytes 1 fill ++ (leBytes 2 startRegion ++
        (leBytes 6 aq ++ (leBytes 1 kq ++ leBytes 1 skipQual)))))) := by
    simp only [HostCommand.params, List.append_assoc]
  generalize (HostCommand.openSession f b lanes fill startRegion aq kq skipQual).params = p at hparams
  have hf' : fieldAt p 0 1 = f := by rw [hparams]; exact fieldAt_zero hf _
  have hb' : fieldAt p 1 1 = b := by rw [hparams]; exact fieldAt_behind (by simp) hb _
  have hlanes' : fieldAt p 2 1 = lanes := by
    rw [hparams, ← List.append_assoc]; exact fieldAt_behind (by simp) hlanes _
  have hfill' : fieldAt p 3 1 = fill := by
    rw [hparams, ← List.append_assoc, ← List.append_assoc]; exact fieldAt_behind (by simp) hfill _
  have hstart' : fieldAt p 4 2 = startRegion := by
    rw [hparams]; iterate 3 rw [← List.append_assoc]
    exact fieldAt_behind (by simp) hstart _
  have haq' : fieldAt p 6 6 = aq := by
    rw [hparams]; iterate 4 rw [← List.append_assoc]
    exact fieldAt_behind (by simp) haq _
  have hkq' : fieldAt p 12 1 = kq := by
    rw [hparams]; iterate 5 rw [← List.append_assoc]
    exact fieldAt_behind (by simp) hkq _
  have hskip' : fieldAt p 13 1 = skipQual := by
    rw [hparams]; iterate 6 rw [← List.append_assoc]
    exact fieldAt_last (by simp) hskip
  refine (withLength_of_length (by simp [hparams]) _).trans ?_
  rw [hf', hb', hlanes', hfill', hstart', haq', hkq', hskip']

theorem decodeCommand_setPace {w window : Nat} (h : (HostCommand.setPace w window).fits) :
    decodeCommand 0x0D (HostCommand.setPace w window).params = .command (.setPace w window) := by
  have hw : fieldAt (leBytes 1 w ++ leBytes 2 window) 0 1 = w := fieldAt_zero h.1 _
  have hwindow : fieldAt (leBytes 1 w ++ leBytes 2 window) 1 2 = window := fieldAt_last (by simp) h.2
  refine (withLength_of_length (by simp [HostCommand.params]) _).trans ?_
  rw [HostCommand.params, hw, hwindow]

theorem decodeCommand_listRecords {first maxCount : Nat} (h : (HostCommand.listRecords first maxCount).fits) :
    decodeCommand 0x16 (HostCommand.listRecords first maxCount).params = .command (.listRecords first maxCount) := by
  have hfirst : fieldAt (leBytes 4 first ++ leBytes 1 maxCount) 0 4 = first := fieldAt_zero h.1 _
  have hcount : fieldAt (leBytes 4 first ++ leBytes 1 maxCount) 4 1 = maxCount := fieldAt_last (by simp) h.2
  refine (withLength_of_length (by simp [HostCommand.params]) _).trans ?_
  rw [HostCommand.params, hfirst, hcount]

/-- A command whose parameters fit their widths is decoded from its own parameter bytes (R194, R205). -/
theorem decodeCommand_of_fits {c : HostCommand} (h : c.fits) : decodeCommand c.opcode c.params = .command c := by
  cases c with
  | setGeometry n l t rs k => exact decodeCommand_setGeometry h
  | setSegments position first elements => exact decodeCommand_setSegments h
  | openSession f b lanes fill startRegion aq kq skipQual => exact decodeCommand_openSession h
  | setPace w window => exact decodeCommand_setPace h
  | listRecords first maxCount => exact decodeCommand_listRecords h
  | start | pause | resume | step | abort | closeSession | getStatus | resetEngine => rfl
  | promote region => exact withLength_field h .promote
  | demote region => exact withLength_field h .demote
  | memberDown position => exact withLength_field h .memberDown
  | setTimeout ms => exact withLength_field h .setTimeout
  | setHeat x => exact withLength_field h .setHeat
  | setLanes count => exact withLength_field h .setLanes
  | setCheck setting => exact withLength_field h .setCheck
  | setEventEnables events => exact withLength_field h .setEventEnables
  | ackEvents events => exact withLength_field h .ackEvents
  | getRegion region => exact withLength_field h .getRegion
  | forgive stripe => exact withLength_field h .forgive

/-! ## A command taken at once -/

/-- A command that arrives at a ready port runs on the state with nothing sent, and its one response joins the queue. -/
theorem hostCommand_taken {s : State} (hs : s.HostReady) {c : HostCommand} (hc : c.fits) (tag : BitVec 16) :
    hostCommand tag c s = .next ((runCommand c s.beginEvent).1.respond tag (runCommand c s.beginEvent).2) := by
  rw [hostCommand_ready hs, State.takeMessage, HostCommand.message, decodeCommand_of_fits hc, runDecoded]

/-- The outcome of a command at a ready port, from what its owner makes of the state with nothing sent. -/
theorem becomes_of_runCommand {s u : State} {c : HostCommand} {r : Reply} (hs : s.HostReady) (hc : c.fits) (tag : BitVec 16)
    (h : runCommand c s.beginEvent = (u.beginEvent, r)) : Becomes (hostCommand tag c s) (u.respond tag r) :=
  ⟨_, hostCommand_taken hs hc tag, by rw [h]; rfl⟩

end Sys2Proof.Machine
end

section
/-! Geometry: SET_GEOMETRY and SET_SEGMENTS, the placement of strips and their extents. -/

namespace Sys2Proof.Machine

/-! ## SET_GEOMETRY (R2, R3) -/

theorem takeSetGeometry_of_open {s : State} (h : s.ses.state ≠ .absent) (n l t rs k : Nat) :
    takeSetGeometry n l t rs k s = (s, .refusedState) := if_pos h

theorem takeSetGeometry_of_not_fits {s : State} {n l t rs k : Nat} (h : s.ses.state = .absent)
    (hp : ¬({ n := n, l := l, t := t, rs := rs, k := k } : Profile).Fits) :
    takeSetGeometry n l t rs k s = (s, .refuse .refusedRange) := by
  have hr := mt (Profile.inRange_iff _).1 hp
  simp only [takeSetGeometry, h, ne_eq, not_true_eq_false, if_false]
  exact if_neg hr

/-- With every entry unset, each position lacks the bases below min(S, 16) (R3, R10). -/
theorem Geo.missingBases_unset (profile : Option Profile) (p : Profile) :
    ({ profile := profile, segments := Geo.unsetSegments } : Geo).missingBases p = p.n * min p.segNeed 16 := by
  have hentry (x j : Nat) : ({ profile := profile, segments := Geo.unsetSegments } : Geo).entry x j = none := by
    simp only [Geo.entry, Geo.unsetSegments, List.getD_eq_getElem?_getD, List.getElem?_replicate]
    split
    · simp only [Option.getD_some, List.getElem?_replicate]
      split <;> rfl
    · rfl
  simp [Geo.missingBases, hentry]

theorem takeSetGeometry_of_fits {s : State} {n l t rs k : Nat} (h : s.ses.state = .absent)
    (hp : ({ n := n, l := l, t := t, rs := rs, k := k } : Profile).Fits) :
    let p : Profile := { n := n, l := l, t := t, rs := rs, k := k }
    takeSetGeometry n l t rs k s =
      ({ s with geo := { profile := some p, segments := Geo.unsetSegments } },
        .done (leBytes 2 p.regionCount ++ leBytes 4 p.segNeed ++ leBytes 2 (p.n * min p.segNeed 16))) := by
  have hr := (Profile.inRange_iff _).2 hp
  simp only [takeSetGeometry, h, ne_eq, not_true_eq_false, if_false, hr, if_true, Geo.missingBases_unset]

/-- Settles O12: the three ways SET_GEOMETRY is taken by GEO, at a port that takes it at once. -/
theorem setGeometryResult : Obligations.SetGeometryResult := by
  intro tag n l t rs k s hs p need
  have hfits : (HostCommand.setGeometry n.toNat l.toNat t.toNat rs.toNat k.toNat).fits :=
    ⟨n.isLt, l.isLt, t.isLt, rs.isLt, k.isLt⟩
  refine ⟨fun h => ?_, fun h hp => ?_, fun h hp => ?_⟩
  · exact becomes_of_runCommand hs hfits tag (takeSetGeometry_of_open (s := s.beginEvent) h _ _ _ _ _)
  · exact becomes_of_runCommand hs hfits tag (takeSetGeometry_of_not_fits (s := s.beginEvent) h hp)
  · exact becomes_of_runCommand hs hfits tag (takeSetGeometry_of_fits (s := s.beginEvent) h hp)

/-! ## SET_SEGMENTS (R8 to R10) -/

/-- The entry an element loads: a base, or unset (R10). -/
def elementEntry (e : SegmentElement) : Option Nat := if e.kind = 0 then some e.base.toNat else none

theorem segmentEntry_of_base {e : SegmentElement} (h : e.kind = 0) : segmentEntry e = some (some e.base.toNat) := if_pos h

theorem segmentEntry_of_unset {e : SegmentElement} (h : e.kind = 1) : segmentEntry e = some none := by
  simp [segmentEntry, h]

theorem segmentEntry_of_other {e : SegmentElement} (h₀ : e.kind ≠ 0) (h₁ : e.kind ≠ 1) : segmentEntry e = none :=
  (if_neg h₀).trans (if_neg h₁)

theorem segmentEntry_getD (e : SegmentElement) : (segmentEntry e).getD none = elementEntry e := by
  unfold elementEntry
  by_cases h₀ : e.kind = 0
  · rw [segmentEntry_of_base h₀, if_pos h₀, Option.getD_some]
  · rw [if_neg h₀]
    by_cases h₁ : e.kind = 1
    · rw [segmentEntry_of_unset h₁, Option.getD_some]
    · rw [segmentEntry_of_other h₀ h₁, Option.getD_none]

/-- Check 3 of Table 1-4 on one element (R8). -/
theorem segmentFits_iff (p : Profile) (e : SegmentElement) :
    segmentFits p e = true ↔ e.kind = 1 ∨ (e.kind = 0 ∧ e.base.toNat % 8 = 0 ∧ e.base.toNat + 2 ^ p.k ≤ 2 ^ 48) := by
  unfold segmentFits
  by_cases h₀ : e.kind = 0
  · rw [segmentEntry_of_base h₀]
    simp only [baseFits]
    rw [Bool.and_eq_true, decide_eq_true_iff, decide_eq_true_iff]
    exact ⟨fun h => .inr ⟨h₀, h⟩, fun h => h.elim (fun h₁ => absurd (h₀.symm.trans h₁) (by decide)) And.right⟩
  · by_cases h₁ : e.kind = 1
    · rw [segmentEntry_of_unset h₁]
      exact iff_of_true rfl (.inl h₁)
    · rw [segmentEntry_of_other h₀ h₁]
      exact iff_of_false Bool.false_ne_true fun h => h.elim h₁ fun h => h₀ h.1

/-- Entry j of a row after the load of a list at index f: the loaded entry where the list reaches, the old one elsewhere
(R10). -/
theorem getD_loadRow {row values : List (Option Nat)} {f : Nat} (hf : f ≤ row.length) (j : Nat) :
    (loadRow row f values).getD j none =
      if f ≤ j ∧ j < f + values.length then values.getD (j - f) none else row.getD j none := by
  have htake : (row.take f).length = f := by simp [hf]
  simp only [loadRow, List.getD_eq_getElem?_getD, List.append_assoc]
  rcases Nat.lt_or_ge j f with h | h
  · rw [if_neg (by omega), List.getElem?_append_left (by omega), List.getElem?_take_of_lt h]
  · rw [List.getElem?_append_right (by omega), htake]
    rcases Nat.lt_or_ge j (f + values.length) with h' | h'
    · rw [if_pos ⟨h, h'⟩, List.getElem?_append_left (by omega)]
    · rw [if_neg (by omega), List.getElem?_append_right (by omega), List.getElem?_drop]
      congr 2
      omega

theorem basesOverlap_iff (g : Nat) (x y : Option Nat) :
    basesOverlap g x y = true ↔ ∃ a b, x = some a ∧ y = some b ∧ a < b + g ∧ b < a + g := by
  cases x <;> cases y <;> simp [basesOverlap]

/-- Check 4 of Table 1-4: a loaded entry overlaps another of the row (R9). -/
theorem rowOverlaps_iff (g : Nat) (row : List (Option Nat)) (f count : Nat) :
    rowOverlaps g row f count = true ↔
      ∃ i j a b, f ≤ i ∧ i < f + count ∧ j < 16 ∧ i ≠ j ∧ row.getD i none = some a ∧ row.getD j none = some b ∧
        a < b + g ∧ b < a + g := by
  simp only [rowOverlaps, List.any_eq_true, List.mem_range, Bool.and_eq_true, bne_iff_ne, basesOverlap_iff]
  constructor
  · rintro ⟨i, hi, j, hj, hne, a, b, ha, hb, hab⟩
    exact ⟨f + i, j, a, b, by omega, by omega, hj, Ne.symm hne, ha, hb, hab⟩
  · rintro ⟨i, j, a, b, hfi, hi, hj, hne, ha, hb, hab⟩
    obtain ⟨i, rfl⟩ := Nat.exists_eq_add_of_le hfi
    exact ⟨i, by omega, j, hj, Ne.symm hne, a, b, ha, hb, hab⟩

/-- Entry j of position x after the load of `elements` at index f, as R10 gives it. -/
def Geo.entryAfter (g : Geo) (x f : Nat) (elements : List SegmentElement) (j : Nat) : Option Nat :=
  if f ≤ j ∧ j < f + elements.length then (elements[j - f]?).bind elementEntry else g.entry x j

/-- The row of position x after the load. -/
def Geo.rowAfter (g : Geo) (x f : Nat) (elements : List SegmentElement) : List (Option Nat) :=
  loadRow (g.segments.getD x []) f (elements.map fun e => (segmentEntry e).getD none)

/-- GEO after the load. -/
def Geo.load (g : Geo) (x f : Nat) (elements : List SegmentElement) : Geo :=
  { g with segments := g.segments.set x (g.rowAfter x f elements) }

theorem Geo.getD_rowAfter {g : Geo} (hg : g.Shaped) {x f : Nat} (hx : x < 16) (hf : f ≤ 16) (elements : List SegmentElement)
    (j : Nat) : (g.rowAfter x f elements).getD j none = g.entryAfter x f elements j := by
  unfold Geo.rowAfter Geo.entryAfter
  rw [getD_loadRow (by rw [hg.row hx]; exact hf), List.length_map]
  split
  · rw [List.getD_eq_getElem?_getD, List.getElem?_map]
    cases elements[j - f]? with
    | none => rfl
    | some e => exact segmentEntry_getD e
  · rfl

/-- Only the entries of position x change, and they are those of R10. -/
theorem Geo.entry_load {g : Geo} (hg : g.Shaped) {x f : Nat} (hx : x < 16) (hf : f ≤ 16) (elements : List SegmentElement)
    (y j : Nat) :
    (g.load x f elements).entry y j = if y = x then g.entryAfter x f elements j else g.entry y j := by
  have hlt : x < g.segments.length := by rw [hg.1]; exact hx
  by_cases hy : y = x
  · subst hy
    rw [if_pos rfl, ← Geo.getD_rowAfter hg hx hf]
    simp [Geo.entry, Geo.load, List.getD_eq_getElem?_getD, hlt]
  · rw [if_neg hy]
    simp [Geo.entry, Geo.load, List.getD_eq_getElem?_getD, List.getElem?_set_ne (Ne.symm hy)]

theorem takeSetSegments_of_open {s : State} (h : s.ses.state ≠ .absent) (x f : Nat) (elements : List SegmentElement) :
    takeSetSegments x f elements s = (s, .refusedState) := if_pos h

theorem takeSetSegments_of_no_profile {s : State} (h : s.ses.state = .absent) (hp : s.geo.profile = none) (x f : Nat)
    (elements : List SegmentElement) : takeSetSegments x f elements s = (s, .refuse .incomplete) := by
  simp [takeSetSegments, h, hp]

/-- Checks 1 and 2 of Table 1-4 (R8): the position is below N, and the list lies in its row. -/
def ListFits (p : Profile) (x f count : Nat) : Prop := x < p.n ∧ 1 ≤ count ∧ count ≤ 16 ∧ f + count ≤ 16

theorem takeSetSegments_of_range {s : State} {p : Profile} {x f : Nat} {elements : List SegmentElement}
    (h : s.ses.state = .absent) (hp : s.geo.profile = some p)
    (hbad : ¬(ListFits p x f elements.length ∧ ∀ e ∈ elements, segmentFits p e = true)) :
    takeSetSegments x f elements s = (s, .refuse .refusedRange) := by
  simp only [takeSetSegments, h, hp, ne_eq, not_true_eq_false, if_false]
  split
  · rfl
  · rename_i hx
    split
    · rfl
    · rename_i hlist
      refine if_pos ?_
      rw [Bool.not_eq_true', Bool.eq_false_iff, ne_eq, List.all_eq_true]
      exact fun hall => hbad ⟨⟨by omega, by omega, by omega, by omega⟩, hall⟩

/-- A list that passes the range checks is refused for an overlap, or loaded whole (R9, R10). -/
theorem takeSetSegments_of_fits {s : State} {p : Profile} {x f : Nat} {elements : List SegmentElement}
    (h : s.ses.state = .absent) (hp : s.geo.profile = some p) (hlist : ListFits p x f elements.length)
    (hall : ∀ e ∈ elements, segmentFits p e = true) :
    takeSetSegments x f elements s =
      if rowOverlaps p.segSize (s.geo.rowAfter x f elements) f elements.length then (s, .refuse .overlap)
      else ({ s with geo := s.geo.load x f elements },
        .done (leBytes 2 ((s.geo.load x f elements).missingBases p))) := by
  obtain ⟨hx, hmin, hmax, hend⟩ := hlist
  have hbases : elements.all (segmentFits p) = true := List.all_eq_true.2 hall
  have hrange : ¬(elements.length < 1 ∨ 16 < elements.length ∨ 16 < f + elements.length) := by omega
  simp only [takeSetSegments, h, hp, ne_eq, not_true_eq_false, if_false, Nat.not_le.2 hx, hrange, hbases, Bool.not_true,
    Bool.false_eq_true, Geo.load, Geo.rowAfter]

/-- Settles O13: the ways SET_SEGMENTS is taken by GEO, with the row after the load read entry by entry. -/
theorem setSegmentsResult : Obligations.SetSegmentsResult := by
  intro tag x f elements s hs hshaped hlength outcome count value after
  have hfits : (HostCommand.setSegments x.toNat f.toNat elements).fits := ⟨x.isLt, f.isLt, hlength⟩
  refine ⟨fun h => ?_, fun h hp => ?_, fun p h hp hpfits => ?_⟩
  · exact becomes_of_runCommand hs hfits tag (takeSetSegments_of_open (s := s.beginEvent) h _ _ _)
  · exact becomes_of_runCommand hs hfits tag (takeSetSegments_of_no_profile (s := s.beginEvent) h hp _ _ _)
  intro inList basesFit overlap
  have hbases : basesFit ↔ ∀ e ∈ elements, segmentFits p e = true :=
    forall₂_congr fun e _ => (segmentFits_iff p e).symm
  have hafter (hlist : inList) (j : Nat) : (s.geo.rowAfter x.toNat f.toNat elements).getD j none = after j :=
    have hn : p.n ≤ 16 := hpfits.1.2
    Geo.getD_rowAfter hshaped (by omega) (by omega) elements j
  have hover (hlist : inList) :
      overlap ↔ rowOverlaps p.segSize (s.geo.rowAfter x.toNat f.toNat elements) f.toNat count = true := by
    simp only [rowOverlaps_iff, hafter hlist]
    rfl
  refine ⟨fun hbad => ?_, fun hlist hb hov => ?_, fun hlist hb hov => ?_⟩
  · rw [hbases] at hbad
    exact becomes_of_runCommand hs hfits tag (takeSetSegments_of_range (s := s.beginEvent) h hp hbad)
  · have htaken := takeSetSegments_of_fits (s := s.beginEvent) h hp hlist (hbases.1 hb)
    exact becomes_of_runCommand hs hfits tag (htaken.trans (if_pos ((hover hlist).1 hov)))
  · have htaken := takeSetSegments_of_fits (s := s.beginEvent) h hp hlist (hbases.1 hb)
    have hn : p.n ≤ 16 := hpfits.1.2
    exact ⟨s.geo.load x.toNat f.toNat elements, hp, Geo.entry_load hshaped (by omega) (by omega) elements,
      becomes_of_runCommand hs hfits tag (htaken.trans (if_neg (mt (hover hlist).2 hov)))⟩

/-! ## Placement (R5, R6) -/

section Placement

variable (p : Profile) (s : Nat)

theorem Profile.pPos_lt (h : 4 ≤ p.n) : p.pPos s < p.n := by
  unfold Profile.pPos
  omega

theorem Profile.qPos_lt (h : 4 ≤ p.n) : p.qPos s < p.n := Nat.mod_lt _ (by omega)

/-- Q stands one place behind P, or at place 0 where P is at the last. -/
theorem Profile.qPos_cases (h : 4 ≤ p.n) :
    (p.pPos s + 1 = p.n ∧ p.qPos s = 0) ∨ (p.pPos s + 1 < p.n ∧ p.qPos s = p.pPos s + 1) := by
  have hp := p.pPos_lt s h
  unfold Profile.qPos
  rcases Nat.lt_or_ge (p.pPos s + 1) p.n with hlt | hge
  · exact .inr ⟨hlt, Nat.mod_eq_of_lt hlt⟩
  · have heq : p.pPos s + 1 = p.n := by omega
    exact .inl ⟨heq, by rw [heq, Nat.mod_self]⟩

/-- The data strips follow Q around the stripe, in ascending index (R5). -/
theorem Profile.dataPos_cases (h : 4 ≤ p.n) {d : Nat} (hd : d < p.n) :
    (p.qPos s + 1 + d < p.n ∧ p.dataPos s d = p.qPos s + 1 + d) ∨
      (p.n ≤ p.qPos s + 1 + d ∧ p.dataPos s d = p.qPos s + 1 + d - p.n) := by
  have hq := p.qPos_lt s h
  unfold Profile.dataPos
  rcases Nat.lt_or_ge (p.qPos s + 1 + d) p.n with hlt | hge
  · exact .inl ⟨hlt, Nat.mod_eq_of_lt hlt⟩
  · exact .inr ⟨hge, by rw [Nat.mod_eq_sub_mod hge, Nat.mod_eq_of_lt (by omega)]⟩

/-- The data index of a position: how far it stands behind the one that follows Q (R6). -/
def Profile.dataIndex (x : Nat) : Nat := if p.qPos s < x then x - p.qPos s - 1 else x + p.n - p.qPos s - 1

theorem Profile.dataIndex_cases (x : Nat) :
    (p.qPos s < x ∧ p.dataIndex s x = x - p.qPos s - 1) ∨ (x ≤ p.qPos s ∧ p.dataIndex s x = x + p.n - p.qPos s - 1) := by
  unfold Profile.dataIndex
  split <;> omega

theorem Profile.dataIndex_lt (h : 4 ≤ p.n) {x : Nat} (hx : x < p.n) (hp : x ≠ p.pPos s) (hq : x ≠ p.qPos s) :
    p.dataIndex s x < p.n - 2 := by
  have hplace := p.qPos_cases s h
  have hindex := p.dataIndex_cases s x
  omega

theorem Profile.role_data (h : 4 ≤ p.n) {x : Nat} (hx : x < p.n) (hp : x ≠ p.pPos s) (hq : x ≠ p.qPos s) :
    p.role s x = .data (p.dataIndex s x) := by
  have hlt := p.qPos_lt s h
  have hd := p.dataIndex_lt s h hx hp hq
  rw [Profile.role, if_neg hp, if_neg hq]
  rcases p.dataIndex_cases s x with ⟨hbehind, hindex⟩ | ⟨hbefore, hindex⟩
  · have : x + p.n + p.n - p.qPos s - 1 = p.dataIndex s x + p.n + p.n := by omega
    rw [this, Nat.add_mod_right, Nat.add_mod_right, Nat.mod_eq_of_lt (by omega)]
  · have : x + p.n + p.n - p.qPos s - 1 = p.dataIndex s x + p.n := by omega
    rw [this, Nat.add_mod_right, Nat.mod_eq_of_lt (by omega)]

theorem Profile.dataPos_dataIndex (h : 4 ≤ p.n) {x : Nat} (hx : x < p.n) (hp : x ≠ p.pPos s) (hq : x ≠ p.qPos s) :
    p.dataPos s (p.dataIndex s x) = x := by
  have hlt := p.qPos_lt s h
  have hd := p.dataIndex_lt s h hx hp hq
  have hindex := p.dataIndex_cases s x
  have hpos := p.dataPos_cases s h (d := p.dataIndex s x) (by omega)
  omega

/-- The index as R6 gives it: the distance behind Q, less one, around the stripe. -/
theorem Profile.dataIndex_eq_emod (h : 4 ≤ p.n) {x : Nat} (hx : x < p.n) (hp : x ≠ p.pPos s) (hq : x ≠ p.qPos s) :
    (p.dataIndex s x : Int) = ((x : Int) - p.qPos s - 1) % p.n := by
  have hlt := p.qPos_lt s h
  have hd := p.dataIndex_lt s h hx hp hq
  rcases p.dataIndex_cases s x with ⟨hbehind, hindex⟩ | ⟨hbefore, hindex⟩
  · rw [Int.emod_eq_of_lt (by omega) (by omega)]
    omega
  · rw [← Int.add_emod_right, Int.emod_eq_of_lt (by omega) (by omega)]
    omega

theorem Profile.dataPos_avoids (h : 4 ≤ p.n) {d : Nat} (hd : d < p.n - 2) :
    p.dataPos s d < p.n ∧ p.dataPos s d ≠ p.pPos s ∧ p.dataPos s d ≠ p.qPos s := by
  have hpos := p.dataPos_cases s h (d := d) (by omega)
  have hq := p.qPos_cases s h
  omega

theorem Profile.dataPos_injective (h : 4 ≤ p.n) {d e : Nat} (hd : d < p.n - 2) (he : e < p.n - 2)
    (heq : p.dataPos s d = p.dataPos s e) : d = e := by
  have hposd := p.dataPos_cases s h (d := d) (by omega)
  have hpose := p.dataPos_cases s h (d := e) (by omega)
  omega

/-- The placement comes round after N stripes. -/
theorem Profile.role_add (x : Nat) : p.role (s + p.n) x = p.role s x := by
  have hp : p.pPos (s + p.n) = p.pPos s := by rw [Profile.pPos, Nat.add_mod_right, Profile.pPos]
  have hq : p.qPos (s + p.n) = p.qPos s := by rw [Profile.qPos, hp, Profile.qPos]
  rw [Profile.role, Profile.role, hp, hq]

theorem Profile.pPos_ne_qPos (h : 4 ≤ p.n) : p.pPos s ≠ p.qPos s := by
  have := p.qPos_cases s h
  omega

end Placement

/-! ## Extents (R11, R12) -/

section Extents

variable {g : Geo} {p : Profile} {s x : Nat}

/-- A strip that fits its segment is one extent (R11). -/
theorem Geo.extents_whole {base : Nat} (hbase : g.entry x (s * p.l / 2 ^ p.k) = some base)
    (hfit : s * p.l % 2 ^ p.k + p.l ≤ 2 ^ p.k) :
    g.extents p s x = [{ address := base + s * p.l % 2 ^ p.k, blocks := p.l, firstBlock := 0 }] := by
  simp only [Geo.extents, Profile.segSize, if_pos hfit, hbase, Option.getD_some]

/-- A strip that crosses into the next segment is two extents (R12). -/
theorem Geo.extents_split {base next : Nat} (hbase : g.entry x (s * p.l / 2 ^ p.k) = some base)
    (hnext : g.entry x (s * p.l / 2 ^ p.k + 1) = some next) (hcross : 2 ^ p.k < s * p.l % 2 ^ p.k + p.l) :
    g.extents p s x =
      [{ address := base + s * p.l % 2 ^ p.k, blocks := 2 ^ p.k - s * p.l % 2 ^ p.k, firstBlock := 0 },
        { address := next, blocks := p.l - (2 ^ p.k - s * p.l % 2 ^ p.k),
          firstBlock := 2 ^ p.k - s * p.l % 2 ^ p.k }] := by
  simp only [Geo.extents, Profile.segSize, if_neg (Nat.not_le.2 hcross), hbase, hnext, Option.getD_some]

/-- A segment is longer than any strip (Table 1-1). -/
theorem Profile.Fits.strip_le_segment (h : p.Fits) : p.l ≤ 2 ^ p.k := by
  obtain ⟨-, ⟨-, hl⟩, -, ⟨hk, -⟩, -⟩ := h
  calc p.l ≤ 2 ^ 12 := by omega
    _ ≤ 2 ^ p.k := Nat.pow_le_pow_right (by decide) hk

/-- A strip length that divides the segment never splits: the rest of the segment is a multiple of it. -/
theorem fits_of_dvd {l seg offset : Nat} (hseg : 0 < seg) (hdvd : l ∣ seg) (hoff : l ∣ offset) : offset % seg + l ≤ seg := by
  have hlt := Nat.mod_lt offset hseg
  have hrest : l ∣ seg - offset % seg := Nat.dvd_sub hdvd ((Nat.dvd_mod_iff hdvd).2 hoff)
  have := Nat.le_of_dvd (by omega) hrest
  omega

/-- Every power of two that a strip length can be divides the segment. -/
theorem Profile.Fits.pow_dvd (h : p.Fits) {i : Nat} (hi : p.l = 2 ^ i) : p.l ∣ 2 ^ p.k := by
  have hle := h.strip_le_segment
  rw [hi] at hle ⊢
  exact Nat.pow_dvd_pow 2 ((Nat.pow_le_pow_iff_right (by decide)).1 hle)

end Extents

/-- Settles O14: the placement by the places of P, Q and data, and the extents by whether the strip fits its segment. -/
theorem placementAndExtents : Obligations.PlacementAndExtents := by
  refine ⟨fun p s h => ⟨⟨rfl, rfl, fun d => rfl⟩, ⟨p.pPos_lt s h, p.qPos_lt s h, p.pPos_ne_qPos s h⟩,
    fun d hd => ?_, fun x hx => ?_, fun x _ => p.role_add s x, ⟨if_pos rfl, ?_⟩,
    fun x hx hp hq => ?_, fun hn => ?_⟩, fun g p s x hfits => ?_⟩
  · obtain ⟨hlt, hp, hq⟩ := p.dataPos_avoids s h hd
    exact ⟨hlt, hp, hq, fun e he => p.dataPos_injective s h hd he⟩
  · by_cases hp : x = p.pPos s
    · exact .inl hp
    by_cases hq : x = p.qPos s
    · exact .inr (.inl hq)
    exact .inr (.inr ⟨p.dataIndex s x, p.dataIndex_lt s h hx hp hq, (p.dataPos_dataIndex s h hx hp hq).symm⟩)
  · rw [Profile.role, if_neg (p.pPos_ne_qPos s h).symm, if_pos rfl]
  · have hd := p.dataIndex_lt s h hx hp hq
    exact ⟨p.dataIndex s x, p.role_data s h hx hp hq, by omega, p.dataIndex_eq_emod s h hx hp hq⟩
  · simp [Profile.pPos, Profile.qPos, Profile.dataPos, hn]
  · intro seg j e
    have hpos : 0 < 2 ^ p.k := Nat.two_pow_pos _
    have hdvd : p.l ∣ s * p.l := Nat.dvd_mul_left _ _
    refine ⟨fun base => Geo.extents_whole, fun base next hb hn hcross => ⟨Geo.extents_split hb hn hcross, ?_⟩,
      fun hmod => fits_of_dvd hpos (Nat.dvd_of_mod_eq_zero hmod) hdvd,
      fun ⟨i, hi⟩ => fits_of_dvd hpos (hfits.pow_dvd hi) hdvd, fun hl hk b₀ b₁ h₀ h₁ => ?_⟩
    · have := hfits.strip_le_segment
      show p.l - (2 ^ p.k - _) ≤ 2 ^ p.k
      omega
    · have := Geo.extents_split (g := g) (p := p) (s := 2730) (x := x) (base := b₀) (next := b₁)
      simpa [hl, hk, h₀, h₁] using this

end Sys2Proof.Machine
end

section
/-! What an issue decision, and the service of the tag wait order, leave of MRU: whatever is issued, each position's requests ask
for what they asked for, in the same order. -/

namespace Sys2Proof.Machine

/-! ## One position -/

/-- The state of a position after a change of one; a place beyond MRU's positions is not changed. -/
theorem Mru.pos_updPos (x y : Nat) (f : PosState → PosState) (m : Mru) :
    (m.updPos x f).pos y = if y = x ∧ x < m.positions.length then f (m.pos x) else m.pos y := by
  unfold Mru.updPos Mru.pos
  simp only [List.getD_eq_getElem?_getD, List.getElem?_set]
  by_cases hx : x = y
  · subst hx
    by_cases hlt : x < m.positions.length
    · simp [hlt]
    · simp [hlt]
  · simp [hx, Ne.symm hx]

theorem Mru.pos_updPos_other {x y : Nat} (h : y ≠ x) (f : PosState → PosState) (m : Mru) : (m.updPos x f).pos y = m.pos y := by
  rw [Mru.pos_updPos, if_neg fun hc => h hc.1]

theorem Mru.pos_updPos_self {x : Nat} {m : Mru} (h : x < m.positions.length) (f : PosState → PosState) :
    (m.updPos x f).pos x = f (m.pos x) := by
  rw [Mru.pos_updPos, if_pos ⟨rfl, h⟩]

@[simp] theorem Mru.length_updPos (x : Nat) (f : PosState → PosState) (m : Mru) :
    (m.updPos x f).positions.length = m.positions.length := List.length_set

/-- The head of a queue, issued, asks for what it asked for (R138). -/
theorem PosState.works_issue {p : PosState} {r issued : Request} {rest : List Request} (hq : p.queue = r :: rest)
    (hr : issued.work = r.work) (history : List Nat) (expiry : Option Nat) :
    ({ p with queue := rest, outstanding := p.outstanding ++ [issued], history := history, expiry := expiry } : PosState).works =
      p.works := by
  simp [PosState.works, hq, hr]

theorem PosState.exists_live {p : PosState} {w : Request} (h : w ∈ p.works) : ∃ r ∈ p.live, r.work = w := by
  obtain ⟨r, hr, rfl⟩ := List.mem_map.1 h
  exact ⟨r, by rw [PosState.live, List.mem_append]; exact (List.mem_append.1 hr).symm, rfl⟩

/-! ## What issues leave -/

/-- Requests may have been issued. Beyond MRU and the messages sent nothing has changed; each position's requests ask for what they
asked for, in the same order, and a position with nothing queued and no pacing expiry is as it was. -/
structure State.Issued (s t : State) : Prop where
  only : MruOnly s t
  quarantined : t.mru.quarantined = s.mru.quarantined
  length : t.mru.positions.length = s.mru.positions.length
  timeout : t.mru.timeout = s.mru.timeout
  works : ∀ y, (t.mru.pos y).works = (s.mru.pos y).works
  timeouts : ∀ y, (t.mru.pos y).timeouts = (s.mru.pos y).timeouts
  unqueued : ∀ y, (s.mru.pos y).queue = [] → (s.mru.pos y).expiry = none → t.mru.pos y = s.mru.pos y

theorem State.Issued.refl (s : State) : s.Issued s :=
  ⟨.refl s, rfl, rfl, rfl, fun _ => rfl, fun _ => rfl, fun _ _ _ => rfl⟩

theorem State.Issued.trans {s t u : State} (h : s.Issued t) (h' : t.Issued u) : s.Issued u where
  only := h.only.trans h'.only
  quarantined := h'.quarantined.trans h.quarantined
  length := h'.length.trans h.length
  timeout := h'.timeout.trans h.timeout
  works y := (h'.works y).trans (h.works y)
  timeouts y := (h'.timeouts y).trans (h.timeouts y)
  unqueued y hq he := by
    have hs := h.unqueued y hq he
    rw [← hs] at hq he
    exact (h'.unqueued y hq he).trans hs

theorem State.Issued.foldl {α : Type} {f : State → α → State} (h : ∀ s a, State.Issued s (f s a)) (l : List α) (s : State) :
    s.Issued (l.foldl f s) := by
  induction l generalizing s with
  | nil => exact .refl s
  | cons a l ih => exact (h s a).trans (ih _)

/-- Requests of position x alone may have been issued. -/
structure State.IssuedAt (x : Nat) (s t : State) : Prop where
  issued : s.Issued t
  others : ∀ y, y ≠ x → t.mru.pos y = s.mru.pos y

theorem State.IssuedAt.refl (x : Nat) (s : State) : State.IssuedAt x s s := ⟨.refl s, fun _ _ => rfl⟩

theorem State.IssuedAt.trans {x : Nat} {s t u : State} (h : State.IssuedAt x s t) (h' : State.IssuedAt x t u) :
    State.IssuedAt x s u := ⟨h.issued.trans h'.issued, fun y hy => (h'.others y hy).trans (h.others y hy)⟩

/-- The tag wait order and the messages sent hold no request. -/
theorem State.issuedAt_order (x : Nat) (s : State) (order : List Nat) (sent : List Output) :
    State.IssuedAt x s { s with mru := { s.mru with tagWait := order }, sent := sent } :=
  ⟨⟨⟨_, _, rfl⟩, rfl, rfl, rfl, fun _ => rfl, fun _ => rfl, fun _ _ _ => rfl⟩, fun _ _ => rfl⟩

/-- A change of one position that keeps what its requests ask for. -/
theorem State.issuedAt_updPos {x : Nat} {f : PosState → PosState} {s : State}
    (hw : (f (s.mru.pos x)).works = (s.mru.pos x).works) (ht : (f (s.mru.pos x)).timeouts = (s.mru.pos x).timeouts)
    (hq : (s.mru.pos x).queue = [] → (s.mru.pos x).expiry = none → f (s.mru.pos x) = s.mru.pos x) :
    State.IssuedAt x s (s.updPos x f) := by
  have hpos (y : Nat) : (s.updPos x f).mru.pos y = f (s.mru.pos x) ∧ y = x ∨ (s.updPos x f).mru.pos y = s.mru.pos y := by
    have h := Mru.pos_updPos x y f s.mru
    split at h
    · rename_i hc
      exact .inl ⟨h, hc.1⟩
    · exact .inr h
  refine ⟨⟨s.updPos_only x f, rfl, Mru.length_updPos _ _ _, rfl, fun y => ?_, fun y => ?_, fun y => ?_⟩,
    fun y hy => Mru.pos_updPos_other hy f s.mru⟩
  · rcases hpos y with ⟨h, rfl⟩ | h
    · rw [h, hw]
    · rw [h]
  · rcases hpos y with ⟨h, rfl⟩ | h
    · rw [h, ht]
    · rw [h]
  · rcases hpos y with ⟨h, rfl⟩ | h
    · rw [h]
      exact hq
    · exact fun _ _ => h

theorem State.leaveTagWait_issuedAt (x y : Nat) (s : State) : State.IssuedAt y s (s.leaveTagWait x) := s.issuedAt_order y _ _

theorem State.joinTagWait_issuedAt (x y : Nat) (s : State) : State.IssuedAt y s (s.joinTagWait x) := s.issuedAt_order y _ _

theorem State.setExpiry_issuedAt {x : Nat} {e : Option Nat} {s : State} (h : (s.mru.pos x).queue = [] → e = none) :
    State.IssuedAt x s (s.setExpiry x e) := by
  refine State.issuedAt_updPos rfl rfl fun hq he => ?_
  rw [h hq, ← he]

theorem State.issueHead_issuedAt (x tag : Nat) (s : State) : State.IssuedAt x s (s.issueHead x tag) := by
  unfold State.issueHead
  split
  · exact .refl x s
  · rename_i r rest hq
    refine State.IssuedAt.trans (State.issuedAt_updPos (PosState.works_issue hq ?_ _ _) rfl fun h => ?_)
      (State.issuedAt_order x _ _ _)
    · rfl
    · rw [hq] at h
      cases h

theorem State.issueFuel_issuedAt (fuel x : Nat) (s : State) : State.IssuedAt x s (s.issueFuel fuel x) := by
  induction fuel generalizing s with
  | zero => exact .refl x s
  | succ fuel ih =>
    simp only [State.issueFuel]
    split
    · exact (s.leaveTagWait_issuedAt x x).trans (State.setExpiry_issuedAt fun _ => rfl)
    · rename_i r rest hq
      split
      · exact s.leaveTagWait_issuedAt x x
      · split
        · split
          · refine (s.leaveTagWait_issuedAt x x).trans (State.setExpiry_issuedAt fun h => ?_)
            exact absurd (h.symm.trans hq) (List.cons_ne_nil _ _).symm
          · exact s.leaveTagWait_issuedAt x x
        · split
          · exact (s.issueHead_issuedAt x _).trans (ih _)
          · split
            · exact (s.issueHead_issuedAt x _).trans (ih _)
            · exact s.joinTagWait_issuedAt x x

theorem State.issueDecision_issuedAt (x : Nat) (s : State) : State.IssuedAt x s (s.issueDecision x) :=
  s.issueFuel_issuedAt 5 x

theorem State.decideAll_issued (s : State) : s.Issued s.decideAll := by
  refine State.Issued.foldl (fun s x => ?_) _ _
  split
  · exact .refl s
  · exact (s.issueDecision_issuedAt x).issued

theorem State.serveTagWaitFuel_issued (fuel : Nat) (s : State) : s.Issued (s.serveTagWaitFuel fuel) := by
  induction fuel generalizing s with
  | zero => exact .refl s
  | succ fuel ih =>
    simp only [State.serveTagWaitFuel]
    split
    · rename_i x _ t _ _
      have hleft := (s.leaveTagWait_issuedAt x x).issued
      split
      · exact hleft.trans (ih _)
      · split
        · exact hleft.trans (ih _)
        · exact (hleft.trans (State.issueHead_issuedAt x t _).issued).trans (ih _)
    · exact .refl s

theorem State.serveTagWait_issued (s : State) : s.Issued s.serveTagWait := s.serveTagWaitFuel_issued _

theorem State.decideAfterFree_issued (x : Nat) (s : State) : s.Issued (s.decideAfterFree x) :=
  (s.issueDecision_issuedAt x).issued.trans (State.decideAll_issued _)

/-! ## Submission (R136) -/

/-- A submission touches the request's own position alone, and puts the request behind what the position's requests ask for. -/
structure State.Submitted (r : Request) (s t : State) : Prop where
  only : MruOnly s t
  quarantined : t.mru.quarantined = s.mru.quarantined
  length : t.mru.positions.length = s.mru.positions.length
  works : r.position < s.mru.positions.length → (t.mru.pos r.position).works = (s.mru.pos r.position).works ++ [r.work]
  timeouts : ∀ y, (t.mru.pos y).timeouts = (s.mru.pos y).timeouts
  others : ∀ y, y ≠ r.position → t.mru.pos y = s.mru.pos y

theorem State.submit_submitted (r : Request) (s : State) : State.Submitted r s (s.submit r) := by
  set f : PosState → PosState := fun p => { p with queue := p.queue ++ [r] } with hf
  obtain ⟨hi, ho⟩ := (s.updPos r.position f).issueDecision_issuedAt r.position
  refine ⟨s.submit_only r, hi.quarantined, hi.length.trans (Mru.length_updPos _ _ _), fun hlt => ?_, fun y => ?_, fun y hy => ?_⟩
  · have hpos : (s.updPos r.position f).mru.pos r.position = f (s.mru.pos r.position) := Mru.pos_updPos_self hlt f
    refine (hi.works r.position).trans ?_
    rw [hpos]
    simp [hf, PosState.works]
  · refine (hi.timeouts y).trans ?_
    have hpos : (s.updPos r.position f).mru.pos y = _ := Mru.pos_updPos r.position y f s.mru
    rw [hpos]
    split
    · rename_i h
      rw [h.1]
    · rfl
  · exact (ho y hy).trans (Mru.pos_updPos_other hy f s.mru)

end Sys2Proof.Machine
end

section
/-! What a lane's grants change: a set of buffers, a lock, the reads the lane then submits. The session record, RGT and the buffer
memory stay, and so do the other lanes. -/

namespace Sys2Proof.Machine

/-! ## Lanes at work -/

/-- Only what lanes draw on may differ: MRU and the messages sent, the lanes, SLK and SBP. No request enters or leaves quarantine. -/
structure State.LanesWorked (s t : State) : Prop where
  only : ∃ m o l k b, t = { s with mru := m, sent := o, lanes := l, slk := k, sbp := b }
  quarantined : t.mru.quarantined = s.mru.quarantined
  length : t.mru.positions.length = s.mru.positions.length

theorem State.LanesWorked.refl (s : State) : s.LanesWorked s := ⟨⟨_, _, _, _, _, rfl⟩, rfl, rfl⟩

theorem State.LanesWorked.trans {s t u : State} (h : s.LanesWorked t) (h' : t.LanesWorked u) : s.LanesWorked u := by
  refine ⟨?_, h'.quarantined.trans h.quarantined, h'.length.trans h.length⟩
  obtain ⟨m, o, l, k, b, rfl⟩ := h.only
  obtain ⟨m', o', l', k', b', rfl⟩ := h'.only
  exact ⟨m', o', l', k', b', rfl⟩

theorem State.Submitted.lanesWorked {r : Request} {s t : State} (h : State.Submitted r s t) : s.LanesWorked t := by
  refine ⟨?_, h.quarantined, h.length⟩
  obtain ⟨m, o, rfl⟩ := h.only
  exact ⟨m, o, _, _, _, rfl⟩

theorem State.submitAll_lanesWorked (requests : List Request) (s : State) : s.LanesWorked (s.submitAll requests) := by
  unfold State.submitAll
  induction requests generalizing s with
  | nil => exact .refl s
  | cons r rest ih => exact (s.submit_submitted r).lanesWorked.trans (ih _)

/-- Lane n alone has been given something: it keeps its batch, and it is not IDLE if it was not. -/
structure State.LaneServed (n : Fin 4) (s t : State) : Prop where
  worked : s.LanesWorked t
  others : ∀ m, m ≠ n → t.lanes[m] = s.lanes[m]
  batch : t.lanes[n].batch = s.lanes[n].batch
  stage : s.lanes[n].stage ≠ .idle → t.lanes[n].stage ≠ .idle

theorem State.LaneServed.refl (n : Fin 4) (s : State) : State.LaneServed n s s := ⟨.refl s, fun _ _ => rfl, rfl, id⟩

theorem State.LaneServed.trans {n : Fin 4} {s t u : State} (h : State.LaneServed n s t) (h' : State.LaneServed n t u) :
    State.LaneServed n s u :=
  ⟨h.worked.trans h'.worked, fun m hm => (h'.others m hm).trans (h.others m hm), h'.batch.trans h.batch, h'.stage ∘ h.stage⟩

/-- A change of lane n's record that keeps its batch and leaves it at work. -/
theorem State.updLane_served {n : Fin 4} {f : Lane → Lane} {s : State} (hb : (f s.lanes[n]).batch = s.lanes[n].batch)
    (hs : (f s.lanes[n]).stage ≠ .idle) : State.LaneServed n s (s.updLane n f) := by
  refine ⟨⟨⟨_, _, _, _, _, rfl⟩, rfl, rfl⟩, fun m hm => State.updLane_get_other (Ne.symm hm) f s, ?_, fun _ => ?_⟩
  · rw [State.updLane_get_self, hb]
  · rwa [State.updLane_get_self]

theorem State.updSlk_served (n : Fin 4) (f : Slk → Slk) (s : State) : State.LaneServed n s (s.updSlk f) :=
  ⟨⟨⟨_, _, _, _, _, rfl⟩, rfl, rfl⟩, fun _ _ => rfl, rfl, id⟩

theorem State.updSbp_served (n : Fin 4) (f : Sbp → Sbp) (s : State) : State.LaneServed n s (s.updSbp f) :=
  ⟨⟨⟨_, _, _, _, _, rfl⟩, rfl, rfl⟩, fun _ _ => rfl, rfl, id⟩

theorem State.submitAll_served (n : Fin 4) (requests : List Request) (s : State) :
    State.LaneServed n s (s.submitAll requests) := by
  have hl : (s.submitAll requests).lanes = s.lanes := by
    obtain ⟨m, o, h⟩ := s.submitAll_only requests
    rw [h]
  exact ⟨s.submitAll_lanesWorked requests, fun m _ => by rw [hl], by rw [hl], by rw [hl]; exact id⟩

theorem State.enterReading_served (n : Fin 4) (s : State) : State.LaneServed n s (s.enterReading n) := by
  unfold State.enterReading
  split
  · exact .refl n s
  · refine State.LaneServed.trans (State.updLane_served ?_ ?_) (State.submitAll_served n _ _)
    · rfl
    · simp

theorem State.requestLaneLock_served (n : Fin 4) (s : State) : State.LaneServed n s (s.requestLaneLock n) := by
  unfold State.requestLaneLock
  split
  · exact .refl n s
  · simp only
    split
    · exact (s.updSlk_served n _).trans (State.enterReading_served n _)
    · exact s.updSlk_served n _

/-! ## Buffers (R111, R112) -/

theorem State.grantSet_served (n : Fin 4) (bufs : List BufId) (s : State) :
    State.LaneServed n s (s.grantSet (.lane n) bufs) := by
  refine State.LaneServed.trans (State.updLane_served ?_ ?_) (State.requestLaneLock_served n _)
  · rfl
  · simp

theorem State.grantBuffers_served (n : Fin 4) (size : Nat) (s : State) :
    State.LaneServed n s (s.grantBuffers { owner := .lane n, size := size }) :=
  (s.updSbp_served n _).trans (State.grantSet_served n _ _)

/-- A lane's buffer request is granted or waits (R111). -/
theorem State.requestBuffers_served (n : Fin 4) (size : Nat) (s : State) :
    State.LaneServed n s (s.requestBuffers { owner := .lane n, size := size }) := by
  unfold State.requestBuffers
  split
  · exact s.grantBuffers_served n size
  · exact s.updSbp_served n _

theorem State.scanBuffersFrom_lanesWorked {l : List BufRequest} (h : ∀ w ∈ l, w.owner ≠ .qualification) (s : State) :
    s.LanesWorked (State.scanBuffersFrom l s) := by
  induction l generalizing s with
  | nil => exact .refl s
  | cons r rest ih =>
    simp only [State.scanBuffersFrom]
    split
    · obtain ⟨owner, size⟩ := r
      cases owner with
      | lane n =>
        exact ((s.updSbp_served n _).trans (State.grantBuffers_served n size _)).worked.trans
          (ih (fun w hw => h w (List.mem_cons_of_mem _ hw)) _)
      | qualification => exact absurd rfl (h _ List.mem_cons_self)
    · exact .refl s

/-- While qualification does not wait, a scan of SBP's wait list serves lanes alone (R112). -/
theorem State.scanBuffers_lanesWorked {s : State} (h : ∀ w ∈ s.sbp.waiting, w.owner ≠ .qualification) :
    s.LanesWorked s.scanBuffers := State.scanBuffersFrom_lanesWorked h s

/-! ## The next batch (R58, R59) -/

/-- The host's settings and the counts of what is rebuilt stay when a batch is handed out. -/
def Rgt.CountsKept (g g' : Rgt) : Prop := g'.rebuiltRegions = g.rebuiltRegions ∧ g'.rebuiltStripes = g.rebuiltStripes

theorem Rgt.takeBatch_counts {rs b region : Nat} {g g' : Rgt} {x : Batch} (h : g.takeBatch rs b region = some (x, g')) :
    g.CountsKept g' := by
  unfold Rgt.takeBatch at h
  split at h
  · cases h
  · cases h
    exact ⟨rfl, rfl⟩

theorem Rgt.nextBatch_counts {rs b : Nat} {g g' : Rgt} {x : Batch} (h : g.nextBatch rs b = some (x, g')) :
    g.CountsKept g' := by
  unfold Rgt.nextBatch Rgt.chooseRegion at h
  split at h
  · exact Rgt.takeBatch_counts h
  · split at h
    · cases h
    · exact Rgt.takeBatch_counts (g := g.activate _) h

/-! ## Assignment (R56 to R61) -/

/-- Lanes have been handed batches: RGT and what lanes draw on may differ. -/
structure State.BatchesAssigned (s t : State) : Prop where
  only : ∃ g m o l k b, t = { s with rgt := g, mru := m, sent := o, lanes := l, slk := k, sbp := b }
  quarantined : t.mru.quarantined = s.mru.quarantined
  counts : s.rgt.CountsKept t.rgt

theorem State.BatchesAssigned.refl (s : State) : s.BatchesAssigned s := ⟨⟨_, _, _, _, _, _, rfl⟩, rfl, rfl, rfl⟩

theorem State.BatchesAssigned.trans {s t u : State} (h : s.BatchesAssigned t) (h' : t.BatchesAssigned u) :
    s.BatchesAssigned u := by
  refine ⟨?_, h'.quarantined.trans h.quarantined, h'.counts.1.trans h.counts.1, h'.counts.2.trans h.counts.2⟩
  obtain ⟨g, m, o, l, k, b, rfl⟩ := h.only
  obtain ⟨g', m', o', l', k', b', rfl⟩ := h'.only
  exact ⟨g', m', o', l', k', b', rfl⟩

/-- The next batch by the profile and the batch size in force. -/
def State.nextBatchOf (s : State) (g : Rgt) : Option (Batch × Rgt) := g.nextBatch s.profile.rs (s.ses.batchSize.getD 0)

theorem State.BatchesAssigned.nextBatchOf {s t : State} (h : s.BatchesAssigned t) (g : Rgt) :
    t.nextBatchOf g = s.nextBatchOf g := by
  obtain ⟨g', m, o, l, k, b, rfl⟩ := h.only
  rfl

/-- Lane n has been handed the batch b, which leaves RGT in the state g (R59). -/
structure State.Assigned (n : Fin 4) (b : Batch) (g : Rgt) (s t : State) : Prop where
  assigned : s.BatchesAssigned t
  rgt : t.rgt = g
  batch : t.lanes[n].batch = some b
  stage : t.lanes[n].stage ≠ .idle
  others : ∀ m, m ≠ n → t.lanes[m] = s.lanes[m]

theorem State.assign_assigned {s : State} {b : Batch} {g : Rgt} (h : s.nextBatchOf s.rgt = some (b, g)) (n : Fin 4) :
    State.Assigned n b g s ((s.updRgt fun _ => g).assign n b) := by
  set u := (s.updRgt fun _ => g).updLane n fun l => { l with batch := some b, stage := .buffering }
  have hself : u.lanes[n] = { s.lanes[n] with batch := some b, stage := .buffering } := State.updLane_get_self n _ _
  have hserved : State.LaneServed n u ((s.updRgt fun _ => g).assign n b) := State.requestBuffers_served n _ u
  have hcounts : s.rgt.CountsKept g := Rgt.nextBatch_counts h
  generalize (s.updRgt fun _ => g).assign n b = t at hserved
  have hrgt : t.rgt = g := by
    obtain ⟨m, o, l, k, p, rfl⟩ := hserved.worked.only
    rfl
  refine ⟨⟨?_, hserved.worked.quarantined, hrgt ▸ hcounts⟩, hrgt, ?_, hserved.stage ?_, fun m hm => ?_⟩
  · obtain ⟨m, o, l, k, p, rfl⟩ := hserved.worked.only
    exact ⟨g, m, o, l, k, p, rfl⟩
  · rw [hserved.batch, hself]
  · rw [hself]
    simp
  · rw [hserved.others m hm]
    exact State.updLane_get_other (Ne.symm hm) _ _

theorem State.serveLane_of_none {s : State} (h : s.nextBatchOf s.rgt = none) (n : Fin 4) : s.serveLane n = none := by
  unfold State.nextBatchOf at h
  simp [State.serveLane, h]

theorem State.serveLane_of_some {s : State} {b : Batch} {g : Rgt} (h : s.nextBatchOf s.rgt = some (b, g)) (n : Fin 4) :
    ∃ t, s.serveLane n = some t ∧ State.Assigned n b g s t := by
  refine ⟨_, ?_, State.assign_assigned h n⟩
  unfold State.nextBatchOf at h
  simp [State.serveLane, h]

/-! ## A pass (R57) -/

theorem passRuns_congr {p q : Fin 4 → Prop} {t : State} {l : List (Fin 4)} {g : Rgt} (h : ∀ n ∈ l, p n ↔ q n)
    (hp : PassRuns p t l g) : PassRuns q t l g := by
  induction l generalizing g with
  | nil => exact hp
  | cons n rest ih =>
    have hn := h n List.mem_cons_self
    have hrest {g' : Rgt} := ih (g := g') fun m hm => h m (List.mem_cons_of_mem _ hm)
    rcases hp with ⟨he, hr⟩ | ⟨b, g', he, hb, hbatch, hstage, hr⟩ | ⟨he, hb, hstage, hr⟩
    · exact .inl ⟨mt hn.2 he, hrest hr⟩
    · exact .inr (.inl ⟨b, g', hn.1 he, hb, hbatch, hstage, hrest hr⟩)
    · exact .inr (.inr ⟨hn.1 he, hb, hstage, hrest hr⟩)

/-- With no batch left, the lanes of the list stay as they are (R61). -/
theorem passRuns_of_none {p : Fin 4 → Prop} {s : State} {l : List (Fin 4)} (hnone : s.nextBatchOf s.rgt = none)
    (h : ∀ n ∈ l, p n → s.lanes[n].stage = .idle) : PassRuns p s l s.rgt := by
  induction l with
  | nil => rfl
  | cons n rest ih =>
    have hrest := ih fun m hm => h m (List.mem_cons_of_mem _ hm)
    by_cases hn : p n
    · exact .inr (.inr ⟨hn, hnone, h n List.mem_cons_self hn, hrest⟩)
    · exact .inl ⟨hn, hrest⟩

theorem State.eligible_iff (n : Fin 4) (s : State) :
    s.eligible n = true ↔ s.lanes[n].stage = .idle ∧ s.ses.state = .running ∧ n.val < s.ses.laneCount := by
  simp [State.eligible, and_assoc]

/-- What a pass over the lanes of the list makes of `s`. -/
structure State.Passed (l : List (Fin 4)) (s t : State) : Prop where
  assigned : s.BatchesAssigned t
  others : ∀ n, n ∉ l → t.lanes[n] = s.lanes[n]
  runs : PassRuns (fun n => s.eligible n = true) t l s.rgt
  served : ∀ n ∈ l, s.eligible n = true → t.lanes[n].batch.isSome = true ∨ t.nextBatchOf t.rgt = none
  kept : ∀ n, s.eligible n = false ∨ t.lanes[n].stage = .idle → t.lanes[n] = s.lanes[n]

theorem State.passed_of_none {s : State} (h : s.nextBatchOf s.rgt = none) (l : List (Fin 4)) : State.Passed l s s :=
  ⟨.refl s, fun _ _ => rfl, passRuns_of_none h fun n _ he => ((s.eligible_iff n).1 he).1, fun _ _ _ => .inr h, fun _ _ => rfl⟩

/-- Handing lane n a batch changes no other lane's eligibility. -/
theorem State.Assigned.eligible {n m : Fin 4} {b : Batch} {g : Rgt} {s t : State} (h : State.Assigned n b g s t) (hm : m ≠ n) :
    t.eligible m = s.eligible m := by
  have hl := h.others m hm
  obtain ⟨g', x, o, l, k, p, ht⟩ := h.assigned.only
  have hses : t.ses = s.ses := by rw [ht]
  simp only [State.eligible, hl, hses]

/-- Lane n is handed a batch, and then the pass goes on over the rest. -/
theorem State.Assigned.passed {n : Fin 4} {rest : List (Fin 4)} {b : Batch} {g : Rgt} {s u t : State} (hn : n ∉ rest)
    (he : s.eligible n = true) (hb : s.nextBatchOf s.rgt = some (b, g)) (h : State.Assigned n b g s u)
    (h' : State.Passed rest u t) : State.Passed (n :: rest) s t := by
  have hlane : t.lanes[n] = u.lanes[n] := h'.others n hn
  have hat := h.assigned.trans h'.assigned
  have hne {m : Fin 4} (hm : m ∈ rest) : m ≠ n := fun e => hn (e ▸ hm)
  refine ⟨hat, fun m hm => ?_, .inr (.inl ⟨b, g, he, (hat.nextBatchOf s.rgt).trans hb, ?_, ?_, ?_⟩), fun m hm hme => ?_,
    fun m hm => ?_⟩
  · obtain ⟨hm, hrest⟩ := not_or.1 (mt List.mem_cons.2 hm)
    exact (h'.others m hrest).trans (h.others m hm)
  · rw [hlane, h.batch]
  · rw [hlane]
    exact h.stage
  · have hruns := h'.runs
    rw [h.rgt] at hruns
    exact passRuns_congr (fun m hm => by rw [h.eligible (hne hm)]) hruns
  · rcases List.mem_cons.1 hm with rfl | hm
    · exact .inl (by rw [hlane, h.batch]; rfl)
    · exact h'.served m hm (by rw [h.eligible (hne hm)]; exact hme)
  · by_cases hmn : m = n
    · subst hmn
      rw [hlane] at hm
      rcases hm with hm | hm
      · rw [he] at hm
        cases hm
      · exact absurd hm h.stage
    · rw [← h.eligible hmn] at hm
      exact (h'.kept m hm).trans (h.others m hmn)

theorem State.passOver_passed {l : List (Fin 4)} (hl : l.Nodup) (s : State) : State.Passed l s (State.passOver l s) := by
  induction l generalizing s with
  | nil =>
    exact ⟨.refl s, fun _ _ => rfl, rfl, fun _ hn => absurd hn List.not_mem_nil, fun _ _ => rfl⟩
  | cons n rest ih =>
    obtain ⟨hn, hrest⟩ := List.nodup_cons.1 hl
    simp only [State.passOver]
    split
    · rename_i he
      cases hb : s.nextBatchOf s.rgt with
      | none =>
        rw [State.serveLane_of_none hb]
        exact State.passed_of_none hb _
      | some x =>
        obtain ⟨u, hu, has⟩ := State.serveLane_of_some hb n
        rw [hu]
        exact has.passed hn he hb (ih hrest u)
    · rename_i he
      obtain ⟨hat, ho, hruns, hserved, hkept⟩ := ih hrest s
      refine ⟨hat, fun m hm => ho m fun hr => hm (List.mem_cons_of_mem _ hr), .inl ⟨he, hruns⟩, fun m hm hme => ?_, hkept⟩
      rcases List.mem_cons.1 hm with rfl | hm
      · exact absurd hme he
      · exact hserved m hm hme

/-- An assignment pass serves the lanes in ascending lane number (R57). -/
theorem State.assignmentPass_passed (s : State) : State.Passed [0, 1, 2, 3] s s.assignmentPass :=
  State.passOver_passed (by decide) s

end Sys2Proof.Machine
end

section
/-! What the end of a session leaves (R40, R106, R132, R155), and which events an operation has noted. -/

namespace Sys2Proof.Machine

/-! ## Events noted (R198, R199) -/

theorem EventsKept.of_mgp {s t : State} (h : t.mgp = s.mgp) : EventsKept s t := by rw [EventsKept, h]; exact ⟨rfl, rfl, rfl⟩

theorem Noted.after {s t u : State} {set : EventSet} (h : EventsKept s t) (h' : Noted t u set) : Noted s u set := by
  obtain ⟨hst, hen, -⟩ := h
  rw [Noted, hst, hen] at h'
  exact h'

theorem Noted.before {s t u : State} {set : EventSet} (h : Noted s t set) (h' : EventsKept t u) : Noted s u set := by
  obtain ⟨hst, hen, hl⟩ := h
  exact ⟨h'.1.trans hst, h'.2.1.trans hen, h'.2.2.trans hl⟩

theorem Noted.trans {s t u : State} {a b : EventSet} (h : Noted s t a) (h' : Noted t u b) : Noted s u (a ||| b) := by
  obtain ⟨hst, hen, -⟩ := h
  rw [Noted, hst, hen, BitVec.or_assoc] at h'
  exact h'

theorem State.setEvent_noted (e : Event) (s : State) : Noted s (s.setEvent e) e.bit := ⟨rfl, rfl, rfl⟩

theorem State.changeState_noted (st : SessionState) (s : State) : Noted s (s.changeState st) (Event.bit .stateChange) :=
  ⟨rfl, rfl, rfl⟩

/-! ## Buffers that leave their owners (R113) -/

/-- Of the buffers `back`, those that are named join the quarantine hold, and the others the free pool. -/
structure Sbp.Returned (named : BufId → Bool) (back : List BufId) (p q : Sbp) : Prop where
  free : ∀ buf, buf ∈ q.free ↔ buf ∈ p.free ∨ (buf ∈ back ∧ named buf = false)
  hold : q.quarantineHold = p.quarantineHold ++ back.filter named
  waiting : q.waiting = p.waiting

theorem Sbp.Returned.nil (named : BufId → Bool) (p : Sbp) : Sbp.Returned named [] p p :=
  ⟨fun buf => by simp, by simp, rfl⟩

theorem Sbp.Returned.append {named : BufId → Bool} {a b : List BufId} {p q r : Sbp} (h : Sbp.Returned named a p q)
    (h' : Sbp.Returned named b q r) : Sbp.Returned named (a ++ b) p r := by
  refine ⟨fun buf => ?_, ?_, h'.waiting.trans h.waiting⟩
  · rw [h'.free, h.free, List.mem_append]
    tauto
  · rw [h'.hold, h.hold, List.filter_append, List.append_assoc]

theorem mem_joinFree (free back : List BufId) (buf : BufId) : buf ∈ joinFree free back ↔ buf ∈ free ∨ buf ∈ back := by
  simp [joinFree]

theorem State.returnSet_returned (bufs : List BufId) (s : State) :
    Sbp.Returned s.mru.namesQuarantined bufs s.sbp (s.returnSet bufs).sbp := by
  refine ⟨fun buf => ?_, rfl, rfl⟩
  refine (mem_joinFree _ _ buf).trans ?_
  simp [List.mem_filter]

/-! ## Abandonment (R132, R133) -/

/-- The buffers of a lane that holds a batch. -/
def Lane.heldBufs (l : Lane) : List BufId := if l.batch = none then [] else l.bufs

/-- A lane when it has been abandoned: one that holds no batch stays as it is. -/
def Lane.abandoned (l : Lane) : Lane := if l.batch = none then l else { Lane.reset with outcome := .abandoned }

theorem Lane.heldBufs_of_none {l : Lane} (h : l.batch = none) : l.heldBufs = [] := if_pos h

theorem Lane.heldBufs_of_ne {l : Lane} (h : l.batch ≠ none) : l.heldBufs = l.bufs := if_neg h

theorem Lane.abandoned_of_none {l : Lane} (h : l.batch = none) : l.abandoned = l := if_pos h

theorem Lane.abandoned_of_ne {l : Lane} (h : l.batch ≠ none) : l.abandoned = { Lane.reset with outcome := .abandoned } :=
  if_neg h

/-- The lanes of the list have been abandoned. -/
structure State.LanesAbandoned (l : List (Fin 4)) (s t : State) : Prop where
  only : ∃ lanes b, t = { s with lanes := lanes, sbp := b }
  lanes : ∀ n, t.lanes[n] = if n ∈ l then s.lanes[n].abandoned else s.lanes[n]
  returned : Sbp.Returned s.mru.namesQuarantined (l.flatMap fun n => s.lanes[n].heldBufs) s.sbp t.sbp

theorem State.abandonLane_abandoned (n : Fin 4) (s : State) : State.LanesAbandoned [n] s (s.abandonLane n) := by
  unfold State.abandonLane Lane.holdsBatch
  by_cases hb : s.lanes[n].batch = none
  · rw [hb, Option.isSome_none, if_neg Bool.false_ne_true]
    refine ⟨⟨_, _, rfl⟩, fun m => ?_, ?_⟩
    · split
      · rename_i hm
        rw [List.mem_singleton.1 hm, Lane.abandoned_of_none hb]
      · rfl
    · rw [List.flatMap_singleton, Lane.heldBufs_of_none hb]
      exact .nil _ _
  · rw [if_pos (Option.isSome_iff_ne_none.2 hb)]
    refine ⟨⟨_, _, rfl⟩, fun m => ?_, ?_⟩
    · split
      · rename_i hm
        rw [List.mem_singleton.1 hm, Lane.abandoned_of_ne hb, State.updLane_get_self]
      · rename_i hm
        exact State.updLane_get_other (fun e => hm (List.mem_singleton.2 e.symm)) _ _
    · rw [List.flatMap_singleton, Lane.heldBufs_of_ne hb]
      exact s.returnSet_returned _

theorem State.LanesAbandoned.cons {n : Fin 4} {rest : List (Fin 4)} {s u t : State} (hn : n ∉ rest)
    (h : State.LanesAbandoned [n] s u) (h' : State.LanesAbandoned rest u t) : State.LanesAbandoned (n :: rest) s t := by
  have hlanes (m : Fin 4) : u.lanes[m] = if m = n then s.lanes[m].abandoned else s.lanes[m] := by
    rw [h.lanes, if_congr List.mem_singleton rfl rfl]
  refine ⟨?_, fun m => ?_, ?_⟩
  · obtain ⟨l, b, rfl⟩ := h.only
    obtain ⟨l', b', rfl⟩ := h'.only
    exact ⟨l', b', rfl⟩
  · rw [h'.lanes, hlanes]
    by_cases hm : m = n
    · subst hm
      simp [hn]
    · simp [hm]
  · have hmru : u.mru = s.mru := by
      obtain ⟨l, b, rfl⟩ := h.only
      rfl
    have hback : (rest.flatMap fun m => u.lanes[m].heldBufs) = rest.flatMap fun m => s.lanes[m].heldBufs := by
      refine List.flatMap_congr fun m hm => ?_
      rw [hlanes, if_neg (ne_of_mem_of_not_mem hm hn)]
    have hr := h'.returned
    rw [hmru, hback] at hr
    simpa using h.returned.append hr

theorem State.foldl_abandonLane {l : List (Fin 4)} (hl : l.Nodup) (s : State) :
    State.LanesAbandoned l s (l.foldl State.abandonLane s) := by
  induction l generalizing s with
  | nil => exact ⟨⟨_, _, rfl⟩, fun _ => by simp, Sbp.Returned.nil _ _⟩
  | cons n rest ih =>
    obtain ⟨hn, hrest⟩ := List.nodup_cons.1 hl
    exact (s.abandonLane_abandoned n).cons hn (ih hrest _)

theorem State.clearAll_pos (s : State) (x : Nat) :
    s.clearAll.mru.pos x = { s.mru.pos x with queue := [], outstanding := [], expiry := none } := by
  simp only [State.clearAll, State.updMru, Mru.pos, List.getD_eq_getElem?_getD, List.getElem?_map]
  cases s.mru.positions[x]? with
  | none => rfl
  | some p => rfl

theorem State.clearAll_quarantined (s : State) :
    s.clearAll.mru.quarantined = s.mru.quarantined.map (fun r => { r with owner := none }) ++
      (s.mru.positions.flatMap (·.outstanding)).map (Request.cutOff (s.now + s.mru.timeout)) := by
  simp only [State.clearAll, State.updMru, List.map_append, List.map_map]
  rfl

/-- All work has been abandoned (R132, R133, R155): what stays, the lanes, and where their buffers have gone. -/
structure State.WorkAbandoned (s t : State) : Prop where
  only : t = { s with
    mru := s.clearAll.mru
    ses := { s.ses with qualSet := [], qualProgress := none }
    lanes := t.lanes
    sbp := t.sbp
    holdingOrder := []
    rcd := { s.rcd with contexts := Vector.replicate 4 none } }
  lanes : ∀ n : Fin 4, t.lanes[n] = s.lanes[n].abandoned
  waiting : t.sbp.waiting = []
  returned : BuffersReturned s t

theorem State.abandonAll_abandoned (s : State) : s.WorkAbandoned s.abandonAll := by
  set u := s.clearAll.updSbp fun p => { p with waiting := [] }
  have hv : State.LanesAbandoned allLanes u (allLanes.foldl State.abandonLane u) := u.foldl_abandonLane (List.nodup_finRange 4)
  have habandon : s.abandonAll = ({ (allLanes.foldl State.abandonLane u).abandonQualification with holdingOrder := [] } :
    State).updRcd fun r => { r with contexts := Vector.replicate 4 none } := rfl
  rw [habandon]
  generalize allLanes.foldl State.abandonLane u = v at hv
  obtain ⟨l, b, rfl⟩ := hv.only
  have hq := ({ u with lanes := l, sbp := b } : State).returnSet_returned s.ses.qualSet
  obtain ⟨hfree, hhold, hwait⟩ := hv.returned.append hq
  refine ⟨rfl, fun n => ?_, hwait, hfree, hhold⟩
  exact (hv.lanes n).trans (if_pos (List.mem_finRange n))

/-- What the end of a session leaves (R40). -/
theorem State.endSession_ended (new : SessionState) (cause : Cause) (s : State) :
    SessionEnded s (s.endSession new cause) new cause := by
  have h := s.abandonAll_abandoned
  unfold State.endSession
  generalize s.abandonAll = t at h
  obtain ⟨only, hlanes, hwait, hreturned⟩ := h
  obtain ⟨lanes, b, hl, hb⟩ : ∃ lanes b, t.lanes = lanes ∧ t.sbp = b := ⟨_, _, rfl, rfl⟩
  rw [hl, hb] at only
  subst only
  refine ⟨rfl, rfl, rfl, rfl, hlanes, rfl, rfl, rfl, rfl, rfl, rfl, rfl, rfl, hwait, hreturned, fun n => ?_, rfl, fun x => ?_,
    rfl, s.clearAll_quarantined, rfl, rfl, rfl⟩
  · show (Vector.replicate 4 (none : Option SolveContext))[n] = none
    simp
  · show (s.clearAll.mru.pos x).queue = [] ∧ _
    have := s.clearAll_pos x
    refine ⟨by rw [this], ?_, ?_, ?_, ?_⟩
    all_goals exact (congrArg _ this).trans rfl

/-- The end of a session notes its change of state and no other event (R40). -/
theorem State.endSession_noted (new : SessionState) (cause : Cause) (s : State) :
    Noted s (s.endSession new cause) (Event.bit .stateChange) := by
  have h : s.abandonAll.mgp = s.mgp := by rw [s.abandonAll_abandoned.only]
  unfold State.endSession
  generalize s.abandonAll = t at h
  exact Noted.after (.of_mgp h) ⟨rfl, rfl, rfl⟩

theorem State.endSession_ses (new : SessionState) (cause : Cause) (s : State) :
    (s.endSession new cause).ses = { s.ses with state := new, cause := cause, qualSet := [], qualProgress := none } := by
  have h : s.abandonAll.ses = { s.ses with qualSet := [], qualProgress := none } := by rw [s.abandonAll_abandoned.only]
  unfold State.endSession
  generalize s.abandonAll = t at h
  show ({ t.ses with cause := cause, state := new } : Ses) = _
  rw [h]

end Sys2Proof.Machine
end

section
/-! Sessions: START, RESUME, PAUSE, STEP, ABORT and CLOSE_SESSION. -/

namespace Sys2Proof.Machine

/-- A command at a ready port leaves what its owner makes of the state with nothing sent, and its one response (R192). -/
theorem exec_of_runCommand {s u : State} {c : HostCommand} {r : Reply} (hs : s.HostReady) (hc : c.fits) (tag : BitVec 16)
    (h : runCommand c s.beginEvent = (u, r)) :
    hostCommand tag c s = .next (u.respond tag r) ∧ Responded s (u.respond tag r) tag r := by
  obtain ⟨-, -, -, hcommands, hresponses⟩ := runCommand_only c s.beginEvent
  rw [h] at hcommands hresponses
  refine ⟨by rw [hostCommand_taken hs hc, h], hcommands, ?_⟩
  show u.mgp.responses ++ _ = _
  rw [hresponses]
  rfl

/-! ## The state of the session and the lanes -/

theorem SessionState.isOpen_iff (st : SessionState) : st.isOpen = true ↔ st ∈ acceptedIn.openStates := by
  cases st <;> decide

theorem SessionState.canClose_iff (st : SessionState) : st.canClose = true ↔ st ∈ acceptedIn .closeSession := by
  cases st <;> decide

theorem State.allIdle_iff (s : State) : s.allIdle = true ↔ ∀ n : Fin 4, s.lanes[n].stage = .idle := by
  simp [State.allIdle, allLanes]

theorem Rgt.allRebuilt_iff (g : Rgt) : g.allRebuilt = true ↔ ∀ r ∈ g.regions, r.state = .rebuilt := by
  simp [Rgt.allRebuilt]

/-- STATE_CHANGE joins the status set once. -/
theorem State.changeState_changeState (a b : SessionState) (s : State) : (s.changeState a).changeState b = s.changeState b := by
  have h : s.mgp.status ||| Event.bit .stateChange ||| Event.bit .stateChange = s.mgp.status ||| Event.bit .stateChange := by
    rw [BitVec.or_assoc, BitVec.or_self]
  simp only [State.changeState, State.setEvent, Mgp.setEvent, Mgp.followLine, h]

/-! ## START and RESUME (R29, R32) -/

/-- What the pass of a START or a RESUME leaves, whichever of the two it is. -/
theorem State.start_pass (s : State) :
    let t := (s.changeState .running).assignmentPass
    t.ses = { s.ses with state := .running } ∧ Noted s t (Event.bit .stateChange) ∧
      PassRuns (fun n => n.val < s.ses.laneCount ∧ s.lanes[n].stage = .idle) t [0, 1, 2, 3] s.rgt ∧
      (∀ n : Fin 4, n.val < s.ses.laneCount → s.lanes[n].stage = .idle →
        t.lanes[n].batch.isSome = true ∨ t.rgt.nextBatch s.profile.rs (s.ses.batchSize.getD 0) = none) ∧
      (∀ n : Fin 4, s.ses.laneCount ≤ n.val ∨ s.lanes[n].stage ≠ .idle ∨ t.lanes[n].stage = .idle →
        t.lanes[n] = s.lanes[n]) ∧
      (t.geo = s.geo ∧ t.lrl = s.lrl ∧ t.rtu = s.rtu ∧ t.rcd = s.rcd ∧ t.now = s.now ∧ t.mem = s.mem ∧
        t.holdingOrder = s.holdingOrder ∧ t.mru.quarantined = s.mru.quarantined ∧ t.rgt.rebuiltRegions = s.rgt.rebuiltRegions ∧
        t.rgt.rebuiltStripes = s.rgt.rebuiltStripes) := by
  intro t
  have h : State.Passed [0, 1, 2, 3] (s.changeState .running) t := State.assignmentPass_passed _
  have heligible (n : Fin 4) : (s.changeState .running).eligible n = true ↔ n.val < s.ses.laneCount ∧ s.lanes[n].stage = .idle := by
    rw [State.eligible_iff]
    exact ⟨fun ⟨hi, _, hn⟩ => ⟨hn, hi⟩, fun ⟨hn, hi⟩ => ⟨hi, rfl, hn⟩⟩
  clear_value t
  obtain ⟨hat, -, hruns, hserved, hkept⟩ := h
  have hnext (g : Rgt) : t.nextBatchOf g = g.nextBatch s.profile.rs (s.ses.batchSize.getD 0) := hat.nextBatchOf g
  obtain ⟨⟨g, m, o, l, k, b, ht⟩, hquarantined, hregions, hstripes⟩ := hat
  refine ⟨by rw [ht]; rfl, .before (s.changeState_noted .running) (.of_mgp (by rw [ht])),
    passRuns_congr (fun n _ => heligible n) hruns, fun n hn hi => ?_, fun n hn => hkept n ?_, ?_⟩
  · rw [← hnext]
    exact hserved n (List.mem_finRange (n := 4) n) ((heligible n).2 ⟨hn, hi⟩)
  · rw [← Bool.not_eq_true, heligible]
    rcases hn with hn | hn | hn
    · exact .inl fun h => absurd h.1 (Nat.not_lt.2 hn)
    · exact .inl fun h => hn h.2
    · exact .inr hn
  · refine ⟨?_, ?_, ?_, ?_, ?_, ?_, ?_, hquarantined, hregions, hstripes⟩
    all_goals rw [ht]; rfl

/-- Settles O17: either command changes the state to RUNNING and makes the pass. -/
theorem startAndResumeAssignBatches : Obligations.StartAndResumeAssignBatches := by
  intro tag i s hs hi
  have hrun : ∃ c : HostCommand, exec i s = hostCommand tag c s ∧ c.fits ∧
      runCommand c s.beginEvent = accepted (s.beginEvent.changeState .running).assignmentPass := by
    rcases hi with ⟨rfl, hst⟩ | ⟨rfl, hst⟩
    · exact ⟨.start, rfl, trivial, if_pos hst⟩
    · exact ⟨.resume, rfl, trivial, if_pos hst⟩
  obtain ⟨c, hc, hfits, hrun⟩ := hrun
  have hpass := s.beginEvent.start_pass
  generalize (s.beginEvent.changeState .running).assignmentPass = t at hrun hpass
  obtain ⟨hexec, hresp⟩ := exec_of_runCommand hs hfits tag hrun
  obtain ⟨hses, hnoted, hruns, hserved, hkept, hsame⟩ := hpass
  exact ⟨_, hc.trans hexec, hses, hresp, hnoted, hruns, hserved, hkept, hsame⟩

/-! ## PAUSE (R31) -/

theorem takePause_of_busy {s : State} (h : s.ses.state = .running ∨ s.ses.state = .suspended) (hi : s.allIdle = false) :
    takePause s = accepted (s.changeState .draining) := by
  have hi' : (s.changeState .draining).allIdle = false := hi
  rw [takePause, if_pos h, State.drainingExit, hi', if_neg Bool.false_ne_true]

theorem takePause_of_idle {s : State} (h : s.ses.state = .running ∨ s.ses.state = .suspended) (hi : s.allIdle = true) :
    takePause s = accepted (if s.rgt.allRebuilt then s.complete else s.changeState .paused) := by
  have hi' : (s.changeState .draining).allIdle = true := hi
  rw [takePause, if_pos h, State.drainingExit, if_pos hi', State.completeOr, State.complete, State.complete,
    State.changeState_changeState, State.changeState_changeState]
  rfl

/-- Settles O18: DRAINING stays while a lane is at work, and is left for PAUSED or COMPLETE at once otherwise. -/
theorem pauseDrains : Obligations.PauseDrains := by
  intro tag s hs hst idle rebuilt done
  have hidle : s.beginEvent.allIdle = true ↔ idle := State.allIdle_iff s
  have hrebuilt : s.beginEvent.rgt.allRebuilt = true ↔ rebuilt := Rgt.allRebuilt_iff s.rgt
  refine ⟨fun hi => ?_, fun hi hr => ?_, fun hi hr => ?_⟩
  · rw [← hidle, Bool.not_eq_true] at hi
    exact becomes_of_runCommand (c := .pause) hs trivial tag (takePause_of_busy hst hi)
  · rw [← hrebuilt] at hr
    refine becomes_of_runCommand (c := .pause) hs trivial tag ((takePause_of_idle (s := s.beginEvent) hst (hidle.2 hi)).trans ?_)
    rw [if_neg hr]
    rfl
  · refine becomes_of_runCommand (c := .pause) hs trivial tag ((takePause_of_idle (s := s.beginEvent) hst (hidle.2 hi)).trans ?_)
    rw [if_pos (hrebuilt.2 hr)]
    rfl

/-! ## STEP (R33, R60) -/

/-- Settles O19: LN0 is handed the batch, so that STEPPING is not left at this event. -/
theorem stepGivesLane0OneBatch : Obligations.StepGivesLane0OneBatch := by
  intro tag s b g hs hst hidle hnext
  set u := s.beginEvent.changeState .stepping with hu
  obtain ⟨t, ht, hassigned, hrgt, hbatch, hstage, hothers⟩ := State.serveLane_of_some (s := u) hnext 0
  have hrun : runCommand .step s.beginEvent = (t, .done []) := by
    have hpass : u.stepPass = t := by
      rw [State.stepPass, if_pos (show u.lanes[0].stage = .idle from hidle), ht]
      rfl
    have hexit : t.steppingExit = t := by
      rw [State.steppingExit, if_neg (show t.lanes[0].stage ≠ .idle from hstage)]
    refine (if_pos hst).trans ?_
    rw [← hu, hpass, hexit]
    rfl
  obtain ⟨hexec, hresp⟩ := exec_of_runCommand (c := .step) hs trivial tag hrun
  obtain ⟨⟨g', m, o, l, k, p, only⟩, -, -⟩ := hassigned
  subst only
  exact ⟨_, hexec, rfl, hresp, s.changeState_noted .stepping, hrgt, hbatch, hstage, hothers, rfl, rfl, rfl, rfl, rfl, rfl⟩

/-! ## ABORT (R39, R40) -/

/-- Settles O20: the end of the session, with the cause the host gives. -/
theorem abortEndsSession : Obligations.AbortEndsSession := by
  intro tag s hs hst
  have hopen : s.beginEvent.ses.state.isOpen = true := (SessionState.isOpen_iff _).2 hst
  obtain ⟨hexec, hresp⟩ := exec_of_runCommand (c := .abort) hs trivial tag (if_pos hopen)
  have hended := s.beginEvent.endSession_ended .failed .hostAbort
  have hnoted := s.beginEvent.endSession_noted .failed .hostAbort
  have hses := s.beginEvent.endSession_ses .failed .hostAbort
  generalize s.beginEvent.endSession .failed .hostAbort = t at *
  refine ⟨_, hexec, hended, hresp, hnoted, ?_, ?_, ?_⟩
  · exact (congrArg (·.roles) hses)
  · exact (congrArg (·.failedPos) hses)
  · exact (congrArg (·.faultedSurvivor) hses)

/-! ## CLOSE_SESSION (R41) -/

/-- Settles O21: the waiting claims are answered, and then the session's records are emptied. -/
theorem closeSessionForgets : Obligations.CloseSessionForgets := by
  intro tag s hs hst
  have hclose : s.beginEvent.ses.state.canClose = true := (SessionState.canClose_iff _).2 hst
  exact becomes_of_runCommand (c := .closeSession) hs trivial tag (if_pos hclose)

end Sys2Proof.Machine
end

section
/-! The steps of a qualification attempt: the fill and write of the pattern, the read-back, and what each leaves (R23 to R26). -/

namespace Sys2Proof.Machine

/-! ## The requests of an attempt -/

/-- A submitted request stands in its position's queue or outstanding set, whatever is issued from then on. -/
theorem State.Submitted.exists_live {r : Request} {s t u : State} (h : State.Submitted r s t) (h' : t.Issued u)
    (hr : r.position < s.mru.positions.length) : ∃ q ∈ (u.mru.pos r.position).live, q.work = r.work := by
  refine PosState.exists_live ?_
  rw [h'.works, h.works hr]
  exact List.mem_append_right _ (List.mem_singleton_self _)

/-! ## A step taken or held back -/

/-- Only MRU and the messages sent, the buffer memory and qualification's progress may differ; of MRU's positions only the spare's
may, and its timeout count stays. -/
structure State.QualStepped (s t : State) : Prop where
  only : ∃ m o e q, t = { s with mru := m, sent := o, mem := e, ses := { s.ses with qualProgress := q } }
  quarantined : t.mru.quarantined = s.mru.quarantined
  length : t.mru.positions.length = s.mru.positions.length
  timeouts : ∀ y, (t.mru.pos y).timeouts = (s.mru.pos y).timeouts
  others : ∀ y, y ≠ s.spare → t.mru.pos y = s.mru.pos y

theorem State.setProgress_stepped (q : QualProgress) (s : State) : s.QualStepped (s.setProgress q) :=
  ⟨⟨_, _, _, _, rfl⟩, rfl, rfl, fun _ => rfl, fun _ _ => rfl⟩

/-- The pattern of the attempt's strip stands in the pattern buffer, and the attempt is at its write (R24, R25). -/
def State.patternFilled (q : QualProgress) (s : State) : State :=
  (s.writeMem (blockAddress s.ses.patternBuf 0) (patternBytes q.strip s.profile.l)).setProgress
    { q with phase := .writing, held := .none }

/-- While a quarantined request names the pattern buffer, the fill is held back (R23). -/
theorem State.beginAttempt_of_named {s : State} (h : s.mru.namesQuarantined s.ses.patternBuf = true) (q : QualProgress) :
    s.beginAttempt q = s.setProgress { q with held := .fill } := if_pos h

/-- Otherwise the pattern is filled in and the QWRITE submitted (R25). -/
theorem State.beginAttempt_submitted {s : State} (h : s.mru.namesQuarantined s.ses.patternBuf = false) (q : QualProgress) :
    State.Submitted (s.qualRequest .qwrite q.strip s.ses.patternBuf) (s.patternFilled q) (s.beginAttempt q) := by
  rw [State.beginAttempt, h]
  exact State.submit_submitted _ _

/-- While a quarantined request names the read-back buffer, the read is held back (R23). -/
theorem State.beginReadBack_of_named {s : State} (h : s.mru.namesQuarantined s.ses.readBackBuf = true) (q : QualProgress) :
    s.beginReadBack q = s.setProgress { q with held := .read } := if_pos h

/-- Otherwise the QREAD is submitted (R26). -/
theorem State.beginReadBack_submitted {s : State} (h : s.mru.namesQuarantined s.ses.readBackBuf = false) (q : QualProgress) :
    State.Submitted (s.qualRequest .qread q.strip s.ses.readBackBuf) (s.setProgress { q with phase := .reading, held := .none })
      (s.beginReadBack q) := by
  rw [State.beginReadBack, h]
  exact State.submit_submitted _ _

theorem State.beginAttempt_stepped (q : QualProgress) (s : State) : s.QualStepped (s.beginAttempt q) := by
  cases h : s.mru.namesQuarantined s.ses.patternBuf with
  | true =>
    rw [State.beginAttempt_of_named h]
    exact s.setProgress_stepped _
  | false =>
    obtain ⟨⟨m, o, only⟩, hquarantined, hlength, -, htimeouts, hothers⟩ := State.beginAttempt_submitted h q
    exact ⟨⟨m, o, _, _, only⟩, hquarantined, hlength, htimeouts, hothers⟩

theorem State.beginAttempt_ses {s : State} (h : s.mru.namesQuarantined s.ses.patternBuf = false) (q : QualProgress) :
    (s.beginAttempt q).ses = { s.ses with qualProgress := some { q with phase := .writing, held := .none } } := by
  obtain ⟨m, o, only⟩ := (State.beginAttempt_submitted h q).only
  rw [only]
  rfl

theorem State.beginReadBack_ses {s : State} (h : s.mru.namesQuarantined s.ses.readBackBuf = false) (q : QualProgress) :
    (s.beginReadBack q).ses = { s.ses with qualProgress := some { q with phase := .reading, held := .none } } := by
  obtain ⟨m, o, only⟩ := (State.beginReadBack_submitted h q).only
  rw [only]
  rfl

theorem State.beginAttempt_mem {s : State} (h : s.mru.namesQuarantined s.ses.patternBuf = false) (q : QualProgress) :
    (s.beginAttempt q).mem = s.mem.write (blockAddress s.ses.patternBuf 0) (patternBytes q.strip s.profile.l) := by
  obtain ⟨m, o, only⟩ := (State.beginAttempt_submitted h q).only
  rw [only]
  rfl

/-! ## The pattern in the buffer memory (R24) -/

/-- Byte i of block j of the pattern stands behind j whole blocks. -/
theorem getD_patternBytes (k : Nat) {l j i : Nat} (hj : j < l) (hi : i < 4096) :
    (patternBytes k l).getD (j * 4096 + i) Memory.blank = patternByte k j i := by
  induction l with
  | zero => exact absurd hj (Nat.not_lt_zero _)
  | succ l ih =>
    have hsplit : patternBytes k (l + 1) = patternBytes k l ++ (List.range 4096).map fun i => patternByte k l i := by
      rw [patternBytes, List.range_succ (n := l), List.flatMap_append, List.flatMap_singleton, patternBytes]
    rw [hsplit]
    rcases Nat.lt_succ_iff_lt_or_eq.1 hj with hlt | rfl
    · rw [List.getD_append _ _ _ _ (by rw [length_patternBytes]; omega), ih hlt]
    · rw [List.getD_append_right _ _ _ _ (by rw [length_patternBytes]; omega), length_patternBytes, Nat.add_sub_cancel_left]
      simp [List.getD_eq_getElem?_getD, hi]

/-- After the fill, each byte of the pattern reads at its address. -/
theorem State.read_beginAttempt {s : State} (h : s.mru.namesQuarantined s.ses.patternBuf = false) (q : QualProgress) {j i : Nat}
    (hj : j < s.profile.l) (hi : i < 4096) :
    (s.beginAttempt q).mem.read (s.ses.patternBuf.val * 262144 + j * 4096 + i) = BitVec.ofNat 8 (i + 7 * j + 31 * q.strip) := by
  have hoffset : s.ses.patternBuf.val * 262144 + j * 4096 + i - blockAddress s.ses.patternBuf 0 = j * 4096 + i := by
    unfold blockAddress
    omega
  rw [State.beginAttempt_mem h, Memory.read_write, if_pos, hoffset, getD_patternBytes q.strip hj hi]
  · rfl
  · rw [length_patternBytes]
    unfold blockAddress
    omega

/-! ## The read-back (R26) -/

/-- Two runs of the buffer memory are equal when each byte is. -/
theorem Memory.bytesAt_eq_iff {m : Memory} (h : m.wf = true) (a b n : Nat) :
    m.bytesAt a n = m.bytesAt b n ↔ ∀ i, i < n → m.read (a + i) = m.read (b + i) := by
  have hrising : Memory.rising m = true := by
    rw [Memory.wf, Bool.and_eq_true] at h
    exact h.1
  constructor
  · intro heq i hi
    rw [← Memory.getD_bytesAt hrising hi, ← Memory.getD_bytesAt hrising hi, heq]
  · intro hread
    refine List.ext_getElem (by rw [Memory.length_bytesAt, Memory.length_bytesAt]) fun i ha hb => ?_
    have hi : i < n := by rwa [Memory.length_bytesAt] at ha
    rw [← List.getD_eq_getElem _ Memory.blank ha, ← List.getD_eq_getElem _ Memory.blank hb,
      Memory.getD_bytesAt hrising hi, Memory.getD_bytesAt hrising hi, hread i hi]

theorem State.readBackMatches_iff {s : State} (h : s.mem.wf = true) :
    s.readBackMatches = true ↔ ∀ a, a < s.profile.l * 4096 →
      s.mem.read (s.ses.readBackBuf.val * 262144 + a) = s.mem.read (s.ses.patternBuf.val * 262144 + a) := by
  have haddress (b : BufId) : blockAddress b 0 = b.val * 262144 := by rw [blockAddress, Nat.zero_mul, Nat.add_zero]
  rw [State.readBackMatches, beq_iff_eq, Memory.bytesAt_eq_iff h, haddress, haddress, blockBytes]

end Sys2Proof.Machine
end

section
/-! OPEN_SESSION: its checks (R15 to R17, R21), and what an accepted one leaves (R22, R23, R44). -/

namespace Sys2Proof.Machine

/-! ## The checks of the geometry (R15 to R17) -/

/-- The completeness test of R16. -/
theorem Geo.complete_iff (g : Geo) (p : Profile) :
    g.complete p = true ↔ p.t * p.l ≤ 16 * 2 ^ p.k ∧ ∀ x j, x < p.n → j < p.segNeed → g.entry x j ≠ none := by
  simp only [Geo.complete, Bool.and_eq_true, decide_eq_true_eq, List.all_eq_true, List.mem_range,
    Option.isSome_iff_ne_none]
  exact and_congr_right fun _ => ⟨fun h x j hx hj => h x hx j hj, fun h x hx j hj => h x j hx hj⟩

/-- Check 3 of R15: a mapped range shares a block with the area. -/
theorem Geo.sharesBlocks_iff (g : Geo) (p : Profile) (x a b : Nat) :
    g.sharesBlocks p x a b = true ↔ ∃ j base, j < 16 ∧ g.entry x j = some base ∧ a < base + 2 ^ p.k ∧ base < b := by
  simp only [Geo.sharesBlocks, List.any_eq_true, List.mem_range]
  refine exists_congr fun j => ?_
  cases he : g.entry x j with
  | none => simp
  | some base =>
    simp only [Bool.and_eq_true, decide_eq_true_eq, Option.some.injEq, exists_eq_left', exists_and_left]
    rfl

/-- Checks 1 and 2 of R15: the number of strips and the end of the area. -/
def AreaFits (p : Profile) (aq kq : Nat) : Prop := 1 ≤ kq ∧ kq ≤ 8 ∧ aq + kq * p.l ≤ 2 ^ 48

theorem Geo.areaProblem_of_not_fits {p : Profile} {aq kq : Nat} (h : ¬AreaFits p aq kq) (g : Geo) (f : Nat) :
    g.areaProblem p f aq kq = some .refusedRange := by
  unfold Geo.areaProblem
  split
  · rfl
  · rename_i hk
    refine if_pos ?_
    by_contra hend
    exact h ⟨by omega, by omega, by omega⟩

theorem Geo.areaProblem_of_fits {p : Profile} {aq kq : Nat} (h : AreaFits p aq kq) (g : Geo) (f : Nat) :
    g.areaProblem p f aq kq = if g.sharesBlocks p f aq (aq + kq * p.l) then some .overlap else none := by
  obtain ⟨hmin, hmax, hend⟩ := h
  rw [Geo.areaProblem, if_neg (by omega), if_neg (by omega)]

theorem Geo.sessionProblem_of_incomplete {g : Geo} {p : Profile} (h : g.complete p ≠ true) (f aq kq : Nat) (skip : Bool) :
    g.sessionProblem p f aq kq skip = some .incomplete := by
  rw [Geo.sessionProblem, Bool.eq_false_iff.2 h]
  rfl

theorem Geo.sessionProblem_of_complete {g : Geo} {p : Profile} (h : g.complete p = true) (f aq kq : Nat) (skip : Bool) :
    g.sessionProblem p f aq kq skip = if skip then none else g.areaProblem p f aq kq := by
  rw [Geo.sessionProblem, h]
  rfl

/-! ## The fields (R21) -/

/-- The fields of OPEN_SESSION lie in their ranges (R21). -/
def OpenFits (p : Profile) (f b start fill : Nat) : Prop :=
  f < p.n ∧ 1 ≤ b ∧ b ≤ 4 ∧ start < p.regionCount ∧ fill ≤ 1

/-- The fill kind of a field in its range. -/
def fillKindAt (fill : Nat) : FillKind := if fill = 0 then .zero else .marked

theorem fillKindOf_of_le {fill : Nat} (h : fill ≤ 1) : fillKindOf fill = some (fillKindAt fill) := by
  unfold fillKindOf fillKindAt
  split
  · rfl
  · rw [if_pos (by omega)]

theorem fillKindOf_of_gt {fill : Nat} (h : 1 < fill) : fillKindOf fill = none := by
  rw [fillKindOf, if_neg (by omega), if_neg (by omega)]

/-- The session record, the region table and the timeout counts of an accepted OPEN_SESSION, still in ABSENT (R22, R44). -/
def State.admitted (p : Profile) (f b lanes fill start aq kq : Nat) (skip : Bool) (s : State) : State :=
  ((s.updSes fun _ => Ses.opened p.n f b lanes (fillKindAt fill) aq kq skip).updRgt (Rgt.build p start)).zeroTimeouts

/-- The session is READY, or QUALIFYING with its buffer request made (R22, R23). -/
def State.opened (skip : Bool) (s : State) : State :=
  if skip then s.changeState .ready else (s.changeState .qualifying).requestBuffers { owner := .qualification, size := 2 }

/-- The state an accepted OPEN_SESSION enters (R22). -/
def enteredState (skip : Bool) : SessionState := if skip then .ready else .qualifying

section Taken

variable {s : State} {p : Profile} {f b lanes fill start aq kq skip : Nat}

theorem takeOpenSession_of_no_profile (h : s.ses.state = .absent) (hp : s.geo.profile = none) :
    takeOpenSession f b lanes fill start aq kq skip s = (s, .refuse .incomplete) := by
  simp [takeOpenSession, h, hp]

theorem takeOpenSession_of_not_fits (h : s.ses.state = .absent) (hp : s.geo.profile = some p)
    (hbad : ¬OpenFits p f b start fill) :
    takeOpenSession f b lanes fill start aq kq skip s = (s, .refuse .refusedRange) := by
  simp only [takeOpenSession, h, hp, ne_eq, not_true_eq_false, if_false]
  rcases Nat.lt_or_ge 1 fill with hfill | hfill
  · rw [fillKindOf_of_gt hfill]
  · rw [fillKindOf_of_le hfill]
    refine if_pos ?_
    by_contra hrange
    exact hbad ⟨by omega, by omega, by omega, by omega, hfill⟩

/-- Fields in their ranges leave the answer to GEO (R17). -/
theorem takeOpenSession_of_fits (h : s.ses.state = .absent) (hp : s.geo.profile = some p) (hfits : OpenFits p f b start fill) :
    takeOpenSession f b lanes fill start aq kq skip s =
      match s.geo.sessionProblem p f aq kq (skip != 0) with
      | some code => (s, .refuse code)
      | none => ((s.admitted p f b lanes fill start aq kq (skip != 0)).opened (skip != 0),
          .done (openedPayload (enteredState (skip != 0)) lanes)) := by
  obtain ⟨hf, hmin, hmax, hstart, hfill⟩ := hfits
  have hrange : ¬(p.n ≤ f ∨ b < 1 ∨ 4 < b ∨ p.regionCount ≤ start) := by omega
  simp only [takeOpenSession, h, hp, ne_eq, not_true_eq_false, if_false, fillKindOf_of_le hfill, hrange]
  cases s.geo.sessionProblem p f aq kq (skip != 0) with
  | some code => rfl
  | none =>
    simp only [State.opened, enteredState]
    split <;> rfl

theorem takeOpenSession_of_problem {code : ResultCode} (h : s.ses.state = .absent) (hp : s.geo.profile = some p)
    (hfits : OpenFits p f b start fill) (hproblem : s.geo.sessionProblem p f aq kq (skip != 0) = some code) :
    takeOpenSession f b lanes fill start aq kq skip s = (s, .refuse code) := by
  rw [takeOpenSession_of_fits h hp hfits, hproblem]

theorem takeOpenSession_of_ready (h : s.ses.state = .absent) (hp : s.geo.profile = some p)
    (hfits : OpenFits p f b start fill) (hready : s.geo.sessionProblem p f aq kq (skip != 0) = none) :
    takeOpenSession f b lanes fill start aq kq skip s =
      ((s.admitted p f b lanes fill start aq kq (skip != 0)).opened (skip != 0),
        .done (openedPayload (enteredState (skip != 0)) lanes)) := by
  rw [takeOpenSession_of_fits h hp hfits, hready]

end Taken

theorem State.opened_state (skip : Bool) (s : State) : (s.opened skip).ses.state = enteredState skip := by
  cases skip with
  | true => rfl
  | false =>
    obtain ⟨m, o, l, k, a, r, b, e, q, c, h⟩ :=
      (s.changeState .qualifying).requestBuffers_only { owner := .qualification, size := 2 }
    rw [State.opened, if_neg Bool.false_ne_true, h]
    rfl

theorem toNat_bne_zero (v : Byte) : (v.toNat != 0) = (v != 0) := by
  rw [Bool.eq_iff_iff, bne_iff_ne, bne_iff_ne, ne_eq, ne_eq, ← BitVec.toNat_inj]
  rfl

/-- Settles O15: the fields, then the completeness, then the area, as R21 and R17 order them. -/
theorem openSessionChecks : Obligations.OpenSessionChecks := by
  intro tag f b lanes fill start aq kq skip s hs habsent refused
  have hwidths : (HostCommand.openSession f.toNat b.toNat lanes.toNat fill.toNat start.toNat aq.toNat kq.toNat
      skip.toNat).fits := ⟨f.isLt, b.isLt, lanes.isLt, fill.isLt, start.isLt, aq.isLt, kq.isLt, skip.isLt⟩
  refine ⟨fun hp => ?_, fun p hp => ?_⟩
  · exact becomes_of_runCommand hs hwidths tag (takeOpenSession_of_no_profile (s := s.beginEvent) habsent hp)
  intro fieldsFit complete areaFits areaShared
  have hcomplete : s.geo.complete p = true ↔ complete := Geo.complete_iff s.geo p
  have hshared : s.geo.sharesBlocks p f.toNat aq.toNat (aq.toNat + kq.toNat * p.l) = true ↔ areaShared :=
    Geo.sharesBlocks_iff _ _ _ _ _
  have hfields : fieldsFit → OpenFits p f.toNat b.toNat start.toNat fill.toNat := id
  have hproblem {code : ResultCode} (hf : fieldsFit)
      (h : s.geo.sessionProblem p f.toNat aq.toNat kq.toNat (skip.toNat != 0) = some code) : refused code :=
    becomes_of_runCommand hs hwidths tag (takeOpenSession_of_problem (s := s.beginEvent) habsent hp (hfields hf) h)
  have harea (hc : complete) (hskip : skip = 0) :
      s.geo.sessionProblem p f.toNat aq.toNat kq.toNat (skip.toNat != 0) = s.geo.areaProblem p f.toNat aq.toNat kq.toNat := by
    rw [Geo.sessionProblem_of_complete (hcomplete.2 hc), hskip]
    rfl
  refine ⟨fun hbad => ?_, fun hf hc => ?_, fun hf hc hskip hbad => ?_, fun hf hc hskip hfit hsh => ?_, fun hf hc hok => ?_⟩
  · exact becomes_of_runCommand hs hwidths tag (takeOpenSession_of_not_fits (s := s.beginEvent) habsent hp hbad)
  · exact hproblem hf (Geo.sessionProblem_of_incomplete (mt hcomplete.1 hc) _ _ _ _)
  · exact hproblem hf ((harea hc hskip).trans (Geo.areaProblem_of_not_fits hbad _ _))
  · refine hproblem hf ((harea hc hskip).trans ?_)
    rw [Geo.areaProblem_of_fits hfit, if_pos (hshared.2 hsh)]
  · have hready : s.geo.sessionProblem p f.toNat aq.toNat kq.toNat (skip.toNat != 0) = none := by
      by_cases hskip : skip = 0
      · obtain ⟨hfit, hsh⟩ := hok.resolve_left (not_not.2 hskip)
        rw [harea hc hskip, Geo.areaProblem_of_fits hfit, if_neg (mt hshared.1 hsh)]
      · rw [Geo.sessionProblem_of_complete (hcomplete.2 hc), toNat_bne_zero, if_pos (bne_iff_ne.2 hskip)]
    obtain ⟨hexec, hresp⟩ := exec_of_runCommand hs hwidths tag
      (takeOpenSession_of_ready (s := s.beginEvent) habsent hp (hfields hf) hready)
    refine ⟨_, _, hexec, hresp, ?_⟩
    rw [ne_eq, State.respond, State.updMgp_ses, State.opened_state]
    cases skip.toNat != 0 <;> decide

/-! ## What an accepted OPEN_SESSION leaves (R22, R23, R44) -/

theorem openingRoles_get {n f x : Nat} (hx : x < n) :
    (openingRoles n f)[x]? = some (if x = f then .spare else .survivor) := by
  simp [openingRoles, hx]

theorem State.zeroTimeouts_pos (s : State) (x : Nat) : s.zeroTimeouts.mru.pos x = { s.mru.pos x with timeouts := 0 } := by
  simp only [State.zeroTimeouts, State.updMru, Mru.pos, List.getD_eq_getElem?_getD, List.getElem?_map]
  cases s.mru.positions[x]? with
  | none => rfl
  | some p => rfl

/-- A request for buffers that are free is granted at once, when nothing waits (R111). -/
theorem State.requestBuffers_of_free {s : State} {r : BufRequest} (hw : s.sbp.waiting = []) (hf : r.size ≤ s.sbp.free.length) :
    s.requestBuffers r = s.grantBuffers r := by
  simp [State.requestBuffers, hw, hf]

/-- Otherwise it joins the wait list (R111). -/
theorem State.requestBuffers_of_busy {s : State} {r : BufRequest} (h : s.sbp.waiting ≠ [] ∨ s.sbp.free.length < r.size) :
    s.requestBuffers r = s.updSbp fun p => { p with waiting := p.waiting ++ [r] } := by
  refine if_neg ?_
  rw [Bool.and_eq_true, List.isEmpty_iff, decide_eq_true_eq]
  rintro ⟨hw, hf⟩
  rcases h with h | h
  · exact h hw
  · omega

/-- The qualification set is taken from the free pool (R110, R111). -/
def State.qualSetTaken (s : State) : State :=
  (s.updSbp fun p => { p with free := p.free.drop 2 }).updSes fun e => { e with qualSet := s.sbp.free.take 2 }

/-- The grant of qualification's set begins its first attempt (R23). -/
theorem State.grantBuffers_qualification {s : State} {q : QualProgress} (h : s.ses.qualProgress = some q) :
    s.grantBuffers { owner := .qualification, size := 2 } = s.qualSetTaken.beginAttempt q := by
  have h' : s.qualSetTaken.ses.qualProgress = some q := h
  show (match s.qualSetTaken.ses.qualProgress with
    | none => s.qualSetTaken
    | some q => s.qualSetTaken.beginAttempt q) = _
  rw [h']

/-- SBP's state and the qualification set are replaced. -/
def State.withSet (p : Sbp) (set : List BufId) (s : State) : State := { s with sbp := p, ses := { s.ses with qualSet := set } }

theorem State.QualStepped.refl (s : State) : s.QualStepped s := ⟨⟨_, _, _, _, rfl⟩, rfl, rfl, fun _ => rfl, fun _ _ => rfl⟩

/-- Whether READY is entered, the set granted or its request left waiting: an accepted OPEN_SESSION enters its state, and beyond
SBP's state and the set only a qualification step may follow. -/
theorem State.opened_stepped {s : State} {q : QualProgress} (skip : Bool) (h : skip = false → s.ses.qualProgress = some q) :
    ∃ p set, State.QualStepped ((s.changeState (enteredState skip)).withSet p set) (s.opened skip) := by
  cases skip with
  | true => exact ⟨s.sbp, s.ses.qualSet, .refl _⟩
  | false =>
    have hq : (s.changeState .qualifying).ses.qualProgress = some q := h rfl
    show ∃ p set, State.QualStepped _ ((s.changeState .qualifying).requestBuffers { owner := .qualification, size := 2 })
    by_cases hfree : s.sbp.waiting = [] ∧ 2 ≤ s.sbp.free.length
    · rw [State.requestBuffers_of_free (s := s.changeState .qualifying) (r := { owner := .qualification, size := 2 })
        hfree.1 hfree.2, State.grantBuffers_qualification hq]
      exact ⟨_, _, State.beginAttempt_stepped q (s.changeState .qualifying).qualSetTaken⟩
    · rw [State.requestBuffers_of_busy]
      · exact ⟨{ s.sbp with waiting := s.sbp.waiting ++ [{ owner := .qualification, size := 2 }] }, s.ses.qualSet, .refl _⟩
      · exact (not_and_or.1 hfree).imp id Nat.not_le.1

section Opened

variable {s : State} {p : Profile} {f b lanes fill start aq kq : Nat}

/-- What holds whether or not the spare is qualified (R22, R44). -/
theorem State.opened_common (skip : Bool) {t : State} (h : t = (s.admitted p f b lanes fill start aq kq skip).opened skip) :
    Noted s t (Event.bit .stateChange) ∧
      (t.ses.state = enteredState skip ∧ t.ses.cause = .none ∧ t.ses.failedPos = some f ∧ t.ses.faultedSurvivor = none ∧
        t.ses.batchSize = some b ∧ t.ses.laneCount = clampTo 1 4 lanes ∧ t.ses.fillKind = some (fillKindAt fill) ∧
        t.ses.roles = openingRoles p.n f ∧ t.ses.qualArea = if skip then none else some (aq, kq)) ∧
      t.rgt = Rgt.build p start s.rgt ∧
      (∀ x, (t.mru.pos x).timeouts = 0 ∧ (x ≠ f → (t.mru.pos x).queue = (s.mru.pos x).queue ∧
        (t.mru.pos x).outstanding = (s.mru.pos x).outstanding)) ∧
      (t.geo = s.geo ∧ t.slk = s.slk ∧ t.lrl = s.lrl ∧ t.lanes = s.lanes ∧ t.rtu = s.rtu ∧ t.rcd = s.rcd ∧ t.now = s.now ∧
        t.holdingOrder = s.holdingOrder ∧ t.mru.quarantined = s.mru.quarantined) := by
  have hprogress : skip = false →
      (s.admitted p f b lanes fill start aq kq skip).ses.qualProgress = some QualProgress.start := by
    rintro rfl
    rfl
  obtain ⟨sbp, set, only, hquarantined, -, htimeouts, hothers⟩ := State.opened_stepped skip hprogress
  rw [← h] at only hquarantined htimeouts hothers
  obtain ⟨m, o, e, q, rfl⟩ := only
  have hpos (x : Nat) := s.zeroTimeouts_pos x
  refine ⟨⟨rfl, rfl, rfl⟩, ⟨rfl, rfl, rfl, rfl, rfl, rfl, rfl, rfl, rfl⟩, rfl, fun x => ⟨?_, fun hx => ?_⟩,
    ⟨rfl, rfl, rfl, rfl, rfl, rfl, rfl, rfl, hquarantined⟩⟩
  · exact (htimeouts x).trans (congrArg (·.timeouts) (hpos x))
  · have hsame : m.pos x = { s.mru.pos x with timeouts := 0 } := (hothers x hx).trans (hpos x)
    exact ⟨congrArg (·.queue) hsame, congrArg (·.outstanding) hsame⟩

/-- What holds when the spare is qualified: the set is granted at once and the first attempt begun, or the request waits (R23). -/
theorem State.opened_qualifying {t : State} (h : t = (s.admitted p f b lanes fill start aq kq false).opened false) :
    (s.sbp.waiting = [] → 2 ≤ s.sbp.free.length →
      t.ses.qualSet = s.sbp.free.take 2 ∧ t.sbp.free = s.sbp.free.drop 2 ∧ t.sbp.waiting = [] ∧
      (s.mru.namesQuarantined (s.sbp.free.getD 0 0) = false →
        t.ses.qualProgress = some { strip := 0, attempt := 1, phase := .writing, held := .none })) ∧
    (s.sbp.waiting ≠ [] ∨ s.sbp.free.length < 2 →
      t.sbp.waiting = s.sbp.waiting ++ [{ owner := .qualification, size := 2 }] ∧ t.mem = s.mem ∧
      t.ses.qualProgress = some { strip := 0, attempt := 1, phase := .buffers, held := .none }) := by
  set u := (s.admitted p f b lanes fill start aq kq false).changeState .qualifying
  have ht : t = u.requestBuffers { owner := .qualification, size := 2 } := h
  refine ⟨fun hw hf => ?_, fun hbusy => ?_⟩
  · have hgrant : t = u.qualSetTaken.beginAttempt .start :=
      (ht.trans (State.requestBuffers_of_free hw hf)).trans (State.grantBuffers_qualification rfl)
    have hstepped := u.qualSetTaken.beginAttempt_stepped .start
    rw [← hgrant] at hstepped
    refine ⟨?_, ?_, ?_, fun hnamed => ?_⟩
    · obtain ⟨m, o, e, q, rfl⟩ := hstepped.only
      rfl
    · obtain ⟨m, o, e, q, rfl⟩ := hstepped.only
      rfl
    · obtain ⟨m, o, e, q, rfl⟩ := hstepped.only
      exact hw
    · have hbuf : u.qualSetTaken.ses.patternBuf = s.sbp.free.getD 0 0 := by
        show (s.sbp.free.take 2).getD 0 0 = _
        simp [List.getD_eq_getElem?_getD]
      rw [hgrant, State.beginAttempt_ses (by rw [hbuf]; exact hnamed)]
      rfl
  · rw [ht, State.requestBuffers_of_busy hbusy]
    exact ⟨rfl, rfl, rfl⟩

end Opened

/-- Settles O16: what holds of either, and then READY with nothing drawn, or QUALIFYING with the set granted or waited for. -/
theorem openSessionAccepted : Obligations.OpenSessionAccepted := by
  intro tag f b lanes fill start aq kq skip s p hs habsent hp hf hmin hmax hstart hfill hready count entered
  have hwidths : (HostCommand.openSession f.toNat b.toNat lanes.toNat fill.toNat start.toNat aq.toNat kq.toNat
      skip.toNat).fits := ⟨f.isLt, b.isLt, lanes.isLt, fill.isLt, start.isLt, aq.isLt, kq.isLt, skip.isLt⟩
  have hrun := takeOpenSession_of_ready (s := s.beginEvent) (lanes := lanes.toNat) (skip := skip.toNat) habsent hp
    ⟨hf, hmin, hmax, hstart, hfill⟩ (by rw [toNat_bne_zero]; exact hready)
  rw [toNat_bne_zero] at hrun
  obtain ⟨hexec, hresp⟩ := exec_of_runCommand hs hwidths tag hrun
  have hentered : enteredState (skip != 0) = entered := by
    by_cases h : skip = 0
    · rw [show entered = .qualifying from if_pos h, h]
      rfl
    · rw [show entered = .ready from if_neg h, bne_iff_ne.2 h]
      rfl
  have hkind : fillKindAt fill.toNat = if fill = 0 then .zero else .marked :=
    if_congr (BitVec.toNat_inj (y := (0 : Byte))) rfl rfl
  rw [hentered] at hexec hresp
  obtain ⟨t, ht⟩ : ∃ t, t = (s.beginEvent.admitted p f.toNat b.toNat lanes.toNat fill.toNat start.toNat aq.toNat kq.toNat
    (skip != 0)).opened (skip != 0) := ⟨_, rfl⟩
  rw [← ht] at hexec hresp
  obtain ⟨hnoted, ⟨hstate, hcause, hfailed, hfaulted, hbatch, hlanes, hfillKind, hroles, harea⟩, hrgt, hpos, hsame⟩ :=
    State.opened_common _ ht
  refine ⟨_, hexec, hresp, hnoted, ⟨hstate.trans hentered, hcause, hfailed, hfaulted, hbatch, hlanes,
    hfillKind.trans (congrArg some hkind), ?_, fun x hx => ?_⟩, ?_, hpos, hsame, fun h => ?_, fun h => ?_⟩
  · exact (congrArg List.length hroles).trans (by simp [openingRoles])
  · exact (congrArg (·[x]?) hroles).trans (openingRoles_get hx)
  · rw [State.respond, State.updMgp_rgt, hrgt]
    exact ⟨rfl, rfl, rfl, rfl, rfl, rfl⟩
  · rw [bne_iff_ne.2 h] at ht
    subst ht
    exact ⟨rfl, rfl, rfl, rfl⟩
  · have hskip : (skip != 0) = false := by rw [h]; rfl
    rw [hskip] at ht harea
    have hset := State.opened_qualifying ht
    exact ⟨harea, hset⟩

end Sys2Proof.Machine
end

section
/-! MEMBER_DOWN: the clearing of a position, what a first survivor fault does to the lanes, and the rows of Table 2-5. -/

namespace Sys2Proof.Machine

/-! ## Clearing a position (R154) -/

/-- A change that keeps a position after power-on reset as it is reaches every place. -/
theorem Mru.pos_updPos_of_reset {f : PosState → PosState} (h : f PosState.reset = PosState.reset) (x : Nat) (m : Mru) :
    (m.updPos x f).pos x = f (m.pos x) := by
  rw [Mru.pos_updPos]
  split
  · rfl
  · rename_i hx
    have hreset : m.pos x = PosState.reset := List.getD_eq_default _ _ (Nat.not_lt.1 fun hlt => hx ⟨rfl, hlt⟩)
    rw [hreset, h]

/-- A position without its queue, its outstanding set and its pacing expiry. -/
def PosState.cleared (p : PosState) : PosState := { p with queue := [], outstanding := [], expiry := none }

/-- The clearing of position x before the tags it freed are given out. -/
def State.cleared (x : Nat) (s : State) : State :=
  (s.updPos x PosState.cleared).updMru fun m =>
    { m with
      quarantined := m.quarantined ++ (s.mru.pos x).outstanding.map (Request.quarantine (s.now + s.mru.timeout))
      tagWait := m.tagWait.erase x }

theorem State.clearPosition_issued (x : Nat) (s : State) : (s.cleared x).Issued (s.clearPosition x) := by
  have h : s.clearPosition x =
      if (s.mru.pos x).queue.any (·.tag.isSome) then (s.cleared x).serveTagWait.decideAll else s.cleared x := rfl
  rw [h]
  split
  · exact (State.serveTagWait_issued _).trans (State.decideAll_issued _)
  · exact .refl _

/-- A cleared position has no requests, and its outstanding ones are quarantined (R154). -/
theorem State.clearPosition_pos (x : Nat) (s : State) : (s.clearPosition x).mru.pos x = (s.mru.pos x).cleared := by
  have hcleared : (s.cleared x).mru.pos x = (s.mru.pos x).cleared := Mru.pos_updPos_of_reset rfl x s.mru
  rw [(s.clearPosition_issued x).unqueued x (by rw [hcleared]; rfl) (by rw [hcleared]; rfl), hcleared]

theorem State.clearPosition_quarantined (x : Nat) (s : State) :
    (s.clearPosition x).mru.quarantined =
      s.mru.quarantined ++ (s.mru.pos x).outstanding.map (Request.quarantine (s.now + s.mru.timeout)) :=
  (s.clearPosition_issued x).quarantined

/-! ## The lanes at a first survivor fault (R119, R120, R122) -/

/-- The lane's requests that have not settled, once those to position x are not waited for. -/
def Lane.leftWithout (x : Nat) (l : Lane) : Nat := l.outstanding - l.unsettled x

/-- A lane's record after a first survivor fault of position x. -/
def Lane.faulted (x : Nat) (l : Lane) : Lane :=
  if l.stage = .reading then
    { l with
      stage := if l.leftWithout x = 0 then .solving else .reading
      outstanding := l.leftWithout x
      reads := l.reads.map (missingAt x) }
  else if l.stage = .solving then { l with reads := l.reads.map (missingAt x) }
  else l

section Faulted

variable {x : Nat} {l : Lane}

theorem Lane.faulted_of_left (h : l.stage = .reading) (hleft : l.leftWithout x ≠ 0) :
    l.faulted x = { l with outstanding := l.leftWithout x, reads := l.reads.map (missingAt x) } := by
  rw [Lane.faulted, if_pos h, if_neg hleft, ← h]

theorem Lane.faulted_of_done (h : l.stage = .reading) (hleft : l.leftWithout x = 0) :
    l.faulted x = { l with stage := .solving, outstanding := 0, reads := l.reads.map (missingAt x) } := by
  rw [Lane.faulted, if_pos h, if_pos hleft, hleft]

theorem Lane.faulted_of_solving (h : l.stage = .solving) : l.faulted x = { l with reads := l.reads.map (missingAt x) } := by
  rw [Lane.faulted, if_neg (by rw [h]; decide), if_pos h]

theorem Lane.faulted_of_other (h : l.stage ≠ .reading) (h' : l.stage ≠ .solving) : l.faulted x = l := by
  rw [Lane.faulted, if_neg h, if_neg h']

end Faulted

/-- The solve context of a lane that enters SOLVING (R161). -/
def Lane.freshContext (l : Lane) : SolveContext :=
  { stripe := 0, block := 0, results := List.replicate ((l.batch.map (·.length)).getD 0) StripeResult.empty }

/-- A lane's solve context after a first survivor fault of position x. -/
def Lane.faultedContext (x : Nat) (l : Lane) (c : Option SolveContext) : Option SolveContext :=
  if l.stage = .reading ∧ l.leftWithout x = 0 then some l.freshContext else c

theorem State.enterSolving_lane (n m : Fin 4) (s : State) :
    (s.enterSolving n).lanes[m] = if m = n then { s.lanes[n] with stage := .solving } else s.lanes[m] := by
  split
  · rename_i h
    subst h
    exact State.updLane_get_self m (fun l => { l with stage := .solving }) s
  · rename_i h
    exact State.updLane_get_other (Ne.symm h) (fun l => { l with stage := .solving }) s

theorem State.enterSolving_context (n m : Fin 4) (s : State) :
    (s.enterSolving n).rcd.contexts[m] = if m = n then some s.lanes[n].freshContext else s.rcd.contexts[m] := by
  have hset : (s.enterSolving n).rcd.contexts = s.rcd.contexts.set n (some s.lanes[n].freshContext) := rfl
  split
  · rename_i h
    subst h
    rw [hset]
    simp
  · rename_i h
    have h' : n.val ≠ m.val := fun e => h (Fin.ext e.symm)
    rw [hset]
    simp [h']

/-- The lanes of the list have taken the fault of position x. -/
structure State.LanesTookFault (x : Nat) (l : List (Fin 4)) (s t : State) : Prop where
  only : ∃ lanes contexts, t = { s with lanes := lanes, rcd := { s.rcd with contexts := contexts } }
  lanes : ∀ n : Fin 4, t.lanes[n] = if n ∈ l then s.lanes[n].faulted x else s.lanes[n]
  contexts : ∀ n : Fin 4, t.rcd.contexts[n] =
    if n ∈ l then s.lanes[n].faultedContext x s.rcd.contexts[n] else s.rcd.contexts[n]

/-- One lane has changed, and its solve context. -/
theorem State.lanesTookFault_one {x : Nat} {n : Fin 4} {s t : State}
    (only : ∃ lanes contexts, t = { s with lanes := lanes, rcd := { s.rcd with contexts := contexts } })
    (hlane : t.lanes[n] = s.lanes[n].faulted x)
    (hcontext : t.rcd.contexts[n] = s.lanes[n].faultedContext x s.rcd.contexts[n])
    (hothers : ∀ m : Fin 4, m ≠ n → t.lanes[m] = s.lanes[m] ∧ t.rcd.contexts[m] = s.rcd.contexts[m]) :
    State.LanesTookFault x [n] s t := by
  refine ⟨only, fun m => ?_, fun m => ?_⟩
  · split
    · rename_i hm
      rw [List.mem_singleton.1 hm, hlane]
    · rename_i hm
      exact (hothers m fun e => hm (List.mem_singleton.2 e)).1
  · split
    · rename_i hm
      rw [List.mem_singleton.1 hm, hcontext]
    · rename_i hm
      exact (hothers m fun e => hm (List.mem_singleton.2 e)).2

theorem State.faultLane_tookFault (x : Nat) (n : Fin 4) (s : State) : State.LanesTookFault x [n] s (s.faultLane x n) := by
  have hother (f : Lane → Lane) (m : Fin 4) (hm : m ≠ n) : (s.updLane n f).lanes[m] = s.lanes[m] :=
    State.updLane_get_other (Ne.symm hm) f s
  unfold State.faultLane
  split
  · rename_i hstage
    set f : Lane → Lane := fun l => { l with outstanding := l.outstanding - l.unsettled x, reads := l.reads.map (missingAt x) }
    have hself : (s.updLane n f).lanes[n] = f s.lanes[n] := State.updLane_get_self n f s
    simp only
    split
    · rename_i hleft
      rw [hself] at hleft
      have hleft : s.lanes[n].leftWithout x = 0 := hleft
      refine State.lanesTookFault_one ⟨_, _, rfl⟩ ?_ ?_ fun m hm => ⟨?_, ?_⟩
      · rw [State.enterSolving_lane, if_pos rfl, hself, Lane.faulted_of_done hstage hleft, ← hleft]
        rfl
      · rw [State.enterSolving_context, if_pos rfl, hself, Lane.faultedContext, if_pos ⟨hstage, hleft⟩]
        rfl
      · rw [State.enterSolving_lane, if_neg hm, hother f m hm]
      · rw [State.enterSolving_context, if_neg hm]
        rfl
    · rename_i hleft
      rw [hself] at hleft
      have hleft : s.lanes[n].leftWithout x ≠ 0 := hleft
      refine State.lanesTookFault_one ⟨_, _, rfl⟩ ?_ ?_ fun m hm => ⟨hother f m hm, rfl⟩
      · rw [hself, Lane.faulted_of_left hstage hleft]
        rfl
      · rw [Lane.faultedContext, if_neg fun h => hleft h.2]
        rfl
  · rename_i hstage
    refine State.lanesTookFault_one ⟨_, _, rfl⟩ ?_ ?_ fun m hm => ⟨hother _ m hm, rfl⟩
    · rw [State.updLane_get_self, Lane.faulted_of_solving hstage]
    · rw [Lane.faultedContext, if_neg fun h => by rw [hstage] at h; cases h.1]
      rfl
  · rename_i hreading hsolving
    refine State.lanesTookFault_one ⟨_, _, rfl⟩ ?_ ?_ fun m hm => ⟨rfl, rfl⟩
    · rw [Lane.faulted_of_other hreading hsolving]
    · rw [Lane.faultedContext, if_neg fun h => hreading h.1]

theorem State.LanesTookFault.cons {x : Nat} {n : Fin 4} {rest : List (Fin 4)} {s u t : State} (hn : n ∉ rest)
    (h : State.LanesTookFault x [n] s u) (h' : State.LanesTookFault x rest u t) : State.LanesTookFault x (n :: rest) s t := by
  have hlane (m : Fin 4) : u.lanes[m] = if m = n then s.lanes[m].faulted x else s.lanes[m] := by
    rw [h.lanes, if_congr List.mem_singleton rfl rfl]
  have hcontext (m : Fin 4) : u.rcd.contexts[m] =
      if m = n then s.lanes[m].faultedContext x s.rcd.contexts[m] else s.rcd.contexts[m] := by
    rw [h.contexts, if_congr List.mem_singleton rfl rfl]
  refine ⟨?_, fun m => ?_, fun m => ?_⟩
  · obtain ⟨l, c, rfl⟩ := h.only
    obtain ⟨l', c', rfl⟩ := h'.only
    exact ⟨l', c', rfl⟩
  · rw [h'.lanes, hlane]
    by_cases hm : m = n
    · subst hm
      simp [hn]
    · simp [hm]
  · rw [h'.contexts, hcontext, hlane]
    by_cases hm : m = n
    · subst hm
      simp [hn]
    · simp [hm]

theorem State.foldl_faultLane (x : Nat) {l : List (Fin 4)} (hl : l.Nodup) (s : State) :
    State.LanesTookFault x l s (l.foldl (State.faultLane x) s) := by
  induction l generalizing s with
  | nil => exact ⟨⟨_, _, rfl⟩, fun _ => rfl, fun _ => rfl⟩
  | cons n rest ih =>
    obtain ⟨hn, hrest⟩ := List.nodup_cons.1 hl
    exact (s.faultLane_tookFault x n).cons hn (ih hrest _)

/-- The fault taken by every lane is the one R119, R120 and R122 give. -/
theorem State.LanesTookFault.lanesFaulted {x : Nat} {s t : State} (h : State.LanesTookFault x allLanes s t) :
    LanesFaulted s t x := by
  intro n unsettled reads left fresh
  have hlane : t.lanes[n] = s.lanes[n].faulted x := (h.lanes n).trans (if_pos (List.mem_finRange n))
  have hcontext : t.rcd.contexts[n] = s.lanes[n].faultedContext x s.rcd.contexts[n] :=
    (h.contexts n).trans (if_pos (List.mem_finRange n))
  have hkept (hn : ¬(s.lanes[n].stage = .reading ∧ left = 0)) : t.rcd.contexts[n] = s.rcd.contexts[n] :=
    hcontext.trans (if_neg hn)
  refine ⟨fun hr hl => ⟨?_, hkept fun h => hl h.2⟩, fun hr hl => ⟨?_, hcontext.trans (if_pos ⟨hr, hl⟩)⟩,
    fun hsolving => ⟨?_, hkept fun h => ?_⟩, fun hr hsolving => ⟨?_, hkept fun h => hr h.1⟩⟩
  · exact hlane.trans (Lane.faulted_of_left hr hl)
  · exact hlane.trans (Lane.faulted_of_done hr hl)
  · exact hlane.trans (Lane.faulted_of_solving hsolving)
  · rw [hsolving] at h
    cases h.1
  · exact hlane.trans (Lane.faulted_of_other hr hsolving)

/-! ## The first survivor fault (R38, R154) -/

/-- Position x is marked FAULTED as the first survivor to fault, and not yet cleared (Table 2-5). -/
def State.firstMarked (x : Nat) (s : State) : State := (s.markFaulted x).updSes fun e => { e with faultedSurvivor := some x }

theorem State.markFaulted_noted (x : Nat) (s : State) : Noted s (s.markFaulted x) (Event.bit .memberFaulted) :=
  ⟨rfl, rfl, rfl⟩

/-- What a first survivor fault leaves: the marks, the position cleared, and the lanes. -/
structure State.FirstFaulted (x : Nat) (s t : State) : Prop where
  only : ∃ m o lanes contexts, t =
    { s.firstMarked x with mru := m, sent := o, lanes := lanes, rcd := { s.rcd with contexts := contexts } }
  mru : t.mru = ((s.firstMarked x).clearPosition x).mru
  sent : t.sent = ((s.firstMarked x).clearPosition x).sent
  lanes : LanesFaulted s t x

theorem State.firstFault_faulted (x : Nat) (s : State) : State.FirstFaulted x s (s.firstFault x) := by
  have hfold := State.foldl_faultLane x (List.nodup_finRange 4) ((s.firstMarked x).clearPosition x)
  have h : s.firstFault x = (List.finRange 4).foldl (State.faultLane x) ((s.firstMarked x).clearPosition x) := rfl
  rw [← h] at hfold
  generalize s.firstFault x = t at hfold
  have hlanes := hfold.lanesFaulted
  obtain ⟨l, c, only⟩ := hfold.only
  obtain ⟨m, o, hclear⟩ := (s.firstMarked x).clearPosition_only x
  refine ⟨?_, by rw [only], by rw [only], ?_⟩
  · rw [only, hclear]
    exact ⟨m, o, l, c, rfl⟩
  · rw [hclear] at hlanes
    exact hlanes

/-! ## The rows of Table 2-5 -/

section Faults

variable {s : State} {x : Nat} (hopen : s.ses.state.isOpen = true)

include hopen

theorem State.takeFault_of_faulted (h : s.ses.roles[x]? = some .faulted) : s.takeFault x = s := by
  simp [State.takeFault, hopen, h]

theorem State.takeFault_of_spare (h : s.ses.roles[x]? = some .spare) : s.takeFault x = s.endSession .failed .spareLost := by
  simp [State.takeFault, hopen, h]

theorem State.takeFault_of_first (h : s.ses.roles[x]? = some .survivor) (hf : s.ses.faultedSurvivor = none) :
    s.takeFault x = s.firstFault x := by
  simp [State.takeFault, hopen, h, hf]

theorem State.takeFault_of_second (h : s.ses.roles[x]? = some .survivor) (hf : s.ses.faultedSurvivor ≠ none) :
    s.takeFault x = (s.markFaulted x).endSession .broken .tooManyFaults := by
  obtain ⟨y, hy⟩ := Option.ne_none_iff_exists'.1 hf
  simp [State.takeFault, hopen, h, hy]

theorem takeMemberDown_of_range (h : s.profile.n ≤ x) : takeMemberDown x s = (s, .refuse .refusedRange) := by
  simp [takeMemberDown, hopen, h]

theorem takeMemberDown_of_lt (h : x < s.profile.n) : takeMemberDown x s = accepted (s.takeFault x) := by
  simp [takeMemberDown, hopen, Nat.not_le.2 h]

end Faults

/-- MRU after a first survivor fault: where no dropped request held a tag, nothing but the position has changed (R139, R154). -/
theorem State.FirstFaulted.cleared {x : Nat} {s t : State} (h : State.FirstFaulted x s t) :
    t.mru.pos x = { s.mru.pos x with queue := [], outstanding := [], expiry := none } ∧
      t.mru.quarantined = s.mru.quarantined ++
        (s.mru.pos x).outstanding.map (fun r => { r with deadline := some (s.now + s.mru.timeout) }) ∧
      ((∀ q ∈ (s.mru.pos x).queue, q.tag = none) → t.sent = s.sent ∧ t.mru.tagWait = s.mru.tagWait.erase x ∧
        ∀ y, y ≠ x → t.mru.pos y = s.mru.pos y) := by
  rw [h.mru, h.sent]
  refine ⟨(s.firstMarked x).clearPosition_pos x, (s.firstMarked x).clearPosition_quarantined x, fun hq => ?_⟩
  rw [State.clearPosition_of_no_tag x (s.firstMarked x) hq]
  exact ⟨rfl, rfl, fun y hy => Mru.pos_updPos_other hy PosState.cleared s.mru⟩

/-- Settles O22: the range check, then the row of Table 2-5 for the position's role. -/
theorem memberDownEscalates : Obligations.MemberDownEscalates := by
  intro tag x s hs hst done role
  have hopen : s.beginEvent.ses.state.isOpen = true := (SessionState.isOpen_iff _).2 hst
  have hfits : (HostCommand.memberDown x.toNat).fits := x.isLt
  have hexec {u : State} (hx : x.toNat < s.profile.n) (h : s.beginEvent.takeFault x.toNat = u) :
      exec (.memberDown tag x) s = .next (u.respond tag done) ∧ Responded s (u.respond tag done) tag done :=
    exec_of_runCommand hs hfits tag ((takeMemberDown_of_lt hopen hx).trans (congrArg accepted h))
  refine ⟨fun hx => ?_, fun hx hr => ?_, fun hx hr => ?_, fun hx hr hf => ?_, fun hx hr hf => ?_⟩
  · exact becomes_of_runCommand hs hfits tag (takeMemberDown_of_range hopen hx)
  · exact ⟨_, (hexec hx (State.takeFault_of_faulted hopen hr)).1, rfl⟩
  · obtain ⟨hexec, hresp⟩ := hexec hx (State.takeFault_of_spare hopen hr)
    have hended := s.beginEvent.endSession_ended .failed .spareLost
    have hnoted := s.beginEvent.endSession_noted .failed .spareLost
    have hses := s.beginEvent.endSession_ses .failed .spareLost
    generalize s.beginEvent.endSession .failed .spareLost = t at *
    exact ⟨_, hexec, hended, hresp, hnoted, congrArg (·.roles) hses⟩
  · obtain ⟨hexec, hresp⟩ := hexec hx (State.takeFault_of_second hopen hr hf)
    have hended := (s.beginEvent.markFaulted x.toNat).endSession_ended .broken .tooManyFaults
    have hnoted := (s.beginEvent.markFaulted_noted x.toNat).trans
      ((s.beginEvent.markFaulted x.toNat).endSession_noted .broken .tooManyFaults)
    have hses := (s.beginEvent.markFaulted x.toNat).endSession_ses .broken .tooManyFaults
    rw [BitVec.or_comm] at hnoted
    generalize (s.beginEvent.markFaulted x.toNat).endSession .broken .tooManyFaults = t at *
    exact ⟨_, hexec, hended, hresp, hnoted, congrArg (·.roles) hses, congrArg (·.faultedSurvivor) hses⟩
  · obtain ⟨hexec, hresp⟩ := hexec hx (State.takeFault_of_first hopen hr hf)
    have hfaulted := s.beginEvent.firstFault_faulted x.toNat
    generalize s.beginEvent.firstFault x.toNat = t at *
    obtain ⟨hpos, hquarantined, htagless⟩ := hfaulted.cleared
    obtain ⟨⟨m, o, l, c, rfl⟩, -, -, hlanes⟩ := hfaulted
    exact ⟨_, hexec, hresp, s.markFaulted_noted x.toNat, rfl, hpos, hquarantined, htagless, hlanes, rfl, rfl, rfl, rfl, rfl, rfl,
      rfl, rfl, rfl⟩

end Sys2Proof.Machine
end

section
/-! Qualification: what the settlements of an attempt's requests, and the ends of quarantines, decide (R23 to R27, R149, R152). -/

namespace Sys2Proof.Machine

/-! ## What issues keep outside MRU -/

section Issued

variable {s t : State} (h : s.Issued t)

include h

theorem State.Issued.ses : t.ses = s.ses := by
  obtain ⟨m, o, only⟩ := h.only
  rw [only]

theorem State.Issued.mgp : t.mgp = s.mgp := by
  obtain ⟨m, o, only⟩ := h.only
  rw [only]

theorem State.Issued.mem : t.mem = s.mem := by
  obtain ⟨m, o, only⟩ := h.only
  rw [only]

theorem State.Issued.now : t.now = s.now := by
  obtain ⟨m, o, only⟩ := h.only
  rw [only]

end Issued

/-! ## The requests of an attempt -/

/-- The request of an attempt with the spare's position given (R14, R25, R26). -/
def State.qualAsked (s : State) (f : Nat) (kind : RequestKind) (strip : Nat) (buf : BufId) : Request :=
  { tag := none, position := f, kind := kind, address := (s.ses.qualArea.map (·.1)).getD 0 + strip * s.profile.l,
    blocks := s.profile.l, buf := buf, firstBlock := 0, owner := some .qualification, defers := 0, rewritten := false,
    deadline := none }

theorem State.qualRequest_eq {s : State} {f : Nat} (h : s.ses.failedPos = some f) (kind : RequestKind) (strip : Nat)
    (buf : BufId) : s.qualRequest kind strip buf = s.qualAsked f kind strip buf := by
  have hspare : s.spare = f := by rw [State.spare, h, Option.getD_some]
  rw [State.qualRequest, hspare]
  rfl

/-- A request of an attempt that has been submitted stands at the spare's position from then on. -/
theorem State.Submitted.asked {s u t v : State} {f strip : Nat} {kind : RequestKind} {buf : BufId}
    (h : State.Submitted (s.qualRequest kind strip buf) v u) (h' : u.Issued t) (hfailed : s.ses.failedPos = some f)
    (hf : f < v.mru.positions.length) : ∃ r ∈ (t.mru.pos f).live, r.work = s.qualAsked f kind strip buf := by
  rw [State.qualRequest_eq hfailed] at h
  exact h.exists_live h' hf

/-! ## An attempt or a read-back begun -/

section Begun

variable {s : State} {q : QualProgress}

theorem State.beginAttempt_kept (s : State) (q : QualProgress) :
    (s.beginAttempt q).mgp = s.mgp ∧ (s.beginAttempt q).now = s.now := by
  obtain ⟨m, o, e, p, only⟩ := (s.beginAttempt_stepped q).only
  rw [only]
  exact ⟨rfl, rfl⟩

/-- A read-back touches neither the buffer memory, nor the lanes, nor SBP, whether it is taken or held back. -/
theorem State.beginReadBack_frame (s : State) (q : QualProgress) :
    ∃ m o p, s.beginReadBack q = { s with mru := m, sent := o, ses := { s.ses with qualProgress := p } } := by
  cases h : s.mru.namesQuarantined s.ses.readBackBuf with
  | true =>
    rw [State.beginReadBack_of_named h]
    exact ⟨_, _, _, rfl⟩
  | false =>
    obtain ⟨m, o, only⟩ := (State.beginReadBack_submitted h q).only
    exact ⟨m, o, _, only⟩

theorem State.setProgress_same (h : s.ses.qualProgress = some q) : (s.setProgress q).ses = s.ses := by
  show ({ s.ses with qualProgress := some q } : Ses) = s.ses
  rw [← h]

/-- A fill that is held back already stays so while its buffer is named (R23). -/
theorem State.beginAttempt_ses_of_held (hq : s.ses.qualProgress = some q) (hheld : q.held = .fill)
    (h : s.mru.namesQuarantined s.ses.patternBuf = true) : (s.beginAttempt q).ses = s.ses := by
  rw [State.beginAttempt_of_named h, ← hheld]
  exact State.setProgress_same hq

/-- A read that is held back already stays so while its buffer is named (R23). -/
theorem State.beginReadBack_ses_of_held (hq : s.ses.qualProgress = some q) (hheld : q.held = .read)
    (h : s.mru.namesQuarantined s.ses.readBackBuf = true) : (s.beginReadBack q).ses = s.ses := by
  rw [State.beginReadBack_of_named h, ← hheld]
  exact State.setProgress_same hq

end Begun

/-! ## The outcome of an attempt (R27) -/

section Outcome

variable {s : State} {q : QualProgress}

theorem State.attemptOutcome_next (h : q.strip + 1 < s.ses.stripCount) :
    s.attemptOutcome q true = s.beginAttempt { q with strip := q.strip + 1, attempt := 1 } := by
  rw [State.attemptOutcome, if_pos rfl, if_pos h]

theorem State.attemptOutcome_finished (h : s.ses.stripCount ≤ q.strip + 1) :
    s.attemptOutcome q true = s.finishQualification := by
  rw [State.attemptOutcome, if_pos rfl, if_neg (Nat.not_lt.2 h)]

theorem State.attemptOutcome_again (h : q.attempt < 5) :
    s.attemptOutcome q false = s.beginAttempt { q with attempt := q.attempt + 1 } := by
  rw [State.attemptOutcome, if_neg Bool.false_ne_true, if_pos h]

theorem State.attemptOutcome_failed (h : 5 ≤ q.attempt) :
    s.attemptOutcome q false = s.endSession .failed .qualMismatch := by
  rw [State.attemptOutcome, if_neg Bool.false_ne_true, if_neg (Nat.not_lt.2 h)]

/-- While it does not wait for buffers itself, a finished qualification leaves the session READY with nothing of its own. -/
theorem State.finishQualification_ready (h : ∀ w ∈ s.sbp.waiting, w.owner ≠ .qualification) :
    s.finishQualification.ses = { s.ses with state := .ready, qualSet := [], qualProgress := none } ∧
      Noted s s.finishQualification (Event.bit .stateChange ||| Event.bit .qualDone) := by
  set u := (s.returnSet s.ses.qualSet).updSes fun e => { e with qualSet := [], qualProgress := none }
  have hwork : u.LanesWorked u.scanBuffers := State.scanBuffers_lanesWorked h
  have hfinish : s.finishQualification = (u.scanBuffers.changeState .ready).setEvent .qualDone := rfl
  rw [hfinish]
  generalize u.scanBuffers = v at hwork
  obtain ⟨m, o, l, k, b, rfl⟩ := hwork.only
  exact ⟨rfl, Noted.after (.of_mgp rfl) ((State.changeState_noted .ready _).trans (State.setEvent_noted .qualDone _))⟩

theorem State.settleQualification_writing (h : s.ses.qualProgress = some q) (hp : q.phase = .writing) (o : Settlement) :
    s.settleQualification o = s.beginReadBack q := by
  simp [State.settleQualification, h, hp]

theorem State.settleQualification_reading (h : s.ses.qualProgress = some q) (hp : q.phase = .reading) (o : Settlement) :
    s.settleQualification o = s.attemptOutcome q (s.attemptPasses o) := by
  simp [State.settleQualification, h, hp]

theorem State.settle_qualification {r : Request} (h : r.owner = some .qualification) (o : Settlement) :
    s.settle r o = s.settleQualification o := by
  simp [State.settle, h]

theorem State.attemptPasses_of_ne {o : Settlement} (h : o ≠ .good) : s.attemptPasses o = false := by
  simp [State.attemptPasses, h]

theorem State.attemptPasses_good : s.attemptPasses .good = s.readBackMatches := by simp [State.attemptPasses]

end Outcome

/-! ## Completions (R142 to R146) -/

/-- A completion is eight mask bytes long, whatever the mask (R209). -/
theorem exec_completion (tag status position : Byte) (mask : Mask) (data : List Byte) (s : State) :
    exec (.completion tag status position (bytes64 mask) data) s =
      .next (s.beginEvent.takeCompletion tag.toNat status (BitVec.ofNat 64 (leNat (bytes64 mask))) data) :=
  execCompletion_of_mask (mask := bytes64 mask) (by simp [bytes64]) tag status position data s

/-- A request has left the outstanding set, with the bytes its completion brings in the buffer memory; nothing has joined or left
the quarantine. -/
structure State.RequestLeft (r : Request) (data : List Byte) (s t : State) : Prop where
  only : ∃ m, t = { s with mru := m, mem := (s.landData r data).mem }
  quarantined : t.mru.quarantined = s.mru.quarantined
  length : t.mru.positions.length = s.mru.positions.length

theorem State.landData_eq (r : Request) (data : List Byte) (s : State) :
    s.landData r data = { s with mem := (s.landData r data).mem } := by
  unfold State.landData
  split <;> rfl

theorem State.landData_of_write {r : Request} (h : r.kind.isWrite = true) (data : List Byte) (s : State) :
    s.landData r data = s := if_pos h

theorem State.leaveOutstanding_left (r : Request) (data : List Byte) (tag : Nat) (s : State) :
    State.RequestLeft r data s ((s.landData r data).leaveOutstanding r.position tag) := by
  rw [s.landData_eq r data]
  exact ⟨⟨_, rfl⟩, rfl, Mru.length_updPos _ _ _⟩

theorem State.RequestLeft.setTimeouts {r : Request} {data : List Byte} {s t : State} (h : State.RequestLeft r data s t)
    (x count : Nat) : State.RequestLeft r data s (t.setTimeouts x count) := by
  obtain ⟨m, rfl⟩ := h.only
  exact ⟨⟨_, rfl⟩, h.quarantined, (Mru.length_updPos _ _ _).trans h.length⟩

theorem State.endWith_issued (x : Nat) (report : State → State) (s : State) : (report s).Issued (s.endWith x report) :=
  (State.serveTagWait_issued _).trans (State.decideAfterFree_issued x _)

theorem State.takeCompletion_of_outstanding {s : State} {tag : Nat} {status : Byte} {st : CompletionStatus} {r : Request}
    (hst : completionStatus status = some st) (hr : s.mru.findOutstanding tag = some r) (mask : Mask) (data : List Byte) :
    s.takeCompletion tag status mask data =
      ((s.landData r data).leaveOutstanding r.position tag).completeRequest r st mask := by
  simp [State.takeCompletion, hst, hr]

theorem State.takeCompletion_of_quarantined {s : State} {tag : Nat} {status : Byte} {st : CompletionStatus} {r : Request}
    (hst : completionStatus status = some st) (hr : s.mru.findOutstanding tag = none)
    (hq : s.mru.findQuarantined tag = some r) (mask : Mask) (data : List Byte) :
    s.takeCompletion tag status mask data = (s.landData r data).endQuarantine tag := by
  simp [State.takeCompletion, hst, hr, hq]

/-- GOOD settles any request GOOD (R143). -/
theorem State.takeCompletion_good {s : State} {tag : Nat} {r : Request} (hr : s.mru.findOutstanding tag = some r)
    (mask : Mask) (data : List Byte) :
    ∃ v, State.RequestLeft r data s v ∧ (v.settle r .good).Issued (s.takeCompletion tag 1 mask data) := by
  rw [State.takeCompletion_of_outstanding (st := .good) rfl hr]
  simp only [State.completeRequest, State.completeGood]
  exact ⟨_, (s.leaveOutstanding_left r data tag).setTimeouts r.position 0, State.endWith_issued _ _ _⟩

/-- MEDIUM, and DEFER with no retry left, settle a read otherwise than GOOD (R144, R146). -/
theorem State.takeCompletion_bad {s : State} {tag : Nat} {status : Byte} {r : Request}
    (hr : s.mru.findOutstanding tag = some r) (hk : r.kind.isWrite = false)
    (hst : status = 2 ∨ (status = 3 ∧ 7 ≤ r.defers)) (mask : Mask) (data : List Byte) :
    ∃ v o, o ≠ .good ∧ State.RequestLeft r data s v ∧ (v.settle r o).Issued (s.takeCompletion tag status mask data) := by
  have hleft := s.leaveOutstanding_left r data tag
  rcases hst with rfl | ⟨rfl, hd⟩
  · rw [State.takeCompletion_of_outstanding (st := .medium) rfl hr]
    simp only [State.completeRequest, State.completeMedium, hk, Bool.not_false, if_true]
    exact ⟨_, _, by simp, hleft.setTimeouts r.position 0, State.endWith_issued _ _ _⟩
  · rw [State.takeCompletion_of_outstanding (st := .defer) rfl hr]
    simp only [State.completeRequest, State.completeDefer, hk, Nat.not_lt.2 hd, if_false, Bool.false_eq_true]
    exact ⟨_, _, by simp, hleft, State.endWith_issued _ _ _⟩

/-! ## An attempt's requests settled -/

theorem Mru.namesQuarantined_congr {m m' : Mru} (h : m'.quarantined = m.quarantined) (buf : BufId) :
    m'.namesQuarantined buf = m.namesQuarantined buf := by
  rw [Mru.namesQuarantined, Mru.namesQuarantined, h]

/-- An attempt has begun at the strip and with the number given: its QWRITE is at the spare's position (R25). -/
def State.AttemptBegun (s t : State) (f strip attempt : Nat) : Prop :=
  t.ses = { s.ses with qualProgress := some { strip := strip, attempt := attempt, phase := .writing, held := .none } } ∧
    ∃ r ∈ (t.mru.pos f).live, r.work = s.qualAsked f .qwrite strip s.ses.patternBuf

theorem State.AttemptBegun.congr {s v t : State} {f strip attempt : Nat} (hses : v.ses = s.ses) (hgeo : v.geo = s.geo)
    (h : State.AttemptBegun v t f strip attempt) : State.AttemptBegun s t f strip attempt := by
  unfold State.AttemptBegun State.qualAsked State.profile at h ⊢
  rwa [hses, hgeo] at h

section Begin

variable {s t : State} {q : QualProgress} {f : Nat}

theorem State.beginAttempt_begun (hnamed : s.mru.namesQuarantined s.ses.patternBuf = false)
    (hfailed : s.ses.failedPos = some f) (hf : f < s.mru.positions.length) (h : (s.beginAttempt q).Issued t) :
    State.AttemptBegun s t f q.strip q.attempt ∧ t.mgp = s.mgp ∧ t.mem = (s.beginAttempt q).mem :=
  ⟨⟨h.ses.trans (State.beginAttempt_ses hnamed q), (State.beginAttempt_submitted hnamed q).asked h hfailed hf⟩,
    h.mgp.trans (s.beginAttempt_kept q).1, h.mem⟩

theorem State.beginReadBack_begun (hnamed : s.mru.namesQuarantined s.ses.readBackBuf = false)
    (hfailed : s.ses.failedPos = some f) (hf : f < s.mru.positions.length) (h : (s.beginReadBack q).Issued t) :
    t.ses = { s.ses with qualProgress := some { q with phase := .reading, held := .none } } ∧
      ∃ r ∈ (t.mru.pos f).live, r.work = s.qualAsked f .qread q.strip s.ses.readBackBuf :=
  ⟨h.ses.trans (State.beginReadBack_ses hnamed q), (State.beginReadBack_submitted hnamed q).asked h hfailed hf⟩

end Begin

/-- A completed QWRITE begins the read-back of its attempt (R26). -/
theorem State.takeCompletion_written {s : State} {tag : Nat} {r : Request} {q : QualProgress}
    (hr : s.mru.findOutstanding tag = some r) (howner : r.owner = some .qualification) (hq : s.ses.qualProgress = some q)
    (hp : q.phase = .writing) (mask : Mask) (data : List Byte) :
    ∃ v, State.RequestLeft r data s v ∧ (v.beginReadBack q).Issued (s.takeCompletion tag 1 mask data) := by
  obtain ⟨v, hleft, hissued⟩ := State.takeCompletion_good hr mask data
  refine ⟨v, hleft, ?_⟩
  have hvq : v.ses.qualProgress = some q := by
    obtain ⟨m, rfl⟩ := hleft.only
    exact hq
  rwa [State.settle_qualification howner, State.settleQualification_writing hvq hp] at hissued

section Read

variable {s : State} {tag : Nat} {r : Request} {q : QualProgress} (hr : s.mru.findOutstanding tag = some r)
  (howner : r.owner = some .qualification) (hq : s.ses.qualProgress = some q) (hp : q.phase = .reading)

include hr howner hq hp

/-- A GOOD read-back decides its attempt by the comparison of the buffers, with the bytes read in place (R26). -/
theorem State.takeCompletion_readBack (mask : Mask) (data : List Byte) :
    ∃ v, State.RequestLeft r data s v ∧
      (v.attemptOutcome q (s.landData r data).readBackMatches).Issued (s.takeCompletion tag 1 mask data) := by
  obtain ⟨v, hleft, hissued⟩ := State.takeCompletion_good hr mask data
  refine ⟨v, hleft, ?_⟩
  have hmatches : v.readBackMatches = (s.landData r data).readBackMatches := by
    obtain ⟨m, rfl⟩ := hleft.only
    exact (congrArg State.readBackMatches (s.landData_eq r data)).symm
  have hvq : v.ses.qualProgress = some q := by
    obtain ⟨m, rfl⟩ := hleft.only
    exact hq
  rwa [State.settle_qualification howner, State.settleQualification_reading hvq hp, State.attemptPasses_good,
    hmatches] at hissued

/-- A read-back that is not GOOD fails its attempt (R27). -/
theorem State.takeCompletion_readFailed {status : Byte} (hk : r.kind.isWrite = false)
    (hst : status = 2 ∨ (status = 3 ∧ 7 ≤ r.defers)) (mask : Mask) (data : List Byte) :
    ∃ v, State.RequestLeft r data s v ∧ (v.attemptOutcome q false).Issued (s.takeCompletion tag status mask data) := by
  obtain ⟨v, o, ho, hleft, hissued⟩ := State.takeCompletion_bad hr hk hst mask data
  refine ⟨v, hleft, ?_⟩
  have hvq : v.ses.qualProgress = some q := by
    obtain ⟨m, rfl⟩ := hleft.only
    exact hq
  rwa [State.settle_qualification howner, State.settleQualification_reading hvq hp, State.attemptPasses_of_ne ho] at hissued

end Read

/-! ## Timeouts (R149) -/

/-- A request has timed out: it has joined the quarantine, and MEMBER_TIMEOUT is set. -/
structure State.TimedOut (r : Request) (s t : State) : Prop where
  only : ∃ m, t = ({ s with mru := m } : State).setEvent .memberTimeout
  quarantined : t.mru.quarantined = s.mru.quarantined ++ [r.quarantine (s.now + s.mru.timeout)]
  length : t.mru.positions.length = s.mru.positions.length

/-- Steps 1 and 2 of R149: the request leaves the outstanding set for the quarantine, and its position counts the timeout. -/
def State.timedOut (r : Request) (tag : Nat) (s : State) : State :=
  (((s.leaveOutstanding r.position tag).updMru fun m =>
      { m with quarantined := m.quarantined ++ [r.quarantine (s.now + m.timeout)] }).setEvent .memberTimeout).setTimeouts
    r.position (min 3 ((s.mru.pos r.position).timeouts + 1))

theorem State.timedOut_timedOut (r : Request) (tag : Nat) (s : State) : State.TimedOut r s (s.timedOut r tag) := by
  refine ⟨⟨(s.timedOut r tag).mru, rfl⟩, rfl, ?_⟩
  have hleft : (s.leaveOutstanding r.position tag).mru.positions.length = s.mru.positions.length := Mru.length_updPos _ _ _
  exact (Mru.length_updPos _ _ _).trans hleft

/-- A read that times out settles MISSING, unless its position has timed out three times in a row (R149, R150). -/
theorem State.timeOut_read {s : State} {r : Request} (hk : r.kind.isWrite = false)
    (hcount : (s.mru.pos r.position).timeouts + 1 < 3) (tag : Nat) :
    ((s.timedOut r tag).settle r .missing).Issued (s.timeOut r tag) := by
  have hmin : min 3 ((s.mru.pos r.position).timeouts + 1) < 3 := by omega
  have htimeOut : s.timeOut r tag =
      (if min 3 ((s.mru.pos r.position).timeouts + 1) < 3 then (s.timedOut r tag).serveTimedOut r
        else (s.timedOut r tag).takeFault r.position).issueDecision r.position := rfl
  rw [htimeOut, if_pos hmin, State.serveTimedOut, hk, if_neg Bool.false_ne_true]
  exact (State.issueDecision_issuedAt _ _).issued

/-! ## The end of a quarantine (R152) -/

/-- The request with the tag has left the quarantine, and SBP has served lanes. -/
structure State.QuarantineLeft (tag : Nat) (s t : State) : Prop where
  only : ∃ m o l k b, t = { s with mru := m, sent := o, lanes := l, slk := k, sbp := b }
  quarantined : t.mru.quarantined = s.mru.quarantined.filter fun r => r.tag != some tag
  length : t.mru.positions.length = s.mru.positions.length

/-- When a quarantine ends, a step of qualification that was held back is taken or stays held back (R23, R152). -/
theorem State.endQuarantine_resumes {s : State} (h : ∀ w ∈ s.sbp.waiting, w.owner ≠ .qualification) (tag : Nat) :
    ∃ v, State.QuarantineLeft tag s v ∧ v.resumeHeldStep.Issued (s.endQuarantine tag) := by
  set u := (s.removeQuarantined tag).releaseHold
  have hwork : u.LanesWorked u.scanBuffers := State.scanBuffers_lanesWorked h
  refine ⟨u.scanBuffers, ⟨?_, hwork.quarantined, hwork.length⟩,
    (State.serveTagWait_issued _).trans (State.decideAll_issued _)⟩
  obtain ⟨m, o, l, k, b, only⟩ := hwork.only
  exact ⟨m, o, l, k, b, only⟩

section Resume

variable {s : State} {q : QualProgress} (h : s.ses.qualProgress = some q)

include h

theorem State.resumeHeldStep_none (hheld : q.held = .none) : s.resumeHeldStep = s := by
  simp [State.resumeHeldStep, h, hheld]

theorem State.resumeHeldStep_fill (hheld : q.held = .fill) : s.resumeHeldStep = s.beginAttempt q := by
  simp [State.resumeHeldStep, h, hheld]

theorem State.resumeHeldStep_read (hheld : q.held = .read) : s.resumeHeldStep = s.beginReadBack q := by
  simp [State.resumeHeldStep, h, hheld]

end Resume

theorem completionStatus_of_range {status : Byte} (h : 1 ≤ status.toNat) (h' : status.toNat ≤ 4) :
    ∃ st, completionStatus status = some st := by
  have hcases : status = 1 ∨ status = 2 ∨ status = 3 ∨ status = 4 := by bv_omega
  rcases hcases with rfl | rfl | rfl | rfl
  · exact ⟨.good, rfl⟩
  · exact ⟨.medium, rfl⟩
  · exact ⟨.defer, rfl⟩
  · exact ⟨.lost, rfl⟩

/-- A time row whose event stands is taken at the event's time (log 3). -/
theorem State.takeTimeEvent_of_standing {s : State} {e : TimeEvent} {d : Nat} (h : s.mru.standing e = some d) :
    s.takeTimeEvent e = ({ s with now := max s.now d, sent := [] } : State).runTimeEvent e := by
  unfold State.takeTimeEvent
  rw [h]
  rfl

/-- A late completion and the deadline both end the quarantine of the request with the tag (R152). -/
theorem exec_quarantineEnds {tag status position : Byte} {mask : Mask} {data : List Byte} {s : State} {i : Instr} {now : Nat}
    (h : (i = .completion tag status position (bytes64 mask) data ∧ 1 ≤ status.toNat ∧ status.toNat ≤ 4 ∧ now = s.now ∧
        s.mru.findOutstanding tag.toNat = none ∧ s.mru.findQuarantined tag.toNat ≠ none) ∨
      (i = .quarantineEnd tag ∧ ∃ d, s.mru.standing (.quarantineEnd tag.toNat) = some d ∧ now = max s.now d)) :
    ∃ mem, exec i s = .next (({ s with mem := mem, now := now, sent := [] } : State).endQuarantine tag.toNat) := by
  rcases h with ⟨rfl, hmin, hmax, rfl, hout, hquar⟩ | ⟨rfl, d, hd, rfl⟩
  · obtain ⟨st, hst⟩ := completionStatus_of_range hmin hmax
    obtain ⟨r, hr⟩ := Option.ne_none_iff_exists'.1 hquar
    refine ⟨(s.beginEvent.landData r data).mem, ?_⟩
    rw [exec_completion, State.takeCompletion_of_quarantined (s := s.beginEvent) hst hout hr, State.landData_eq]
    rfl
  · exact ⟨s.mem, congrArg Host.Outcome.next (State.takeTimeEvent_of_standing hd)⟩

/-! ## The statements of O51, one by one -/

section Attempt

variable {s t : State} {q : QualProgress} {f : Nat}

/-- What an attempt puts behind the spare's requests (R25). -/
theorem State.beginAttempt_works (hfailed : s.ses.failedPos = some f) (hf : f < s.mru.positions.length)
    (hnamed : s.mru.namesQuarantined s.ses.patternBuf = false) :
    ((s.beginAttempt q).mru.pos f).works = (s.mru.pos f).works ++ [s.qualAsked f .qwrite q.strip s.ses.patternBuf] := by
  have h := State.beginAttempt_submitted hnamed q
  rw [State.qualRequest_eq hfailed] at h
  exact h.works hf

variable {v : State} {r : Request} {data : List Byte}

/-- An attempt that begins when a request has left MRU sets no event. -/
theorem State.RequestLeft.begun (h : State.RequestLeft r data s v) (hfailed : s.ses.failedPos = some f)
    (hf : f < s.mru.positions.length) (hnamed : s.mru.namesQuarantined s.ses.patternBuf = false)
    (h' : (v.beginAttempt q).Issued t) : EventsKept s t ∧ State.AttemptBegun s t f q.strip q.attempt := by
  have hvnamed := (Mru.namesQuarantined_congr h.quarantined s.ses.patternBuf).trans hnamed
  rw [← h.length] at hf
  obtain ⟨m, rfl⟩ := h.only
  obtain ⟨hbegun, hmgp, -⟩ := State.beginAttempt_begun hvnamed hfailed hf h'
  exact ⟨.of_mgp hmgp, hbegun⟩

/-- A read-back that begins, or is held back, when a write has left MRU: what stays, and what becomes of the progress. -/
theorem State.RequestLeft.readBegun (h : State.RequestLeft r data s v) (hk : r.kind.isWrite = true)
    (hfailed : s.ses.failedPos = some f) (hf : f < s.mru.positions.length) (h' : (v.beginReadBack q).Issued t) :
    EventsKept s t ∧ t.mem = s.mem ∧ t.lanes = s.lanes ∧ t.sbp = s.sbp ∧
      (s.mru.namesQuarantined s.ses.readBackBuf = false →
        t.ses = { s.ses with qualProgress := some { q with phase := .reading, held := .none } } ∧
        ∃ r' ∈ (t.mru.pos f).live, r'.work = s.qualAsked f .qread q.strip s.ses.readBackBuf) ∧
      (s.mru.namesQuarantined s.ses.readBackBuf = true →
        t.ses = { s.ses with qualProgress := some { q with held := .read } }) := by
  have hnamed := Mru.namesQuarantined_congr h.quarantined s.ses.readBackBuf
  rw [← h.length] at hf
  obtain ⟨m, hv⟩ := h.only
  rw [State.landData_of_write hk] at hv
  subst hv
  have hframe : EventsKept s t ∧ t.mem = s.mem ∧ t.lanes = s.lanes ∧ t.sbp = s.sbp := by
    obtain ⟨m₁, o₁, rfl⟩ := h'.only
    obtain ⟨m₂, o₂, p, hbegin⟩ := State.beginReadBack_frame { s with mru := m } q
    rw [hbegin]
    exact ⟨.of_mgp rfl, rfl, rfl, rfl⟩
  obtain ⟨hevents, hmem, hlanes, hsbp⟩ := hframe
  refine ⟨hevents, hmem, hlanes, hsbp, fun hfree => ?_, fun hheld => ?_⟩
  · exact State.beginReadBack_begun (s := { s with mru := m }) (hnamed.trans hfree) hfailed hf h'
  · rw [State.beginReadBack_of_named (s := { s with mru := m }) (hnamed.trans hheld)] at h'
    exact h'.ses

/-- The fifth failed attempt ends the session (R27). -/
theorem State.attemptOutcome_ends (hattempt : 5 ≤ q.attempt) (h : (v.attemptOutcome q false).Issued t) :
    t.ses.state = .failed ∧ t.ses.cause = .qualMismatch ∧ Noted v t (Event.bit .stateChange) := by
  rw [State.attemptOutcome_failed hattempt] at h
  have hses := h.ses.trans (v.endSession_ses .failed .qualMismatch)
  exact ⟨congrArg (·.state) hses, congrArg (·.cause) hses,
    (v.endSession_noted .failed .qualMismatch).before (.of_mgp h.mgp)⟩

theorem State.RequestLeft.ses (h : State.RequestLeft r data s v) : v.ses = s.ses := by
  obtain ⟨m, rfl⟩ := h.only
  rfl

theorem State.RequestLeft.events (h : State.RequestLeft r data s v) : EventsKept s v := by
  obtain ⟨m, rfl⟩ := h.only
  exact .of_mgp rfl

/-- A qualification whose last strip has passed leaves the session READY (R27). -/
theorem State.RequestLeft.finished (h : State.RequestLeft r data s v) (hcount : s.ses.stripCount ≤ q.strip + 1)
    (hwait : ∀ w ∈ s.sbp.waiting, w.owner ≠ .qualification) (h' : (v.attemptOutcome q true).Issued t) :
    t.ses.state = .ready ∧ t.ses.qualProgress = none ∧ t.ses.qualSet = [] ∧
      Noted s t (Event.bit .stateChange ||| Event.bit .qualDone) := by
  have hevents := h.events
  obtain ⟨m, rfl⟩ := h.only
  rw [State.attemptOutcome_finished (s := { s with mru := m, mem := (s.landData r data).mem }) hcount] at h'
  obtain ⟨hses, hnoted⟩ := State.finishQualification_ready (s := { s with mru := m, mem := (s.landData r data).mem }) hwait
  rw [← h'.ses] at hses
  rw [hses]
  exact ⟨rfl, rfl, rfl, .after hevents (hnoted.before (.of_mgp h'.mgp))⟩

/-- An attempt that begins when a read-back has timed out notes the timeout. -/
theorem State.TimedOut.begun (h : State.TimedOut r s v) (hfailed : s.ses.failedPos = some f)
    (hf : f < s.mru.positions.length) (hnamed : s.mru.namesQuarantined s.ses.patternBuf = false)
    (hbuf : r.buf ≠ s.ses.patternBuf) (h' : (v.beginAttempt q).Issued t) :
    Noted s t (Event.bit .memberTimeout) ∧ State.AttemptBegun s t f q.strip q.attempt := by
  have hvnamed : v.mru.namesQuarantined s.ses.patternBuf = false := by
    unfold Mru.namesQuarantined at hnamed ⊢
    rw [h.quarantined, List.any_append, hnamed, Bool.false_or]
    simpa [Request.quarantine] using hbuf
  rw [← h.length] at hf
  obtain ⟨m, rfl⟩ := h.only
  obtain ⟨hbegun, hmgp, -⟩ := State.beginAttempt_begun hvnamed hfailed hf h'
  exact ⟨.before (State.setEvent_noted .memberTimeout { s with mru := m }) (.of_mgp hmgp), hbegun⟩

end Attempt

/-- Whether a step of qualification is taken or stays held back at the end of a quarantine, by what is named from then on (R23,
R152). -/
theorem State.QuarantineLeft.resumed {s v t : State} {q : QualProgress} {tag f : Nat} (h : State.QuarantineLeft tag s v)
    (hq : s.ses.qualProgress = some q) (hfailed : s.ses.failedPos = some f) (hf : f < s.mru.positions.length)
    (h' : v.resumeHeldStep.Issued t) :
    let still := fun (buf : BufId) => (s.mru.quarantined.filter fun r => r.tag != some tag).any fun r => r.buf == buf
    t.now = s.now ∧
      (q.held = .none ∨ (q.held = .fill ∧ still s.ses.patternBuf = true) ∨ (q.held = .read ∧ still s.ses.readBackBuf = true) →
        t.ses = s.ses) ∧
      (q.held = .fill → still s.ses.patternBuf = false → State.AttemptBegun s t f q.strip q.attempt ∧
        ∀ j i, j < s.profile.l → i < 4096 →
          t.mem.read (s.ses.patternBuf.val * 262144 + j * 4096 + i) = BitVec.ofNat 8 (i + 7 * j + 31 * q.strip)) ∧
      (q.held = .read → still s.ses.readBackBuf = false →
        t.ses = { s.ses with qualProgress := some { q with phase := .reading, held := .none } } ∧
        ∃ r' ∈ (t.mru.pos f).live, r'.work = s.qualAsked f .qread q.strip s.ses.readBackBuf) := by
  intro still
  have hnamed (buf : BufId) : v.mru.namesQuarantined buf = still buf := by rw [Mru.namesQuarantined, h.quarantined]
  have hnow : v.resumeHeldStep.now = v.now := v.resumeHeldStep_only.rebuild.2.1
  rw [← h.length] at hf
  obtain ⟨m, o, l, k, b, hv⟩ := h.only
  have hvses : v.ses = s.ses := by rw [hv]
  have hvnow : v.now = s.now := by rw [hv]
  have hvgeo : v.geo = s.geo := by rw [hv]
  have hvasked (kind : RequestKind) (buf : BufId) : v.qualAsked f kind q.strip buf = s.qualAsked f kind q.strip buf := by
    rw [hv]
    rfl
  clear hv h
  rw [← hvses] at hq hfailed ⊢
  refine ⟨(h'.now.trans hnow).trans hvnow, ?_, fun hheld hfree => ?_, fun hheld hfree => ?_⟩
  · rintro (hheld | ⟨hheld, hstill⟩ | ⟨hheld, hstill⟩)
    · rw [State.resumeHeldStep_none hq hheld] at h'
      exact h'.ses
    · rw [State.resumeHeldStep_fill hq hheld] at h'
      exact h'.ses.trans (State.beginAttempt_ses_of_held hq hheld ((hnamed _).trans hstill))
    · rw [State.resumeHeldStep_read hq hheld] at h'
      exact h'.ses.trans (State.beginReadBack_ses_of_held hq hheld ((hnamed _).trans hstill))
  · rw [State.resumeHeldStep_fill hq hheld] at h'
    have hfree' := (hnamed _).trans hfree
    obtain ⟨hbegun, -, hmem⟩ := State.beginAttempt_begun hfree' hfailed hf h'
    have hprofile : v.profile = s.profile := by rw [State.profile, hvgeo, State.profile]
    refine ⟨hbegun.congr hvses hvgeo, fun j i hj hi => ?_⟩
    rw [hmem]
    exact State.read_beginAttempt hfree' q (hprofile ▸ hj) hi
  · rw [State.resumeHeldStep_read hq hheld] at h'
    obtain ⟨hses, hasked⟩ := State.beginReadBack_begun ((hnamed _).trans hfree) hfailed hf h'
    rw [hvasked] at hasked
    exact ⟨hses, hasked⟩

/-- The comparison of the buffers does not see what has been sent. -/
theorem State.landData_beginEvent (r : Request) (data : List Byte) (s : State) :
    (s.beginEvent.landData r data).readBackMatches = (s.landData r data).readBackMatches := by
  unfold State.landData
  split <;> rfl

section Exec

variable {s : State} {r : Request} {q : QualProgress} {tag : Byte} (hr : s.mru.findOutstanding tag.toNat = some r)
  (ho : r.owner = some .qualification) (hq : s.ses.qualProgress = some q) (hp : q.phase = .reading)

include hr ho hq hp

/-- A QREAD completed GOOD decides its attempt by the comparison of the buffers (R26). -/
theorem exec_qreadGood (position : Byte) (mask : Mask) (data : List Byte) :
    ∃ t v, exec (.completion tag 1 position (bytes64 mask) data) s = .next t ∧ State.RequestLeft r data s.beginEvent v ∧
      (v.attemptOutcome q (s.landData r data).readBackMatches).Issued t := by
  obtain ⟨v, hleft, hissued⟩ :=
    State.takeCompletion_readBack (s := s.beginEvent) hr ho hq hp (BitVec.ofNat 64 (leNat (bytes64 mask))) data
  rw [State.landData_beginEvent] at hissued
  exact ⟨_, v, exec_completion _ _ _ _ _ _, hleft, hissued⟩

/-- A QREAD completed MEDIUM, or deferred with no retry left, fails its attempt (R27). -/
theorem exec_qreadBad (hk : r.kind = .qread) {status : Byte} (hst : status = 2 ∨ (status = 3 ∧ 7 ≤ r.defers))
    (position : Byte) (mask : Mask) (data : List Byte) :
    ∃ t v, exec (.completion tag status position (bytes64 mask) data) s = .next t ∧
      State.RequestLeft r data s.beginEvent v ∧ (v.attemptOutcome q false).Issued t := by
  obtain ⟨v, hleft, hissued⟩ := State.takeCompletion_readFailed (s := s.beginEvent) hr ho hq hp (by rw [hk]; rfl) hst
    (BitVec.ofNat 64 (leNat (bytes64 mask))) data
  exact ⟨_, v, exec_completion _ _ _ _ _ _, hleft, hissued⟩

/-- A QREAD that times out fails its attempt (R149). -/
theorem exec_qreadTimedOut (hk : r.kind = .qread) {d : Nat} (hd : s.mru.standing (.timeout tag.toNat) = some d)
    (hcount : (s.mru.pos r.position).timeouts + 1 < 3) :
    ∃ t v, exec (.timeout tag) s = .next t ∧ State.TimedOut r { s with now := max s.now d, sent := [] } v ∧
      (v.attemptOutcome q false).Issued t := by
  set u : State := { s with now := max s.now d, sent := [] }
  have htimedOut := u.timedOut_timedOut r tag.toNat
  have hissued := State.timeOut_read (s := u) (r := r) (by rw [hk]; rfl) hcount tag.toNat
  have hexec : exec (.timeout tag) s = .next (u.timeOut r tag.toNat) := by
    refine (congrArg Host.Outcome.next (State.takeTimeEvent_of_standing hd)).trans ?_
    have hfound : u.mru.findOutstanding tag.toNat = some r := hr
    rw [State.runTimeEvent, hfound]
  generalize u.timedOut r tag.toNat = v at htimedOut hissued
  have hvq : v.ses.qualProgress = some q := by
    obtain ⟨m, rfl⟩ := htimedOut.only
    exact hq
  rw [State.settle_qualification ho, State.settleQualification_reading hvq hp, State.attemptPasses_of_ne (by simp)] at hissued
  exact ⟨_, v, hexec, htimedOut, hissued⟩

end Exec

theorem State.TimedOut.noted {r : Request} {s v : State} (h : State.TimedOut r s v) : Noted s v (Event.bit .memberTimeout) := by
  obtain ⟨m, rfl⟩ := h.only
  exact State.setEvent_noted .memberTimeout { s with mru := m }

/-- Settles O51: the fill, the write, the comparison, and then what each settlement and each end of a quarantine decides. -/
theorem qualificationAttempts : Obligations.QualificationAttempts := by
  unfold Obligations.QualificationAttempts
  intro asked
  refine ⟨fun s q j i hnamed hj hi => State.read_beginAttempt hnamed q hj hi, fun s q f hfailed hf hlen hnamed => ?_,
    fun s hwf => State.readBackMatches_iff hwf, ?_, ?_, ?_, ?_⟩
  · exact ⟨State.beginAttempt_ses hnamed q, State.beginAttempt_works hfailed (hlen ▸ hf) hnamed⟩
  · intro tag position mask data s r q f hr hk ho hq hp hfailed hf hlen
    obtain ⟨v, hleft, hissued⟩ :=
      State.takeCompletion_written (s := s.beginEvent) hr ho hq hp (BitVec.ofNat 64 (leNat (bytes64 mask))) data
    have hread := hleft.readBegun (by rw [hk]; rfl) hfailed (hlen ▸ hf) hissued
    exact ⟨_, exec_completion _ _ _ _ _ _, hread⟩
  · intro tag status position mask data s r q f hr hk ho hq hp hnamed hwait hfailed hf hlen equal fails done begun
    have hpass (hst : status = 1) (heq : equal) :
        ∃ t v, done = .next t ∧ State.RequestLeft r data s.beginEvent v ∧ (v.attemptOutcome q true).Issued t := by
      subst hst
      rw [← show (s.landData r data).readBackMatches = true from heq]
      exact exec_qreadGood hr ho hq hp position mask data
    have hfail (h : fails) :
        ∃ t v, done = .next t ∧ State.RequestLeft r data s.beginEvent v ∧ (v.attemptOutcome q false).Issued t := by
      rcases h with ⟨hst, hne⟩ | hst
      · subst hst
        rw [← show (s.landData r data).readBackMatches = false from Bool.eq_false_iff.2 hne]
        exact exec_qreadGood hr ho hq hp position mask data
      · exact exec_qreadBad hr ho hq hp hk hst position mask data
    refine ⟨fun hst heq hcount => ?_, fun hst heq hcount => ?_, fun h hattempt => ?_, fun h hattempt => ?_⟩
    · obtain ⟨t, v, hdone, hleft, hissued⟩ := hpass hst heq
      rw [State.attemptOutcome_next (by rw [hleft.ses]; exact hcount)] at hissued
      obtain ⟨hevents, hbegun⟩ := hleft.begun hfailed (hlen ▸ hf) hnamed hissued
      exact ⟨t, hdone, hevents, hbegun⟩
    · obtain ⟨t, v, hdone, hleft, hissued⟩ := hpass hst heq
      exact ⟨t, hdone, hleft.finished hcount hwait hissued⟩
    · obtain ⟨t, v, hdone, hleft, hissued⟩ := hfail h
      rw [State.attemptOutcome_again hattempt] at hissued
      obtain ⟨hevents, hbegun⟩ := hleft.begun hfailed (hlen ▸ hf) hnamed hissued
      exact ⟨t, hdone, hevents, hbegun⟩
    · obtain ⟨t, v, hdone, hleft, hissued⟩ := hfail h
      obtain ⟨hstate, hcause, hnoted⟩ := State.attemptOutcome_ends hattempt hissued
      exact ⟨t, hdone, hstate, hcause, .after hleft.events hnoted⟩
  · intro tag s r q d f hd hr hk ho _ hq hp hnamed hbuf hcount hfailed hf hlen
    obtain ⟨t, v, hexec, htimedOut, hissued⟩ := exec_qreadTimedOut hr ho hq hp hk hd hcount
    refine ⟨fun hattempt => ?_, fun hattempt => ?_⟩
    · rw [State.attemptOutcome_again hattempt] at hissued
      obtain ⟨hnoted, hbegun⟩ := htimedOut.begun hfailed (hlen ▸ hf) hnamed hbuf hissued
      exact ⟨t, hexec, hnoted, hbegun⟩
    · obtain ⟨hstate, hcause, hnoted⟩ := State.attemptOutcome_ends hattempt hissued
      exact ⟨t, hexec, hstate, hcause, htimedOut.noted.trans hnoted⟩
  · intro tag status position mask data s i now q f hi hq hwait hfailed hf hlen still
    obtain ⟨mem, hexec⟩ := exec_quarantineEnds hi
    obtain ⟨v, hleft, hissued⟩ :=
      State.endQuarantine_resumes (s := { s with mem := mem, now := now, sent := [] }) hwait tag.toNat
    obtain ⟨hnow, hheld, hfill, hread⟩ := hleft.resumed hq hfailed (hlen ▸ hf) hissued
    refine ⟨_, hexec, hnow, hheld, fun h hs => ?_, hread⟩
    obtain ⟨⟨hses, hasked⟩, hpattern⟩ := hfill h hs
    exact ⟨hses, hasked, hpattern⟩

end Sys2Proof.Machine
end

section
/-! The reports of a region and of the records: GET_REGION and LIST_RECORDS. -/

namespace Sys2Proof.Machine

/-! ## GET_REGION (R51) -/

theorem takeGetRegion_of_none {s : State} {region : Nat} (h : s.ses.state ≠ .absent) (hr : s.rgt.regions[region]? = none) :
    takeGetRegion region s = (s, .refuse .refusedRange) := by
  rw [takeGetRegion, if_neg h, hr]

/-- A region's queue position is given while it is STALE (R47). -/
theorem Rgt.queuePosition_of_region {g : Rgt} {region : Nat} {r : Region} (hr : g.regions[region]? = some r) :
    g.queuePosition region = if r.state = .stale then some (g.queue.idxOf region) else none := by
  simp [Rgt.queuePosition, Rgt.isStale, hr]

theorem takeGetRegion_of_region {s : State} {region : Nat} {r : Region} (h : s.ses.state ≠ .absent)
    (hr : s.rgt.regions[region]? = some r) :
    takeGetRegion region s =
      (s, .done (regionPayload r (if r.state = .stale then some (s.rgt.queue.idxOf region) else none))) := by
  rw [takeGetRegion, if_neg h, hr, ← Rgt.queuePosition_of_region hr]

/-! ## LIST_RECORDS (R185) -/

theorem takeListRecords_of_range {s : State} {first count : Nat} (h : s.ses.state ≠ .absent) (hc : count < 1 ∨ 8 < count) :
    takeListRecords first count s = (s, .refuse .refusedRange) := by
  rw [takeListRecords, if_neg h, if_pos hc]

/-- The page: how many records, whether more follow, and the records (R185). -/
def recordsPayload (count : Nat) (above : List Record) : List Byte :=
  leBytes 1 (min count above.length) ++ leBytes 1 (if count < above.length then 1 else 0) ++
    (above.take count).flatMap Record.bytes

theorem takeListRecords_of_count {s : State} {first count : Nat} (h : s.ses.state ≠ .absent) (hmin : 1 ≤ count)
    (hmax : count ≤ 8) :
    takeListRecords first count s =
      (s, .done (recordsPayload count (s.lrl.records.filter fun r => decide (first ≤ r.stripe)))) := by
  rw [takeListRecords, if_neg h, if_neg (by omega)]
  simp [recordsPayload, List.length_take]

/-- Settles O30: both reports run on a state that they leave as it was. -/
theorem regionAndRecordReports : Obligations.RegionAndRecordReports := by
  intro tag region first max s hs hopen range
  have hregion : (HostCommand.getRegion region.toNat).fits := region.isLt
  have hlist : (HostCommand.listRecords first.toNat max.toNat).fits := ⟨first.isLt, max.isLt⟩
  refine ⟨fun hr => ?_, fun r hr => ?_, fun hc => ?_, fun hmin hmax => ?_⟩
  · exact becomes_of_runCommand hs hregion tag (takeGetRegion_of_none (s := s.beginEvent) hopen hr)
  · exact becomes_of_runCommand hs hregion tag (takeGetRegion_of_region (s := s.beginEvent) hopen hr)
  · exact becomes_of_runCommand hs hlist tag (takeListRecords_of_range (s := s.beginEvent) hopen hc)
  · exact becomes_of_runCommand hs hlist tag (takeListRecords_of_count (s := s.beginEvent) hopen hmin hmax)

end Sys2Proof.Machine
end

section
/-! The next batch: which region it is taken from, and what handing it out leaves of RGT. -/

namespace Sys2Proof.Machine

/-! ## The next batch (R58, R59, R61) -/

/-- The region chosen so far is one of the regions examined, and none of them has a lower activation number. -/
def LowestOf (l : List (Nat × Region)) (best : Nat × Region) : Prop :=
  best ∈ l ∧ ∀ x ∈ l, best.2.activation.getD 0 ≤ x.2.activation.getD 0

theorem foldl_lowerActivation_cons (x : Nat × Region) (l : List (Nat × Region)) :
    ∃ best, l.foldl lowerActivation (some x) = some best ∧ LowestOf (x :: l) best := by
  induction l generalizing x with
  | nil => exact ⟨x, rfl, List.mem_cons_self, by simp⟩
  | cons y l ih =>
    rw [List.foldl_cons, lowerActivation]
    by_cases hlt : y.2.activation.getD 0 < x.2.activation.getD 0
    · rw [if_pos hlt]
      obtain ⟨best, hbest, hmem, hmin⟩ := ih y
      refine ⟨best, hbest, List.mem_cons_of_mem _ hmem, List.forall_mem_cons.2 ⟨?_, hmin⟩⟩
      exact (hmin y List.mem_cons_self).trans hlt.le
    · rw [if_neg hlt]
      obtain ⟨best, hbest, hmem, hmin⟩ := ih x
      obtain ⟨hx, hl⟩ := List.forall_mem_cons.1 hmin
      refine ⟨best, hbest, ?_, List.forall_mem_cons.2 ⟨hx, List.forall_mem_cons.2 ⟨hx.trans (Nat.not_lt.1 hlt), hl⟩⟩⟩
      rcases List.mem_cons.1 hmem with h | h
      · exact h ▸ List.mem_cons_self
      · exact List.mem_cons_of_mem _ (List.mem_cons_of_mem _ h)

/-- The regions of source 1, with their numbers: ACTIVE, with stripes left (R58). -/
def Rgt.activeRegions (g : Rgt) : List (Nat × Region) :=
  ((List.range g.regions.length).zip g.regions).filter fun x => x.2.hasStripesLeft

theorem Rgt.mem_activeRegions (g : Rgt) (n : Nat) (r : Region) :
    (n, r) ∈ g.activeRegions ↔ g.regions[n]? = some r ∧ r.state = .active ∧ r.issueMark < r.stripeCount := by
  have hzip : (n, r) ∈ (List.range g.regions.length).zip g.regions ↔ g.regions[n]? = some r := by
    rw [List.mem_iff_getElem?]
    constructor
    · rintro ⟨i, hi⟩
      obtain ⟨hn, hr⟩ := List.getElem?_zip_eq_some.1 hi
      obtain ⟨hlt, rfl⟩ := List.getElem?_eq_some_iff.1 hn
      rwa [List.getElem_range]
    · intro hr
      have hlt : n < g.regions.length := (List.getElem?_eq_some_iff.1 hr).1
      exact ⟨n, List.getElem?_zip_eq_some.2 ⟨List.getElem?_range hlt, hr⟩⟩
  simp only [Rgt.activeRegions, List.mem_filter, hzip, Region.hasStripesLeft, Bool.and_eq_true, beq_iff_eq, decide_eq_true_eq]

/-- Source 1 has no region (R58). -/
theorem Rgt.activeSource_of_none {g : Rgt} (h : g.activeRegions = []) : g.activeSource = none := by
  rw [Rgt.activeSource, ← Rgt.activeRegions, h]
  rfl

/-- Of the regions of source 1, the one with the lowest activation number (R58). -/
theorem Rgt.activeSource_of_mem {g : Rgt} {x : Nat × Region} (h : x ∈ g.activeRegions) :
    ∃ best, g.activeSource = some best.1 ∧ LowestOf g.activeRegions best := by
  rw [Rgt.activeSource, ← Rgt.activeRegions]
  obtain ⟨y, l, hl⟩ := List.exists_cons_of_ne_nil (List.ne_nil_of_mem h)
  obtain ⟨best, hbest, hlow⟩ := foldl_lowerActivation_cons y l
  rw [hl]
  exact ⟨best, congrArg (Option.map Prod.fst) hbest, hlow⟩

/-- The batch handed out of a region (R59). -/
theorem Rgt.takeBatch_of_region {g : Rgt} {region : Nat} {r : Region} (h : g.regions[region]? = some r) (rs b : Nat) :
    g.takeBatch rs b region =
      some ({ region := region, first := region * rs + r.issueMark, length := min b (r.stripeCount - r.issueMark) },
        { g with regions := g.regions.modify region fun x =>
            { x with issueMark := x.issueMark + min b (r.stripeCount - r.issueMark) } }) := by
  rw [Rgt.takeBatch, h]

theorem Rgt.nextBatch_of_activeSource {g : Rgt} {region : Nat} (h : g.activeSource = some region) (rs b : Nat) :
    g.nextBatch rs b = g.takeBatch rs b region := by
  simp [Rgt.nextBatch, Rgt.chooseRegion, h]

theorem Rgt.nextBatch_of_queue {g : Rgt} (h : g.activeSource = none) (rs b : Nat) :
    g.nextBatch rs b = g.queue.head?.bind fun region => (g.activate region).takeBatch rs b region := by
  cases hq : g.queue <;> simp [Rgt.nextBatch, Rgt.chooseRegion, h, hq]

/-- The first batch of a region that has just become ACTIVE (R58, R59). -/
theorem Rgt.takeBatch_activate {g : Rgt} {n : Nat} {r : Region} (h : g.regions[n]? = some r) (rs b : Nat) :
    (g.activate n).takeBatch rs b n = some ({ region := n, first := n * rs, length := min b r.stripeCount },
      { g with
        queue := g.queue.tail
        nextActivation := g.nextActivation.map (· + 1)
        regions := g.regions.modify n fun x =>
          { x with state := .active, activation := g.nextActivation, heat := 0, issueMark := min b r.stripeCount } }) := by
  have hactive : (g.activate n).regions[n]? =
      some { r with state := .active, activation := g.nextActivation, heat := 0, issueMark := 0 } := by
    simp [Rgt.activate, h]
  rw [Rgt.takeBatch_of_region hactive]
  simp [Rgt.activate, List.modify_modify_eq, Function.comp_def]

/-- Settles O25: source 1 has the region of lowest activation number, and source 2 is asked when it has none. -/
theorem nextBatchFromTwoSources : Obligations.NextBatchFromTwoSources := by
  intro g rs b left
  refine ⟨fun n r hr hleft => ?_, fun hnone => ⟨fun hq => ?_, fun n rest r hq hr => ?_⟩⟩
  · obtain ⟨⟨n', r'⟩, hsource, hmem, hlow⟩ := Rgt.activeSource_of_mem ((g.mem_activeRegions n r).2 ⟨hr, hleft⟩)
    obtain ⟨hr', hleft'⟩ := (g.mem_activeRegions n' r').1 hmem
    refine ⟨n', r', hr', hleft', hlow _ ((g.mem_activeRegions n r).2 ⟨hr, hleft⟩), ?_⟩
    rw [Rgt.nextBatch_of_activeSource hsource, Rgt.takeBatch_of_region hr']
  all_goals
    have hsource : g.activeSource = none := Rgt.activeSource_of_none <| List.eq_nil_iff_forall_not_mem.2 fun ⟨n, r⟩ hmem =>
      let ⟨hr, hleft⟩ := (g.mem_activeRegions n r).1 hmem
      hnone n r hr hleft
    rw [Rgt.nextBatch_of_queue hsource, hq]
  · rfl
  · exact (Rgt.takeBatch_activate hr rs b).trans (by rw [hq]; rfl)

end Sys2Proof.Machine
end

section
/-! The schedule queue and heat: PROMOTE, DEMOTE, and what a contribution of RTU makes of the regions. -/

namespace Sys2Proof.Machine

/-! ## PROMOTE and DEMOTE (R48, R49) -/

theorem Rgt.isStale_of_region {g : Rgt} {n : Nat} {r : Region} (h : g.regions[n]? = some r) :
    g.isStale n = true ↔ r.state = .stale := by
  simp [Rgt.isStale, h]

section Reorder

variable {s : State} {n : Nat} {r : Region}

theorem State.reorderProblem_of_range (h : s.ses.state.isOpen = true) (hn : s.rgt.regions.length ≤ n) :
    s.reorderProblem n = some (.refuse .refusedRange) := by
  simp [State.reorderProblem, h, hn]

theorem State.reorderProblem_of_region (h : s.ses.state.isOpen = true) (hr : s.rgt.regions[n]? = some r) :
    s.reorderProblem n = if r.state = .stale then none else some .notStale := by
  have hn : ¬s.rgt.regions.length ≤ n := Nat.not_le.2 (List.getElem?_eq_some_iff.1 hr).1
  by_cases hst : r.state = .stale
  · simp [State.reorderProblem, h, hn, hst, (Rgt.isStale_of_region hr).2 hst]
  · simp [State.reorderProblem, h, hn, hst, mt (Rgt.isStale_of_region hr).1 hst]

/-- A check of R48 that fails refuses both commands. -/
theorem reorder_of_problem {reply : Reply} (h : s.reorderProblem n = some reply) :
    takePromote n s = (s, reply) ∧ takeDemote n s = (s, reply) := by
  rw [takePromote, takeDemote, h]
  exact ⟨rfl, rfl⟩

/-- The schedule queue has a new order, and the region's heat is 0 (R48, R49). -/
def State.reordered (n : Nat) (queue : List Nat) (s : State) : State :=
  { s with rgt := { s.rgt with queue := queue, regions := s.rgt.regions.modify n fun r => { r with heat := 0 } } }

theorem takePromote_of_stale (h : s.reorderProblem n = none) :
    takePromote n s = (s.reordered n (n :: s.rgt.queue.filter (· != n)), .done [0, 0]) := by
  rw [takePromote, h]
  rfl

theorem takeDemote_of_stale (h : s.reorderProblem n = none) :
    takeDemote n s = (s.reordered n (s.rgt.queue.filter (· != n) ++ [n]),
      .done (leBytes 2 ((s.rgt.queue.filter (· != n) ++ [n]).length - 1))) := by
  rw [takeDemote, h]
  rfl

end Reorder

/-- At a ready port a check of R48 that fails is answered, whichever of the two commands it is. -/
theorem reorder_refused {tag region : BitVec 16} {s : State} {reply : Reply} (hs : s.HostReady)
    (h : s.beginEvent.reorderProblem region.toNat = some reply) (i : Instr)
    (hi : i = .promote tag region ∨ i = .demote tag region) : Becomes (exec i s) (s.respond tag reply) := by
  obtain ⟨hp, hd⟩ := reorder_of_problem h
  rcases hi with rfl | rfl
  · exact becomes_of_runCommand (c := .promote region.toNat) hs region.isLt tag hp
  · exact becomes_of_runCommand (c := .demote region.toNat) hs region.isLt tag hd

/-! ## A heat contribution (R52, R53) -/

/-- Each record that a list without repetitions names is changed once. -/
theorem getElem?_foldl_modify {l : List Nat} (hl : l.Nodup) (f : Region → Region) (regions : List Region) (r : Nat) :
    (l.foldl (fun rs n => rs.modify n f) regions)[r]? = if r ∈ l then regions[r]?.map f else regions[r]? := by
  induction l generalizing regions with
  | nil => simp
  | cons n rest ih =>
    obtain ⟨hn, hrest⟩ := List.nodup_cons.1 hl
    rw [List.foldl_cons, ih hrest, List.getElem?_modify]
    by_cases hr : n = r
    · subst hr
      simp [hn]
    · simp [hr, Ne.symm hr]

/-- A contribution touches the region, which is STALE (R52). -/
def gainsHeat (rs s1 s2 r : Nat) (x : Region) : Bool :=
  (decide (s1 / rs ≤ r) && decide (r ≤ s2 / rs)) && x.state == .stale

/-- The region gains heat and is then at H or above, with H at least 1 (R53). -/
def Rgt.turnsHot (g : Rgt) (rs s1 s2 r : Nat) (x : Region) : Bool :=
  gainsHeat rs s1 s2 r x && decide (1 ≤ g.heatThreshold) && decide (g.heatThreshold ≤ min 255 (x.heat + 1))

/-- The regions that gain heat, in ascending number (R52). -/
def Rgt.gained (g : Rgt) (rs s1 s2 : Nat) : List Nat := (touchedRegions rs s1 s2).filter g.isStale

/-- RGT after the gain of heat and before the hot promotion (R52). -/
def Rgt.warmed (g : Rgt) (rs s1 s2 : Nat) : Rgt :=
  { g with regions := (g.gained rs s1 s2).foldl (fun l r => l.modify r Region.warm) g.regions }

/-- The regions that the hot promotion moves (R53). -/
def Rgt.promoted (g : Rgt) (rs s1 s2 : Nat) : List Nat :=
  (g.gained rs s1 s2).filter fun r =>
    decide (1 ≤ g.heatThreshold) && (g.warmed rs s1 s2).regions[r]?.any fun x => decide (g.heatThreshold ≤ x.heat)

theorem Rgt.contribute_eq (g : Rgt) (rs s1 s2 : Nat) :
    g.contribute rs s1 s2 = { g with
      queue := g.promoted rs s1 s2 ++ g.queue.filter fun r => !(g.promoted rs s1 s2).contains r
      regions := (g.promoted rs s1 s2).foldl (fun l r => l.modify r fun x => { x with heat := 0 })
        (g.warmed rs s1 s2).regions } := rfl

section Contribution

variable {g : Rgt} {rs s1 s2 : Nat}

theorem Rgt.gained_ascending : (g.gained rs s1 s2).Pairwise (· < ·) := (List.pairwise_lt_range' _).filter _

theorem Rgt.promoted_ascending : (g.promoted rs s1 s2).Pairwise (· < ·) := Rgt.gained_ascending.filter _

theorem Rgt.mem_gained {r : Nat} {x : Region} (hs : s1 ≤ s2) (hx : g.regions[r]? = some x) :
    r ∈ g.gained rs s1 s2 ↔ gainsHeat rs s1 s2 r x = true := by
  have hle : s1 / rs ≤ s2 / rs := Nat.div_le_div_right hs
  have hend : s1 / rs + (s2 / rs + 1 - s1 / rs) = s2 / rs + 1 := by omega
  simp only [Rgt.gained, touchedRegions, List.mem_filter, List.mem_range'_1, hend, Nat.lt_succ_iff, Rgt.isStale, hx,
    Option.any_some, gainsHeat, Bool.and_eq_true, decide_eq_true_eq]

/-- Heat rises by 1 in the regions that gain it, and stays at 255 (R52). -/
theorem Rgt.warmed_region {r : Nat} {x : Region} (hs : s1 ≤ s2) (hx : g.regions[r]? = some x) :
    (g.warmed rs s1 s2).regions[r]? = some (if gainsHeat rs s1 s2 r x then x.warm else x) := by
  rw [Rgt.warmed, getElem?_foldl_modify (Rgt.gained_ascending.imp Nat.ne_of_lt), hx, if_congr (Rgt.mem_gained hs hx) rfl rfl]
  split <;> rfl

theorem Rgt.warmed_none {r : Nat} (hx : g.regions[r]? = none) : (g.warmed rs s1 s2).regions[r]? = none := by
  rw [Rgt.warmed, getElem?_foldl_modify (Rgt.gained_ascending.imp Nat.ne_of_lt), hx]
  split <;> rfl

/-- The regions moved are those that turn hot (R53). -/
theorem Rgt.mem_promoted {r : Nat} (hs : s1 ≤ s2) :
    r ∈ g.promoted rs s1 s2 ↔ ∃ x, g.regions[r]? = some x ∧ g.turnsHot rs s1 s2 r x = true := by
  rw [Rgt.promoted, List.mem_filter]
  cases hx : g.regions[r]? with
  | none => simp [Rgt.warmed_none hx]
  | some x =>
    rw [Rgt.mem_gained hs hx, Rgt.warmed_region hs hx]
    simp only [Option.some.injEq, exists_eq_left', Rgt.turnsHot, Bool.and_eq_true, and_assoc]
    refine and_congr_right fun hgain => ?_
    rw [if_pos hgain]
    rfl

/-- They move in ascending number (R53). -/
theorem Rgt.promoted_eq (hs : s1 ≤ s2) :
    g.promoted rs s1 s2 = (List.range g.regions.length).filter fun r => g.regions[r]?.any (g.turnsHot rs s1 s2 r) := by
  refine Rgt.promoted_ascending.eq_of_mem_iff (List.pairwise_lt_range.filter _) fun r => ?_
  rw [Rgt.mem_promoted hs, List.mem_filter, List.mem_range, Option.any_eq_true]
  exact ⟨fun ⟨x, hx, hhot⟩ => ⟨(List.getElem?_eq_some_iff.1 hx).1, x, hx, hhot⟩, And.right⟩

/-- A region moved has heat 0, and the others keep what they have gained (R52, R53). -/
theorem Rgt.contribute_region (hs : s1 ≤ s2) (r : Nat) :
    (g.contribute rs s1 s2).regions[r]? = g.regions[r]?.map fun x =>
      { x with heat := if g.turnsHot rs s1 s2 r x then 0
                       else if gainsHeat rs s1 s2 r x then min 255 (x.heat + 1) else x.heat } := by
  rw [Rgt.contribute_eq]
  dsimp only
  rw [getElem?_foldl_modify (Rgt.promoted_ascending.imp Nat.ne_of_lt), if_congr (Rgt.mem_promoted hs) rfl rfl]
  cases hx : g.regions[r]? with
  | none => simp [Rgt.warmed_none hx]
  | some x =>
    rw [Rgt.warmed_region hs hx]
    simp only [Option.some.injEq, exists_eq_left', Option.map_some]
    cases hgain : gainsHeat rs s1 s2 r x with
    | false => simp [Rgt.turnsHot, hgain]
    | true =>
      cases hhot : g.turnsHot rs s1 s2 r x <;> rfl

end Contribution

/-- Settles O24: the checks and the new order, and then what a contribution makes of the queue and of the regions. -/
theorem queueReordersAndHeatRises : Obligations.QueueReordersAndHeatRises := by
  constructor
  · intro tag region s hs hst n others cooled
    have hopen : s.beginEvent.ses.state.isOpen = true := (SessionState.isOpen_iff _).2 hst
    have hpromote : (HostCommand.promote region.toNat).fits := region.isLt
    have hdemote : (HostCommand.demote region.toNat).fits := region.isLt
    refine ⟨fun hn => reorder_refused hs (State.reorderProblem_of_range hopen hn), fun r hr => ⟨fun hstate => ?_, fun hstate => ?_⟩⟩
    · exact reorder_refused hs ((State.reorderProblem_of_region hopen hr).trans (if_neg hstate))
    · have hnone := (State.reorderProblem_of_region hopen hr).trans (if_pos hstate)
      exact ⟨becomes_of_runCommand hs hpromote tag (takePromote_of_stale hnone),
        becomes_of_runCommand hs hdemote tag (takeDemote_of_stale hnone)⟩
  · intro g rs s1 s2 _ hs t touched gains hot moved
    have hmoved : g.promoted rs s1 s2 = moved := Rgt.promoted_eq hs
    refine ⟨?_, Rgt.contribute_region hs, rfl, rfl, rfl, rfl⟩
    rw [← hmoved]
    exact congrArg Rgt.queue (g.contribute_eq rs s1 s2)

end Sys2Proof.Machine
end

section
/-! What grants and assignments change, whoever they go to: a lane, a claim or qualification. -/

namespace Sys2Proof.Machine

/-! ## What neither a grant nor an assignment touches -/

/-- The last outcomes of the lanes and the quarantine hold stay, and no held lock is given up. -/
structure State.PlacesKept (s t : State) : Prop where
  outcome : ∀ m : Fin 4, t.lanes[m].outcome = s.lanes[m].outcome
  hold : t.sbp.quarantineHold = s.sbp.quarantineHold
  held : ∀ e ∈ s.slk.held, e ∈ t.slk.held

theorem State.PlacesKept.refl (s : State) : s.PlacesKept s := ⟨fun _ => rfl, rfl, fun _ => id⟩

theorem State.PlacesKept.trans {s t u : State} (h : s.PlacesKept t) (h' : t.PlacesKept u) : s.PlacesKept u :=
  ⟨fun m => (h'.outcome m).trans (h.outcome m), h'.hold.trans h.hold, fun e he => h'.held e (h.held e he)⟩

/-! ## Grants -/

/-- Owners that satisfy p, and claims, may have been granted what they wait for. -/
structure State.Granted (p : Owner → Prop) (s t : State) : Prop where
  work : WorkOnly s t
  quarantined : t.mru.quarantined = s.mru.quarantined
  places : s.PlacesKept t
  locks : ∀ e ∈ t.slk.held, e ∈ s.slk.held ∨ e.owner.isClaim = true ∨ ∃ m, p (.lane m) ∧ e.owner = .lane m
  batch : ∀ m : Fin 4, t.lanes[m].batch = s.lanes[m].batch
  stage : ∀ m : Fin 4, s.lanes[m].stage ≠ .idle → t.lanes[m].stage ≠ .idle
  others : ∀ m : Fin 4, ¬p (.lane m) → t.lanes[m] = s.lanes[m]
  ses : ¬p .qualification → t.ses = s.ses

section Grants

variable {p : Owner → Prop}

theorem State.Granted.refl (s : State) : State.Granted p s s :=
  ⟨.refl s, rfl, .refl s, fun _ => .inl, fun _ => rfl, fun _ => id, fun _ _ => rfl, fun _ => rfl⟩

theorem State.Granted.trans {s t u : State} (h : State.Granted p s t) (h' : State.Granted p t u) : State.Granted p s u where
  work := h.work.trans h'.work
  quarantined := h'.quarantined.trans h.quarantined
  places := h.places.trans h'.places
  locks e he := (h'.locks e he).elim (h.locks e) .inr
  batch m := (h'.batch m).trans (h.batch m)
  stage m := h'.stage m ∘ h.stage m
  others m hm := (h'.others m hm).trans (h.others m hm)
  ses hp := (h'.ses hp).trans (h.ses hp)

/-- Whatever leaves the lanes, the held locks, the quarantine and the quarantine hold alone. -/
theorem State.Granted.of_same {s t : State} (hwork : WorkOnly s t) (hlanes : t.lanes = s.lanes)
    (hheld : t.slk.held = s.slk.held) (hhold : t.sbp.quarantineHold = s.sbp.quarantineHold)
    (hquarantined : t.mru.quarantined = s.mru.quarantined) (hses : ¬p .qualification → t.ses = s.ses) :
    State.Granted p s t := by
  refine ⟨hwork, hquarantined, ⟨fun m => ?_, hhold, ?_⟩, ?_, fun m => ?_, fun m => ?_, fun m _ => ?_, hses⟩
  · rw [hlanes]
  · rw [hheld]; exact fun _ => id
  · rw [hheld]; exact fun _ => .inl
  · rw [hlanes]
  · rw [hlanes]; exact id
  · rw [hlanes]

theorem State.submit_granted (s : State) (r : Request) : State.Granted p s (s.submit r) := by
  obtain ⟨hmru, hquarantined, -, -, -, -⟩ := s.submit_submitted r
  obtain ⟨m, o, h⟩ := hmru
  refine .of_same (s.submit_only r).work ?_ ?_ ?_ hquarantined fun _ => ?_
  all_goals rw [h]

theorem State.submitAll_granted (requests : List Request) (s : State) : State.Granted p s (s.submitAll requests) := by
  unfold State.submitAll
  induction requests generalizing s with
  | nil => exact .refl s
  | cons r rest ih => exact (s.submit_granted r).trans (ih _)

/-- A lane's record is changed, its batch and outcome kept, and the lane left at work. -/
theorem State.updLane_granted {n : Fin 4} (hp : p (.lane n)) {f : Lane → Lane} {s : State}
    (hbatch : (f s.lanes[n]).batch = s.lanes[n].batch) (houtcome : (f s.lanes[n]).outcome = s.lanes[n].outcome)
    (hstage : (f s.lanes[n]).stage ≠ .idle) : State.Granted p s (s.updLane n f) := by
  have hlane (m : Fin 4) : (s.updLane n f).lanes[m] = f s.lanes[n] ∧ m = n ∨ (s.updLane n f).lanes[m] = s.lanes[m] ∧ m ≠ n := by
    by_cases hm : m = n
    · subst hm
      exact .inl ⟨State.updLane_get_self m f s, rfl⟩
    · exact .inr ⟨State.updLane_get_other (Ne.symm hm) f s, hm⟩
  refine ⟨(s.updLane_only n f).work, rfl, ⟨fun m => ?_, rfl, fun _ => id⟩, fun _ => .inl, fun m => ?_, fun m => ?_,
    fun m hm => ?_, fun _ => rfl⟩
  · rcases hlane m with ⟨h, rfl⟩ | ⟨h, -⟩
    · rw [h, houtcome]
    · rw [h]
  · rcases hlane m with ⟨h, rfl⟩ | ⟨h, -⟩
    · rw [h, hbatch]
    · rw [h]
  · rcases hlane m with ⟨h, rfl⟩ | ⟨h, -⟩
    · rw [h]
      exact fun _ => hstage
    · rw [h]
      exact id
  · rcases hlane m with ⟨-, rfl⟩ | ⟨h, -⟩
    · exact absurd hp hm
    · exact h

/-- A lock of a claim, or of a lane that satisfies p, joins the held table, and the wait list may change. -/
theorem State.hold_granted {e : LockEntry} (he : e.owner.isClaim = true ∨ ∃ m, p (.lane m) ∧ e.owner = .lane m)
    (waiting : Slk → List LockEntry) (s : State) :
    State.Granted p s (s.updSlk fun k => { k with held := k.held ++ [e], waiting := waiting k }) := by
  refine ⟨(s.updSlk_only _).work, rfl, ⟨fun _ => rfl, rfl, fun _ => List.mem_append_left _⟩, fun e' he' => ?_, fun _ => rfl,
    fun _ => id, fun _ _ => rfl, fun _ => rfl⟩
  rcases List.mem_append.1 he' with he' | he'
  · exact .inl he'
  · obtain rfl := List.mem_singleton.1 he'
    exact .inr he

theorem State.enterReading_granted {n : Fin 4} (hp : p (.lane n)) (s : State) : State.Granted p s (s.enterReading n) := by
  unfold State.enterReading
  split
  · exact .refl s
  · refine State.Granted.trans (State.updLane_granted hp ?_ ?_ ?_) (State.submitAll_granted _ _)
    · rfl
    · rfl
    · simp

theorem State.requestLaneLock_granted {n : Fin 4} (hp : p (.lane n)) (s : State) :
    State.Granted p s (s.requestLaneLock n) := by
  unfold State.requestLaneLock
  split
  · exact .refl s
  · simp only
    split
    · exact (s.hold_granted (.inr ⟨n, hp, rfl⟩) Slk.waiting).trans (State.enterReading_granted hp _)
    · exact .of_same (s.updSlk_only _).work rfl rfl rfl rfl fun _ => rfl

/-- A grant of a scan: a claim is answered, a lane enters READING (R95, R116). -/
theorem State.grantWaiting_granted {e : LockEntry} (he : ∀ m, e.owner = .lane m → p (.lane m)) (s : State) :
    State.Granted p s (s.grantWaiting e) := by
  unfold State.grantWaiting
  split
  · rename_i n hn
    exact s.enterReading_granted (he n hn)
  · exact .of_same ((s.answer_only _).trans (State.dropReservation_only _)).work rfl rfl rfl rfl fun _ => rfl

theorem State.scanFrom_granted {rest : List LockEntry} (h : ∀ e ∈ rest, ∀ m, e.owner = .lane m → p (.lane m))
    (kept : List LockEntry) (s : State) : State.Granted p s (State.scanFrom rest kept s) := by
  induction rest generalizing kept s with
  | nil => exact .refl s
  | cons e rest ih =>
    obtain ⟨he, hrest⟩ := List.forall_mem_cons.1 h
    have howner : e.owner.isClaim = true ∨ ∃ m, p (.lane m) ∧ e.owner = .lane m := by
      cases hown : e.owner with
      | lane m => exact .inr ⟨m, he m hown, rfl⟩
      | claim tag => exact .inl rfl
    simp only [State.scanFrom]
    split
    · exact ((s.hold_granted howner fun _ => kept ++ rest).trans (State.grantWaiting_granted he _)).trans (ih hrest _ _)
    · exact ih hrest _ _

/-- A scan of SLK's wait list grants owners of requests that wait there (R91). -/
theorem State.scanLocks_granted {s : State} (h : ∀ e ∈ s.slk.waiting, ∀ m, e.owner = .lane m → p (.lane m)) :
    State.Granted p s s.scanLocks := State.scanFrom_granted h [] s

theorem State.setProgress_granted (hp : p .qualification) (q : QualProgress) (s : State) :
    State.Granted p s (s.setProgress q) :=
  .of_same (s.setProgress_only q) rfl rfl rfl rfl fun h => absurd hp h

theorem State.beginAttempt_granted (hp : p .qualification) (q : QualProgress) (s : State) :
    State.Granted p s (s.beginAttempt q) := by
  unfold State.beginAttempt
  split
  · exact s.setProgress_granted hp _
  · exact (State.Granted.trans (.of_same (s.writeMem_only _ _) rfl rfl rfl rfl fun _ => rfl)
      (State.setProgress_granted hp _ _)).trans (State.submit_granted _ _)

theorem State.grantSet_granted {owner : Owner} (hp : p owner) (bufs : List BufId) (s : State) :
    State.Granted p s (s.grantSet owner bufs) := by
  cases owner with
  | lane n =>
    refine State.Granted.trans (State.updLane_granted hp ?_ ?_ ?_) (State.requestLaneLock_granted hp _)
    · rfl
    · rfl
    · simp
  | qualification =>
    have hset : State.Granted p s (s.updSes fun e => { e with qualSet := bufs }) :=
      .of_same ⟨_, _, _, _, _, _, _, _, _, _, rfl⟩ rfl rfl rfl rfl fun h => absurd hp h
    unfold State.grantSet
    simp only
    split
    · exact hset
    · exact hset.trans (State.beginAttempt_granted hp _ _)

theorem State.updSbp_granted {f : Sbp → Sbp} {s : State} (h : (f s.sbp).quarantineHold = s.sbp.quarantineHold) :
    State.Granted p s (s.updSbp f) := .of_same (s.updSbp_only f) rfl rfl h rfl fun _ => rfl

theorem State.grantBuffers_granted {r : BufRequest} (hp : p r.owner) (s : State) : State.Granted p s (s.grantBuffers r) := by
  unfold State.grantBuffers
  exact (State.updSbp_granted rfl).trans (State.grantSet_granted hp _ _)

theorem State.requestBuffers_granted {r : BufRequest} (hp : p r.owner) (s : State) :
    State.Granted p s (s.requestBuffers r) := by
  unfold State.requestBuffers
  split
  · exact s.grantBuffers_granted hp
  · exact State.updSbp_granted rfl

theorem State.scanBuffersFrom_granted {l : List BufRequest} (h : ∀ w ∈ l, p w.owner) (s : State) :
    State.Granted p s (State.scanBuffersFrom l s) := by
  induction l generalizing s with
  | nil => exact .refl s
  | cons r rest ih =>
    obtain ⟨hr, hrest⟩ := List.forall_mem_cons.1 h
    simp only [State.scanBuffersFrom]
    split
    · exact ((State.updSbp_granted rfl).trans (State.grantBuffers_granted hr _)).trans (ih hrest _)
    · exact .refl s

/-- A scan of SBP's wait list grants owners of requests that wait there (R112). -/
theorem State.scanBuffers_granted {s : State} (h : ∀ w ∈ s.sbp.waiting, p w.owner) : State.Granted p s s.scanBuffers :=
  State.scanBuffersFrom_granted h s

end Grants

/-! ## Assignments -/

theorem State.assign_places (n : Fin 4) (b : Batch) (s : State) : s.PlacesKept (s.assign n b) := by
  set u := s.updLane n fun l => { l with batch := some b, stage := .buffering }
  have hlane : s.PlacesKept u := by
    refine ⟨fun m => ?_, rfl, fun _ => id⟩
    by_cases hm : m = n
    · subst hm
      exact (congrArg Lane.outcome (State.updLane_get_self m _ s)).trans rfl
    · exact congrArg Lane.outcome (State.updLane_get_other (Ne.symm hm) _ s)
  exact hlane.trans (State.requestBuffers_granted (p := fun _ => True) trivial u).places

theorem State.passOver_places (l : List (Fin 4)) (s : State) : s.PlacesKept (State.passOver l s) := by
  induction l generalizing s with
  | nil => exact .refl s
  | cons n rest ih =>
    simp only [State.passOver]
    split
    · split
      · exact .refl s
      · rename_i t ht
        obtain ⟨x, -, rfl⟩ := Option.map_eq_some_iff.1 ht
        have hrgt : s.PlacesKept (s.updRgt fun _ => x.2) := ⟨fun _ => rfl, rfl, fun _ => id⟩
        exact (hrgt.trans (State.assign_places n x.1 _)).trans (ih _)
    · exact ih s

end Sys2Proof.Machine
end

section
/-! The end of a batch up to the report to RGT: steps 1 to 5 of R129, with the region completion test. -/

namespace Sys2Proof.Machine

/-! ## The region completion test (R62, R63) -/

/-- RGT after the region completion test, with whether a lane holds a batch in the region (R63). -/
def Rgt.tested (held : Bool) (region : Nat) (g : Rgt) : Rgt :=
  match g.regions[region]? with
  | none => g
  | some r =>
    if r.state = .active ∧ r.issueMark = r.stripeCount ∧ !held then
      { g with
        regions := g.regions.modify region fun x => { x with state := .rebuilt }
        rebuiltRegions := g.rebuiltRegions.map (· + 1) }
    else g

theorem State.testRegion_eq (region : Nat) (s : State) :
    s.testRegion region = { s with rgt := s.rgt.tested (s.regionHeld region) region } := by
  unfold State.testRegion Rgt.tested
  cases s.rgt.regions[region]? with
  | none => rfl
  | some r =>
    dsimp only
    split <;> rfl

theorem State.regionHeld_eq_false_iff (region : Nat) (s : State) :
    s.regionHeld region = false ↔ ∀ (n : Fin 4) (b : Batch), s.lanes[n].batch = some b → b.region ≠ region := by
  simp only [State.regionHeld, allLanes, List.any_eq_false, List.mem_finRange, true_imp_iff, Bool.not_eq_true]
  refine forall_congr' fun n => ?_
  cases s.lanes[n].batch <;> simp

/-- Whether a region is held depends on the lanes' batches alone. -/
theorem State.regionHeld_congr {s t : State} (h : ∀ m : Fin 4, t.lanes[m].batch = s.lanes[m].batch) (region : Nat) :
    t.regionHeld region = s.regionHeld region := by
  simp only [State.regionHeld, h]

/-- The conditions under which a region becomes REBUILT (R63). -/
theorem Rgt.tested_of_region {g : Rgt} {region : Nat} {r : Region} {held : Bool} (hr : g.regions[region]? = some r) :
    g.tested held region =
      if r.state = .active ∧ r.issueMark = r.stripeCount ∧ held = false then
        { g with
          regions := g.regions.modify region fun x => { x with state := .rebuilt }
          rebuiltRegions := g.rebuiltRegions.map (· + 1) }
      else g := by
  rw [Rgt.tested, hr]
  simp only [Bool.not_eq_true']

theorem Rgt.tested_stripes (held : Bool) (region : Nat) (g : Rgt) (count : Option Nat) :
    ({ g with rebuiltStripes := count } : Rgt).tested held region =
      { g.tested held region with rebuiltStripes := count } := by
  unfold Rgt.tested
  cases hr : g.regions[region]? with
  | none => rfl
  | some r =>
    dsimp only
    split <;> rfl

theorem Rgt.tested_rebuiltStripes (held : Bool) (region : Nat) (g : Rgt) :
    (g.tested held region).rebuiltStripes = g.rebuiltStripes := by
  unfold Rgt.tested
  cases g.regions[region]? with
  | none => rfl
  | some r =>
    dsimp only
    split <;> rfl

/-- RGT after a batch's stripes are counted and its region tested (R62, R63). -/
def Rgt.counted (held : Bool) (b : Batch) (g : Rgt) : Rgt :=
  { g.tested held b.region with rebuiltStripes := g.rebuiltStripes.map (· + b.length) }

theorem State.reportBatch_eq (b : Batch) (s : State) :
    s.reportBatch b = { s with rgt := s.rgt.counted (s.regionHeld b.region) b } := by
  rw [State.reportBatch, State.testRegion_eq]
  exact congrArg (fun g => ({ s with rgt := g } : State)) (Rgt.tested_stripes _ _ _ _)

/-! ## Steps 1 to 4 of R129 -/

/-- The batch, its lock and its buffers have been given up, with the two scans, and the lane's record cleared (R129). -/
def State.laneCleared (n : Fin 4) (s : State) : State := ((s.giveUpBatch n).scanLocks.giveUpBuffers n).scanBuffers.clearLane n

/-- Beyond lane n and its lock, only what a grant to an owner that satisfies p changes may differ. -/
structure State.OthersGranted (p : Owner → Prop) (n : Fin 4) (s t : State) : Prop where
  work : WorkOnly s t
  quarantined : t.mru.quarantined = s.mru.quarantined
  held : ∀ e ∈ s.slk.held, e.owner ≠ .lane n → e ∈ t.slk.held
  batch : ∀ m : Fin 4, m ≠ n → t.lanes[m].batch = s.lanes[m].batch
  stage : ∀ m : Fin 4, m ≠ n → s.lanes[m].stage ≠ .idle → t.lanes[m].stage ≠ .idle
  others : ∀ m : Fin 4, m ≠ n → ¬p (.lane m) → t.lanes[m] = s.lanes[m]
  ses : ¬p .qualification → t.ses = s.ses

section Left

variable {p : Owner → Prop} {n : Fin 4}

theorem State.OthersGranted.trans {s t u : State} (h : State.OthersGranted p n s t) (h' : State.OthersGranted p n t u) :
    State.OthersGranted p n s u where
  work := h.work.trans h'.work
  quarantined := h'.quarantined.trans h.quarantined
  held e he hne := h'.held e (h.held e he hne) hne
  batch m hm := (h'.batch m hm).trans (h.batch m hm)
  stage m hm := h'.stage m hm ∘ h.stage m hm
  others m hm hp := (h'.others m hm hp).trans (h.others m hm hp)
  ses hp := (h'.ses hp).trans (h.ses hp)

theorem State.Granted.others_granted {s t : State} (h : State.Granted p s t) : State.OthersGranted p n s t :=
  ⟨h.work, h.quarantined, fun e he _ => h.places.held e he, fun m _ => h.batch m, fun m _ => h.stage m, fun m _ => h.others m,
    h.ses⟩

/-- Whatever changes no lane but n, and of the held locks at most lane n's. -/
theorem State.OthersGranted.of_lane {s t : State} (hwork : WorkOnly s t) (hquarantined : t.mru.quarantined = s.mru.quarantined)
    (hheld : ∀ e ∈ s.slk.held, e.owner ≠ .lane n → e ∈ t.slk.held) (hlanes : ∀ m : Fin 4, m ≠ n → t.lanes[m] = s.lanes[m])
    (hses : t.ses = s.ses) : State.OthersGranted p n s t :=
  ⟨hwork, hquarantined, hheld, fun m hm => by rw [hlanes m hm], fun m hm => by rw [hlanes m hm]; exact id,
    fun m hm _ => hlanes m hm, fun _ => hses⟩

theorem State.mem_held_giveUpBatch {s : State} {e : LockEntry} :
    e ∈ (s.giveUpBatch n).slk.held ↔ e ∈ s.slk.held ∧ e.owner ≠ .lane n := by
  simp [State.giveUpBatch, State.dropHeld, State.updSlk, State.updLane, List.mem_filter]

theorem State.giveUpBatch_lane (s : State) :
    (s.giveUpBatch n).lanes[n] = { s.lanes[n] with outcome := s.lanes[n].endOutcome, batch := none } :=
  State.updLane_get_self n (fun l => { l with outcome := l.endOutcome, batch := none }) s

theorem State.giveUpBatch_others (s : State) : State.OthersGranted p n s (s.giveUpBatch n) :=
  .of_lane ((s.updLane_only n _).trans (State.dropHeld_only _ _)).work rfl
    (fun _ he hne => State.mem_held_giveUpBatch.2 ⟨he, hne⟩)
    (fun _ hm => State.updLane_get_other (Ne.symm hm) (fun l => { l with outcome := l.endOutcome, batch := none }) s) rfl

theorem State.giveUpBuffers_others (s : State) : State.OthersGranted p n s (s.giveUpBuffers n) :=
  .of_lane ((s.returnSet_only _).trans (State.updLane_only n _ _).work) rfl (fun _ he _ => he)
    (fun _ hm => State.updLane_get_other (Ne.symm hm) _ _) rfl

theorem State.clearLane_others (s : State) : State.OthersGranted p n s (s.clearLane n) :=
  .of_lane (s.updLane_only n _).work rfl (fun _ he _ => he) (fun _ hm => State.updLane_get_other (Ne.symm hm) _ _) rfl

/-- Where lane n is granted nothing, no lock becomes its own. -/
theorem State.Granted.released {s t : State} (h : State.Granted p s t) (hp : ¬p (.lane n))
    (hs : ∀ e ∈ s.slk.held, e.owner ≠ .lane n) : ∀ e ∈ t.slk.held, e.owner ≠ .lane n := by
  intro e he howner
  rcases h.locks e he with he | he | ⟨m, hm, he⟩
  · exact hs e he howner
  · rw [howner] at he
    cases he
  · obtain rfl := LockOwner.lane.inj (howner.symm.trans he)
    exact hp hm

theorem State.scanLocks_sbp (s : State) : s.scanLocks.sbp = s.sbp := by
  obtain ⟨m, o, l, k, a, r, h⟩ := s.scanLocks_only
  rw [h]

/-- What steps 1 to 4 of R129 leave, where the owners that wait satisfy p. -/
structure State.LaneLeft (p : Owner → Prop) (n : Fin 4) (s t : State) : Prop where
  granted : State.OthersGranted p n s t
  self : t.lanes[n] = { Lane.reset with outcome := s.lanes[n].endOutcome }
  hold : ¬p (.lane n) →
    t.sbp.quarantineHold = s.sbp.quarantineHold ++ s.lanes[n].bufs.filter s.mru.namesQuarantined
  released : ¬p (.lane n) → ∀ e ∈ t.slk.held, e.owner ≠ .lane n

theorem State.laneCleared_left {s : State} (hlocks : ∀ e ∈ s.slk.waiting, ∀ m, e.owner = .lane m → p (.lane m))
    (hbufs : ∀ w ∈ s.sbp.waiting, p w.owner) : State.LaneLeft p n s (s.laneCleared n) := by
  set a := s.giveUpBatch n
  have ha : a.lanes[n] = { s.lanes[n] with outcome := s.lanes[n].endOutcome, batch := none } := s.giveUpBatch_lane
  have hb : State.Granted p a a.scanLocks := State.scanLocks_granted hlocks
  have hsbp : a.scanLocks.sbp = s.sbp := a.scanLocks_sbp
  have hab : State.OthersGranted p n s a.scanLocks := (s.giveUpBatch_others).trans hb.others_granted
  have houtcome : a.scanLocks.lanes[n].outcome = s.lanes[n].endOutcome :=
    (hb.places.outcome n).trans (congrArg Lane.outcome ha)
  have hbufsN (hp : ¬p (.lane n)) : a.scanLocks.lanes[n].bufs = s.lanes[n].bufs := by rw [hb.others n hp, ha]
  have hrel (hp : ¬p (.lane n)) := hb.released hp fun _ he => (State.mem_held_giveUpBatch.1 he).2
  have ht : s.laneCleared n = (a.scanLocks.giveUpBuffers n).scanBuffers.clearLane n := rfl
  rw [ht]
  clear ht
  generalize a.scanLocks = b at *
  have hc : (b.giveUpBuffers n).lanes[n] = { b.lanes[n] with bufs := [] } := State.updLane_get_self n _ _
  have hd : State.Granted p (b.giveUpBuffers n) (b.giveUpBuffers n).scanBuffers :=
    State.scanBuffers_granted (show ∀ w ∈ b.sbp.waiting, _ by rw [hsbp]; exact hbufs)
  refine ⟨((hab.trans b.giveUpBuffers_others).trans hd.others_granted).trans (State.clearLane_others _), ?_, fun hp => ?_,
    fun hp => hd.released hp (hrel hp)⟩
  · refine (State.updLane_get_self n _ _).trans ?_
    rw [hd.places.outcome n, hc, houtcome]
  · refine hd.places.hold.trans ?_
    show b.sbp.quarantineHold ++ b.lanes[n].bufs.filter b.mru.namesQuarantined = _
    rw [hsbp, hbufsN hp, funext (Mru.namesQuarantined_congr hab.quarantined)]

end Left

/-! ## Step 5: RGT is told (R62, R63) -/

/-- RGT when the end of lane n's batch has been reported to it. -/
def State.rgtAfter (n : Fin 4) (b : Batch) (s : State) : Rgt :=
  s.rgt.counted (State.regionHeld b.region { s with lanes := s.lanes.set n Lane.reset }) b

theorem State.rgtAfter_eq (n : Fin 4) (b : Batch) (s : State) :
    let after := ({ s with lanes := s.lanes.set n Lane.reset } : State).testRegion b.region
    s.rgtAfter n b = { after.rgt with rebuiltStripes := after.rgt.rebuiltStripes.map (· + b.length) } := by
  simp only [State.testRegion_eq, Rgt.tested_rebuiltStripes]
  rfl

theorem State.rgtAfter_regions (n : Fin 4) (b : Batch) (s : State) :
    (s.rgtAfter n b).regions = (({ s with lanes := s.lanes.set n Lane.reset } : State).testRegion b.region).rgt.regions := by
  rw [State.rgtAfter_eq]

/-- RGT's state takes no part in what steps 1 to 4 leave. -/
theorem State.LaneLeft.withRgt {p : Owner → Prop} {n : Fin 4} {s t : State} (h : State.LaneLeft p n s t) (g : Rgt) :
    State.LaneLeft p n { s with rgt := g } { t with rgt := g } := by
  obtain ⟨⟨⟨m, o, l, k, a, r, x, e, q, c, hwork⟩, hquarantined, hheld, hbatch, hstage, hothers, hses⟩, hself, hhold, hreleased⟩ := h
  exact ⟨⟨⟨m, o, l, k, a, r, x, e, q, c, by rw [hwork]⟩, hquarantined, hheld, hbatch, hstage, hothers, hses⟩, hself, hhold,
    hreleased⟩

theorem State.LaneLeft.reported {p : Owner → Prop} {n : Fin 4} {s t : State} (h : State.LaneLeft p n s t) (b : Batch) :
    State.LaneLeft p n { s with rgt := s.rgtAfter n b } (t.reportBatch b) := by
  have hrgt : t.rgt = s.rgt := by
    obtain ⟨m, o, l, k, a, r, x, e, q, c, hwork⟩ := h.granted.work
    rw [hwork]
  have hheld : t.regionHeld b.region = State.regionHeld b.region { s with lanes := s.lanes.set n Lane.reset } := by
    refine State.regionHeld_congr (fun m => ?_) _
    by_cases hm : m = n
    · subst hm
      rw [h.self]
      simp [Lane.reset]
    · rw [h.granted.batch m hm]
      have hval : n.val ≠ m.val := fun e => hm (Fin.ext e.symm)
      simp [hval]
  rw [State.reportBatch_eq, hrgt, hheld]
  exact h.withRgt _

end Sys2Proof.Machine
end

section
/-! The end of a batch behind the report to RGT: the session's exits and the pass, steps 6 and 7 of R129. -/

namespace Sys2Proof.Machine

/-! ## Step 6: the session's exits (R30, R31, R33, R34) -/

/-- The completion test, and behind it the exit test of SUSPENDED (R129). -/
def State.exitTests (s : State) : State := s.completionTest.suspendedExit

/-- Only the session state, the events and the line may differ. -/
def SessionOnly (s t : State) : Prop := ∃ st m, t = { s with ses := { s.ses with state := st }, mgp := m }

theorem SessionOnly.refl (s : State) : SessionOnly s s := ⟨_, _, rfl⟩

theorem SessionOnly.trans {s t u : State} (h : SessionOnly s t) (h' : SessionOnly t u) : SessionOnly s u := by
  obtain ⟨st, m, rfl⟩ := h
  obtain ⟨st', m', rfl⟩ := h'
  exact ⟨st', m', rfl⟩

theorem State.changeState_session (st : SessionState) (s : State) : SessionOnly s (s.changeState st) := ⟨_, _, rfl⟩

theorem State.setEvent_session (e : Event) (s : State) : SessionOnly s (s.setEvent e) := ⟨_, _, rfl⟩

theorem State.complete_session (s : State) : SessionOnly s s.complete := ⟨_, _, rfl⟩

theorem State.completeOr_session (st : SessionState) (s : State) : SessionOnly s (s.completeOr st) := by
  unfold State.completeOr
  split
  · exact s.complete_session
  · exact s.changeState_session st

theorem State.drainingExit_session (s : State) : SessionOnly s s.drainingExit := by
  unfold State.drainingExit
  split
  · exact s.completeOr_session _
  · exact .refl s

theorem State.steppingExit_session (s : State) : SessionOnly s s.steppingExit := by
  unfold State.steppingExit
  split
  · exact (s.setEvent_session _).trans (State.completeOr_session _ _)
  · exact .refl s

theorem State.completionTest_session (s : State) : SessionOnly s s.completionTest := by
  unfold State.completionTest
  split
  · split
    · exact s.complete_session
    · exact .refl s
  · exact s.drainingExit_session
  · exact s.steppingExit_session
  · exact .refl s

theorem State.suspendedExit_session (s : State) : SessionOnly s s.suspendedExit := by
  unfold State.suspendedExit
  split
  · split
    · exact s.complete_session
    · exact s.changeState_session _
  · exact .refl s

theorem State.exitTests_session (s : State) : SessionOnly s s.exitTests :=
  s.completionTest_session.trans (State.suspendedExit_session _)

theorem State.complete_noted (s : State) : Noted s s.complete (Event.bit .stateChange ||| Event.bit .rebuildComplete) :=
  (s.changeState_noted .complete).trans (State.setEvent_noted .rebuildComplete _)

theorem State.complete_state_ne (s : State) : s.complete.ses.state ≠ .suspended := SessionState.noConfusion

theorem State.completeOr_paused_state (s : State) :
    (s.completeOr .paused).ses.state = .complete ∨ (s.completeOr .paused).ses.state = .paused := by
  unfold State.completeOr
  split
  · exact .inl rfl
  · exact .inr rfl

/-- COMPLETE and PAUSED are neither RUNNING nor SUSPENDED. -/
theorem State.completeOr_paused_state_ne (s : State) :
    (s.completeOr .paused).ses.state ≠ .running ∧ (s.completeOr .paused).ses.state ≠ .suspended := by
  rcases s.completeOr_paused_state with h | h
  · rw [h]
    decide
  · rw [h]
    decide

section Exits

variable {s : State}

theorem State.suspendedExit_of_ne (h : s.ses.state ≠ .suspended) : s.suspendedExit = s := if_neg fun hc => h hc.1

theorem State.exitTests_of_completionTest {t : State} (h : s.completionTest = t) (ht : t.ses.state ≠ .suspended) :
    s.exitTests = t := by
  rw [State.exitTests, h, State.suspendedExit_of_ne ht]

theorem State.rebuildDone_iff :
    s.rebuildDone = true ↔ (∀ r ∈ s.rgt.regions, r.state = .rebuilt) ∧ s.allIdle = true := by
  rw [State.rebuildDone, Bool.and_eq_true, Rgt.allRebuilt_iff]

theorem State.completeOr_eq (st : SessionState) :
    ((∀ r ∈ s.rgt.regions, r.state = .rebuilt) → s.completeOr st = s.complete) ∧
      (¬(∀ r ∈ s.rgt.regions, r.state = .rebuilt) → s.completeOr st = s.changeState st) := by
  rw [← Rgt.allRebuilt_iff]
  exact ⟨fun h => if_pos h, fun h => if_neg h⟩

theorem State.exitTests_running (h : s.ses.state = .running) :
    (s.rebuildDone = true → s.exitTests = s.complete) ∧ (s.rebuildDone ≠ true → s.exitTests = s) := by
  have htest : s.completionTest = if s.rebuildDone then s.complete else s := by rw [State.completionTest, h]
  refine ⟨fun hd => ?_, fun hd => ?_⟩
  · exact State.exitTests_of_completionTest (htest.trans (if_pos hd)) s.complete_state_ne
  · exact State.exitTests_of_completionTest (htest.trans (if_neg hd)) (by rw [h]; decide)

theorem State.exitTests_suspended (h : s.ses.state = .suspended) :
    (s.holdingOrder ≠ [] → s.exitTests = s) ∧
      (s.holdingOrder = [] → s.rebuildDone = true → s.exitTests = s.complete) ∧
      (s.holdingOrder = [] → s.rebuildDone ≠ true → s.exitTests = s.changeState .running) := by
  have htest : s.exitTests = s.suspendedExit := by rw [State.exitTests, State.completionTest, h]
  refine ⟨fun ho => ?_, fun ho hd => ?_, fun ho hd => ?_⟩
  · exact htest.trans (if_neg fun hc => ho hc.2)
  · exact (htest.trans (if_pos ⟨h, ho⟩)).trans (if_pos hd)
  · exact (htest.trans (if_pos ⟨h, ho⟩)).trans (if_neg hd)

theorem State.exitTests_draining (h : s.ses.state = .draining) :
    (s.allIdle = true → s.exitTests = s.completeOr .paused) ∧ (s.allIdle ≠ true → s.exitTests = s) := by
  have htest : s.completionTest = s.drainingExit := by rw [State.completionTest, h]
  refine ⟨fun hi => State.exitTests_of_completionTest (htest.trans (if_pos hi)) (State.completeOr_paused_state_ne _).2,
    fun hi => State.exitTests_of_completionTest (htest.trans (if_neg hi)) (by rw [h]; decide)⟩

theorem State.exitTests_stepping (h : s.ses.state = .stepping) :
    (s.lanes[0].stage = .idle → s.exitTests = (s.setEvent .stepDone).completeOr .paused) ∧
      (s.lanes[0].stage ≠ .idle → s.exitTests = s) := by
  have htest : s.completionTest = s.steppingExit := by rw [State.completionTest, h]
  refine ⟨fun hi => State.exitTests_of_completionTest (htest.trans (if_pos hi)) (State.completeOr_paused_state_ne _).2,
    fun hi => State.exitTests_of_completionTest (htest.trans (if_neg hi)) (by rw [h]; decide)⟩

/-- Neither test makes a session RUNNING that was neither RUNNING nor SUSPENDED. -/
theorem State.exitTests_state_ne (h : s.ses.state ≠ .running) (h' : s.ses.state ≠ .suspended) :
    s.exitTests.ses.state ≠ .running := by
  by_cases hd : s.ses.state = .draining
  · by_cases hi : s.allIdle = true
    · rw [(State.exitTests_draining hd).1 hi]
      exact s.completeOr_paused_state_ne.1
    · rw [(State.exitTests_draining hd).2 hi]
      exact h
  · by_cases hs : s.ses.state = .stepping
    · by_cases hi : s.lanes[0].stage = .idle
      · rw [(State.exitTests_stepping hs).1 hi]
        exact (State.completeOr_paused_state_ne _).1
      · rw [(State.exitTests_stepping hs).2 hi]
        exact h
    · have htest : s.completionTest = s := by
        unfold State.completionTest
        split
        · exact absurd ‹_› h
        · exact absurd ‹_› hd
        · exact absurd ‹_› hs
        · rfl
      rw [State.exitTests_of_completionTest htest h']
      exact h

end Exits

/-! ## Step 7: the pass (R56 to R59) -/

theorem State.passAfterBatch_of_not_running {s : State} (h : s.ses.state ≠ .running) (n : Fin 4) (returned : Bool) :
    s.passAfterBatch n returned = s := if_neg h

theorem State.passAfterBatch_one {s : State} (h : s.ses.state = .running) (n : Fin 4) :
    State.Passed [n] s (s.passAfterBatch n false) := by
  rw [State.passAfterBatch, if_pos h]
  exact State.passOver_passed (List.nodup_singleton n) s

theorem State.passAfterBatch_all {s : State} (h : s.ses.state = .running) (n : Fin 4) :
    State.Passed [0, 1, 2, 3] s (s.passAfterBatch n true) := by
  rw [State.passAfterBatch, if_pos h]
  exact s.assignmentPass_passed

/-- Whether a pass follows or not, and whichever it is. -/
theorem State.passAfterBatch_kept (n : Fin 4) (returned : Bool) (s : State) :
    s.BatchesAssigned (s.passAfterBatch n returned) ∧ s.PlacesKept (s.passAfterBatch n returned) := by
  by_cases h : s.ses.state = .running
  · cases returned with
    | false =>
      refine ⟨(State.passAfterBatch_one h n).assigned, ?_⟩
      rw [State.passAfterBatch, if_pos h]
      exact State.passOver_places _ s
    | true =>
      refine ⟨(State.passAfterBatch_all h n).assigned, ?_⟩
      rw [State.passAfterBatch, if_pos h]
      exact State.passOver_places _ s
  · rw [State.passAfterBatch_of_not_running h]
    exact ⟨.refl s, .refl s⟩

theorem SessionOnly.places {s t : State} (h : SessionOnly s t) : s.PlacesKept t := by
  obtain ⟨st, m, rfl⟩ := h
  exact ⟨fun _ => rfl, rfl, fun _ => id⟩

end Sys2Proof.Machine
end

section
/-! The end of a batch: what it counts and clears, and what each state of the session becomes. -/

namespace Sys2Proof.Machine

/-! ## The end of a batch in any state -/

section Ended

variable {s : State} {n : Fin 4} {b : Batch}

/-- The state in which the exit tests are made: RGT has been told, and the lane is IDLE. -/
def State.batchReported (n : Fin 4) (b : Batch) (s : State) : State := (s.laneCleared n).reportBatch b

theorem State.endBatch_eq (h : s.lanes[n].batch = some b) :
    s.endBatch n = (s.batchReported n b).exitTests.passAfterBatch n (s.ses.state == .suspended) := by
  rw [State.endBatch, h]
  rfl

theorem State.batchReported_left {p : Owner → Prop} (hlocks : ∀ e ∈ s.slk.waiting, ∀ m, e.owner = .lane m → p (.lane m))
    (hbufs : ∀ w ∈ s.sbp.waiting, p w.owner) (b : Batch) :
    State.LaneLeft p n { s with rgt := s.rgtAfter n b } (s.batchReported n b) := (State.laneCleared_left hlocks hbufs).reported b

/-- What holds without a premise on who waits. -/
theorem State.batchReported_any (n : Fin 4) (b : Batch) (s : State) :
    State.LaneLeft (fun _ => True) n { s with rgt := s.rgtAfter n b } (s.batchReported n b) :=
  State.batchReported_left (fun _ _ _ _ => trivial) (fun _ _ => trivial) b

theorem State.batchReported_state (n : Fin 4) (b : Batch) (s : State) : (s.batchReported n b).ses.state = s.ses.state := by
  obtain ⟨m, o, l, k, a, r, x, e, q, c, h⟩ := (s.batchReported_any n b).granted.work
  rw [h]

theorem State.batchReported_rgt (n : Fin 4) (b : Batch) (s : State) : (s.batchReported n b).rgt = s.rgtAfter n b := by
  obtain ⟨m, o, l, k, a, r, x, e, q, c, h⟩ := (s.batchReported_any n b).granted.work
  rw [h]

theorem State.batchReported_mgp (n : Fin 4) (b : Batch) (s : State) : (s.batchReported n b).mgp = s.mgp := by
  obtain ⟨m, o, l, k, a, r, x, e, q, c, h⟩ := (s.batchReported_any n b).granted.work
  rw [h]

theorem State.batchReported_lrl (n : Fin 4) (b : Batch) (s : State) : (s.batchReported n b).lrl = s.lrl := by
  obtain ⟨m, o, l, k, a, r, x, e, q, c, h⟩ := (s.batchReported_any n b).granted.work
  rw [h]

theorem State.batchReported_holdingOrder (n : Fin 4) (b : Batch) (s : State) :
    (s.batchReported n b).holdingOrder = s.holdingOrder := by
  obtain ⟨m, o, l, k, a, r, x, e, q, c, h⟩ := (s.batchReported_any n b).granted.work
  rw [h]

theorem State.batchReported_nextBatchOf (n : Fin 4) (b : Batch) (s : State) (g : Rgt) :
    (s.batchReported n b).nextBatchOf g = s.nextBatchOf g := by
  obtain ⟨m, o, l, k, a, r, x, e, q, c, h⟩ := (s.batchReported_any n b).granted.work
  rw [h]
  rfl

/-- Outside RUNNING and SUSPENDED no pass follows. -/
theorem State.endBatch_without_pass (h : s.lanes[n].batch = some b) (hr : s.ses.state ≠ .running)
    (hs : s.ses.state ≠ .suspended) : s.endBatch n = (s.batchReported n b).exitTests := by
  rw [State.endBatch_eq h, State.passAfterBatch_of_not_running]
  apply State.exitTests_state_ne <;> rwa [State.batchReported_state]

/-- What the end of a batch counts, whoever waits (R62, R128, R129). -/
theorem State.endBatch_counts (h : s.lanes[n].batch = some b) :
    (s.endBatch n).rgt.rebuiltStripes = s.rgt.rebuiltStripes.map (· + b.length) ∧
      (s.endBatch n).lanes[n].outcome = s.lanes[n].endOutcome ∧ (s.endBatch n).lrl = s.lrl := by
  have hself := (s.batchReported_any n b).self
  have hlrl := s.batchReported_lrl n b
  have hrgt := s.batchReported_rgt n b
  rw [State.endBatch_eq h]
  generalize s.batchReported n b = w at *
  have hexit := w.exitTests_session
  have hplaces := hexit.places
  obtain ⟨hpass, hplaces'⟩ := State.passAfterBatch_kept n (s.ses.state == .suspended) w.exitTests
  generalize w.exitTests = x at *
  refine ⟨hpass.counts.2.trans ?_, (hplaces'.outcome n).trans ((hplaces.outcome n).trans (congrArg Lane.outcome hself)), ?_⟩
  · obtain ⟨st, m, rfl⟩ := hexit
    exact congrArg Rgt.rebuiltStripes hrgt
  · obtain ⟨g, m, o, l, k, p, hpass⟩ := hpass.only
    obtain ⟨st, m', rfl⟩ := hexit
    rw [hpass]
    exact hlrl

theorem State.endBatch_lane_idle (h : s.lanes[n].batch = some b) (hr : s.ses.state ≠ .running)
    (hs : s.ses.state ≠ .suspended) :
    (s.endBatch n).lanes[n] = { Lane.reset with outcome := s.lanes[n].endOutcome } := by
  rw [State.endBatch_without_pass h hr hs]
  have hself := (s.batchReported_any n b).self
  obtain ⟨st, m, hexit⟩ := (s.batchReported n b).exitTests_session
  rw [hexit]
  exact hself

end Ended

/-- The region completion test, in the terms of R63. -/
theorem State.testRegion_cases {s : State} {region : Nat} {r : Region} (hr : s.rgt.regions[region]? = some r) :
    let done := r.state = .active ∧ r.issueMark = r.stripeCount ∧
      ∀ (n : Fin 4) (b : Batch), s.lanes[n].batch = some b → b.region ≠ region
    (done → s.testRegion region = { s with rgt := { s.rgt with
      regions := s.rgt.regions.modify region fun x => { x with state := .rebuilt }
      rebuiltRegions := s.rgt.rebuiltRegions.map (· + 1) } }) ∧ (¬done → s.testRegion region = s) := by
  intro done
  have hdone : (r.state = .active ∧ r.issueMark = r.stripeCount ∧ s.regionHeld region = false) ↔ done := by
    rw [State.regionHeld_eq_false_iff]
  rw [State.testRegion_eq, Rgt.tested_of_region hr]
  exact ⟨fun h => by rw [if_pos (hdone.2 h)], fun h => by rw [if_neg (mt hdone.1 h)]⟩

/-! ## The end of a batch while only others wait -/

/-- The owner is a lane other than n, at work in `s`. -/
def State.atWork (s : State) (n : Fin 4) (o : Owner) : Prop := ∃ m : Fin 4, m ≠ n ∧ o = .lane m ∧ s.lanes[m].stage ≠ .idle

theorem State.atWork_lane_iff {s : State} {n m : Fin 4} : s.atWork n (.lane m) ↔ m ≠ n ∧ s.lanes[m].stage ≠ .idle := by
  refine ⟨?_, fun ⟨hm, hi⟩ => ⟨m, hm, rfl, hi⟩⟩
  rintro ⟨m', hm, howner, hi⟩
  obtain rfl := Owner.lane.inj howner
  exact ⟨hm, hi⟩

theorem State.not_atWork_qualification (s : State) (n : Fin 4) : ¬s.atWork n .qualification := by
  rintro ⟨m, -, h, -⟩
  cases h

/-- Every region is REBUILT once the end of lane n's batch has been reported. -/
def State.RebuiltAfter (n : Fin 4) (b : Batch) (s : State) : Prop := ∀ r ∈ (s.rgtAfter n b).regions, r.state = .rebuilt

/-- Every lane but n is IDLE. -/
def State.OthersIdle (n : Fin 4) (s : State) : Prop := ∀ m : Fin 4, m ≠ n → s.lanes[m].stage = .idle

section Waiters

variable {s : State} {n : Fin 4} {b : Batch}

theorem State.WaitersAtWork.left (h : s.WaitersAtWork n) (b : Batch) :
    State.LaneLeft (s.atWork n) n { s with rgt := s.rgtAfter n b } (s.batchReported n b) := by
  obtain ⟨hlocks, hbufs⟩ := h
  refine State.batchReported_left (fun e he m howner => ?_) hbufs b
  rcases hlocks e he with hclaim | ⟨m', hm, howner', hi⟩
  · rw [howner] at hclaim
    cases hclaim
  · obtain rfl := LockOwner.lane.inj (howner.symm.trans howner')
    exact ⟨m, hm, rfl, hi⟩

theorem State.WaitersAtWork.ses (h : s.WaitersAtWork n) : (s.batchReported n b).ses = s.ses :=
  (h.left b).granted.ses (s.not_atWork_qualification n)

/-- A grant neither reaches an IDLE lane nor makes one. -/
theorem State.WaitersAtWork.idle_iff (h : s.WaitersAtWork n) (m : Fin 4) :
    (s.batchReported n b).lanes[m].stage = .idle ↔ m = n ∨ s.lanes[m].stage = .idle := by
  have hleft := h.left b
  by_cases hm : m = n
  · subst hm
    rw [hleft.self]
    exact iff_of_true rfl (.inl rfl)
  · by_cases hi : s.lanes[m].stage = .idle
    · rw [hleft.granted.others m hm fun hp => (State.atWork_lane_iff.1 hp).2 hi]
      exact iff_of_true hi (.inr hi)
    · exact iff_of_false (hleft.granted.stage m hm hi) (not_or.2 ⟨hm, hi⟩)

theorem State.WaitersAtWork.allIdle_iff (h : s.WaitersAtWork n) :
    (s.batchReported n b).allIdle = true ↔ s.OthersIdle n := by
  rw [State.allIdle_iff]
  refine forall_congr' fun m => ?_
  rw [h.idle_iff, or_iff_not_imp_left]

theorem State.WaitersAtWork.rebuildDone_iff (h : s.WaitersAtWork n) :
    (s.batchReported n b).rebuildDone = true ↔ s.RebuiltAfter n b ∧ s.OthersIdle n := by
  rw [State.rebuildDone_iff, h.allIdle_iff, s.batchReported_rgt]
  rfl

theorem State.WaitersAtWork.noted (h : s.WaitersAtWork n) {st : SessionState} {t : State} {set : EventSet}
    (hses : t.ses = { (s.batchReported n b).ses with state := st }) (hn : Noted (s.batchReported n b) t set) :
    t.ses = { s.ses with state := st } ∧ Noted s t set :=
  ⟨hses.trans (by rw [h.ses]), .after (.of_mgp (s.batchReported_mgp n b)) hn⟩

/-- A pass over lanes of `x`, where the next batch is chosen as in `s` (R57). -/
theorem State.Passed.from_state {l : List (Fin 4)} {s x t : State} {eligible : Fin 4 → Prop} (h : State.Passed l x t)
    (he : ∀ m ∈ l, x.eligible m = true ↔ eligible m) (hn : ∀ g, x.nextBatchOf g = s.nextBatchOf g) :
    t.ses = x.ses ∧ t.mgp = x.mgp ∧ PassRuns eligible t l x.rgt ∧
      ∀ m ∈ l, eligible m → t.lanes[m].batch.isSome = true ∨ t.rgt.nextBatch s.profile.rs (s.ses.batchSize.getD 0) = none := by
  obtain ⟨hat, -, hruns, hserved, -⟩ := h
  have hnext : t.nextBatchOf t.rgt = s.nextBatchOf t.rgt := (hat.nextBatchOf _).trans (hn _)
  obtain ⟨g, m, o, k, l', p, only⟩ := hat.only
  refine ⟨by rw [only], by rw [only], passRuns_congr he hruns, fun m hm hme => ?_⟩
  exact (hserved m hm ((he m hm).2 hme)).imp id hnext.symm.trans

/-- In RUNNING: COMPLETE when all is done, and else a pass over this lane (R34, R129). -/
theorem State.endBatch_running (h : s.lanes[n].batch = some b) (hw : s.WaitersAtWork n) (hst : s.ses.state = .running) :
    let t := s.endBatch n
    (s.RebuiltAfter n b → s.OthersIdle n → t.ses = { s.ses with state := .complete } ∧
      Noted s t (Event.bit .stateChange ||| Event.bit .rebuildComplete)) ∧
    (¬(s.RebuiltAfter n b ∧ s.OthersIdle n) → t.ses = s.ses ∧ EventsKept s t ∧
      (n.val < s.ses.laneCount →
        t.lanes[n].batch.isSome = true ∨ t.rgt.nextBatch s.profile.rs (s.ses.batchSize.getD 0) = none) ∧
      PassRuns (fun m => m.val < s.ses.laneCount) t [n] (s.rgtAfter n b)) := by
  intro t
  have hwst : (s.batchReported n b).ses.state = .running := (s.batchReported_state n b).trans hst
  have hreturned : (s.ses.state == .suspended) = false := by rw [hst]; rfl
  have ht : t = (s.batchReported n b).exitTests.passAfterBatch n false := by rw [← hreturned]; exact State.endBatch_eq h
  rw [← and_imp, ← hw.rebuildDone_iff]
  refine ⟨fun hd => ?_, fun hd => ?_⟩
  · rw [ht, (State.exitTests_running hwst).1 hd, State.passAfterBatch_of_not_running SessionState.noConfusion]
    exact hw.noted rfl (State.complete_noted _)
  · rw [(State.exitTests_running hwst).2 hd] at ht
    have hpassed := State.passAfterBatch_one hwst n
    rw [← ht] at hpassed
    have heligible : ∀ m ∈ [n], (s.batchReported n b).eligible m = true ↔ m.val < s.ses.laneCount := by
      intro m hm
      obtain rfl := List.mem_singleton.1 hm
      rw [State.eligible_iff, hw.idle_iff, hw.ses, hst]
      simp
    obtain ⟨hses, hmgp, hruns, hserved⟩ := hpassed.from_state heligible (s.batchReported_nextBatchOf n b)
    rw [s.batchReported_rgt] at hruns
    exact ⟨hses.trans hw.ses, .of_mgp (hmgp.trans (s.batchReported_mgp n b)), hserved n (List.mem_singleton_self n), hruns⟩

/-- In SUSPENDED: nothing while a lane holds, and else COMPLETE, or RUNNING with a pass over every IDLE lane (R30, R129). -/
theorem State.endBatch_suspended (h : s.lanes[n].batch = some b) (hw : s.WaitersAtWork n) (hst : s.ses.state = .suspended) :
    let t := s.endBatch n
    (s.holdingOrder ≠ [] → t.ses = s.ses ∧ EventsKept s t ∧ t.lanes[n].stage = .idle) ∧
    (s.holdingOrder = [] → s.RebuiltAfter n b → s.OthersIdle n → t.ses = { s.ses with state := .complete } ∧
      Noted s t (Event.bit .stateChange ||| Event.bit .rebuildComplete)) ∧
    (s.holdingOrder = [] → ¬(s.RebuiltAfter n b ∧ s.OthersIdle n) → t.ses = { s.ses with state := .running } ∧
      Noted s t (Event.bit .stateChange) ∧
      (∀ m : Fin 4, m = n ∨ s.lanes[m].stage = .idle → m.val < s.ses.laneCount →
        t.lanes[m].batch.isSome = true ∨ t.rgt.nextBatch s.profile.rs (s.ses.batchSize.getD 0) = none) ∧
      PassRuns (fun m => m.val < s.ses.laneCount ∧ (m = n ∨ s.lanes[m].stage = .idle)) t [0, 1, 2, 3] (s.rgtAfter n b)) := by
  intro t
  have hwst : (s.batchReported n b).ses.state = .suspended := (s.batchReported_state n b).trans hst
  have hreturned : (s.ses.state == .suspended) = true := by rw [hst]; rfl
  have ht : t = (s.batchReported n b).exitTests.passAfterBatch n true := by rw [← hreturned]; exact State.endBatch_eq h
  obtain ⟨hholding, hdone, hleft⟩ := State.exitTests_suspended hwst
  rw [s.batchReported_holdingOrder] at hholding hdone hleft
  refine ⟨fun ho => ?_, fun ho => ?_, fun ho => ?_⟩
  · rw [ht, hholding ho, State.passAfterBatch_of_not_running (by rw [hwst]; decide)]
    exact ⟨hw.ses, .of_mgp (s.batchReported_mgp n b), (hw.idle_iff n).2 (.inl rfl)⟩
  · rw [← and_imp, ← hw.rebuildDone_iff]
    intro hd
    rw [ht, hdone ho hd, State.passAfterBatch_of_not_running SessionState.noConfusion]
    exact hw.noted rfl (State.complete_noted _)
  · rw [← hw.rebuildDone_iff]
    intro hd
    rw [hleft ho hd] at ht
    have hpassed := State.passAfterBatch_all (State.changeState_state .running (s.batchReported n b)) n
    rw [← ht] at hpassed
    have heligible : ∀ m ∈ ([0, 1, 2, 3] : List (Fin 4)), ((s.batchReported n b).changeState .running).eligible m = true ↔
        m.val < s.ses.laneCount ∧ (m = n ∨ s.lanes[m].stage = .idle) := by
      intro m _
      rw [State.eligible_iff, State.changeState_lanes, hw.idle_iff, State.changeState_state, ← hw.ses (b := b)]
      exact ⟨fun ⟨hi, _, hlt⟩ => ⟨hlt, hi⟩, fun ⟨hlt, hi⟩ => ⟨hi, rfl, hlt⟩⟩
    obtain ⟨hses, hmgp, hruns, hserved⟩ := hpassed.from_state heligible (s.batchReported_nextBatchOf n b)
    rw [State.changeState_rgt, s.batchReported_rgt] at hruns
    obtain ⟨hses, hnoted⟩ := hw.noted hses (.before (State.changeState_noted .running _) (.of_mgp hmgp))
    exact ⟨hses, hnoted, fun m hm hlt => hserved m (List.mem_finRange (n := 4) m) ⟨hlt, hm⟩, hruns⟩

/-- In DRAINING: nothing while a lane is at work, and else COMPLETE or PAUSED (R31). -/
theorem State.endBatch_draining (h : s.lanes[n].batch = some b) (hw : s.WaitersAtWork n) (hst : s.ses.state = .draining) :
    let t := s.endBatch n
    (s.OthersIdle n → s.RebuiltAfter n b → t.ses = { s.ses with state := .complete } ∧
      Noted s t (Event.bit .stateChange ||| Event.bit .rebuildComplete)) ∧
    (s.OthersIdle n → ¬s.RebuiltAfter n b → t.ses = { s.ses with state := .paused } ∧ Noted s t (Event.bit .stateChange)) ∧
    (¬s.OthersIdle n → t.ses = s.ses ∧ EventsKept s t) := by
  intro t
  have hwst : (s.batchReported n b).ses.state = .draining := (s.batchReported_state n b).trans hst
  have ht : t = (s.batchReported n b).exitTests :=
    State.endBatch_without_pass h (by rw [hst]; decide) (by rw [hst]; decide)
  obtain ⟨hidle, hbusy⟩ := State.exitTests_draining hwst
  have hor := State.completeOr_eq (s := s.batchReported n b) .paused
  rw [hw.allIdle_iff] at hidle
  rw [ne_eq, hw.allIdle_iff] at hbusy
  rw [s.batchReported_rgt] at hor
  refine ⟨fun hi hr => ?_, fun hi hr => ?_, fun hi => ?_⟩
  · rw [ht, hidle hi, hor.1 hr]
    exact hw.noted rfl (State.complete_noted _)
  · rw [ht, hidle hi, hor.2 hr]
    exact hw.noted rfl (State.changeState_noted _ _)
  · rw [ht, hbusy hi]
    exact ⟨hw.ses, .of_mgp (s.batchReported_mgp n b)⟩

/-- In STEPPING the end of LN0's batch is the end of the step: COMPLETE or PAUSED, with STEP_DONE (R33). -/
theorem State.endBatch_stepping {b : Batch} (h : s.lanes[(0 : Fin 4)].batch = some b) (hw : s.WaitersAtWork 0)
    (hst : s.ses.state = .stepping) :
    let t := s.endBatch 0
    (s.RebuiltAfter 0 b → t.ses = { s.ses with state := .complete } ∧
      Noted s t (Event.bit .stateChange ||| Event.bit .rebuildComplete ||| Event.bit .stepDone)) ∧
    (¬s.RebuiltAfter 0 b → t.ses = { s.ses with state := .paused } ∧
      Noted s t (Event.bit .stateChange ||| Event.bit .stepDone)) := by
  intro t
  have hwst : (s.batchReported 0 b).ses.state = .stepping := (s.batchReported_state 0 b).trans hst
  have ht : t = ((s.batchReported 0 b).setEvent .stepDone).completeOr .paused :=
    (State.endBatch_without_pass h (by rw [hst]; decide) (by rw [hst]; decide)).trans
      ((State.exitTests_stepping hwst).1 ((hw.idle_iff 0).2 (.inl rfl)))
  have hor := State.completeOr_eq (s := (s.batchReported 0 b).setEvent .stepDone) .paused
  rw [State.setEvent_rgt, s.batchReported_rgt] at hor
  have hstep := (s.batchReported 0 b).setEvent_noted .stepDone
  refine ⟨fun hr => ?_, fun hr => ?_⟩
  · rw [ht, hor.1 hr, BitVec.or_comm _ (Event.bit .stepDone)]
    exact hw.noted rfl (hstep.trans (State.complete_noted _))
  · rw [ht, hor.2 hr, BitVec.or_comm _ (Event.bit .stepDone)]
    exact hw.noted rfl (hstep.trans (State.changeState_noted _ _))

/-- Where the lane's buffers and the held locks are, whatever state the session is in (R102, R113). -/
theorem State.endBatch_places (h : s.lanes[n].batch = some b) (hw : s.WaitersAtWork n) :
    (s.endBatch n).sbp.quarantineHold = s.sbp.quarantineHold ++ s.lanes[n].bufs.filter s.mru.namesQuarantined ∧
      (∀ e ∈ s.slk.held, e.owner ≠ .lane n → e ∈ (s.endBatch n).slk.held) ∧
      (s.ses.state ≠ .running → s.ses.state ≠ .suspended → ∀ e ∈ (s.endBatch n).slk.held, e.owner ≠ .lane n) := by
  have hleft := hw.left b
  have hn : ¬s.atWork n (.lane n) := fun hp => (State.atWork_lane_iff.1 hp).1 rfl
  have hexit := (s.batchReported n b).exitTests_session
  have hplaces : (s.batchReported n b).PlacesKept (s.endBatch n) := by
    rw [State.endBatch_eq h]
    exact hexit.places.trans (State.passAfterBatch_kept _ _ _).2
  refine ⟨hplaces.hold.trans (hleft.hold hn), fun e he hne => hplaces.held e (hleft.granted.held e he hne), fun hr hs => ?_⟩
  rw [State.endBatch_without_pass h hr hs]
  obtain ⟨st, m, hexit⟩ := hexit
  rw [hexit]
  exact hleft.released hn

end Waiters

/-! ## The end of a batch while nothing waits -/

theorem State.scanLocks_of_nil {s : State} (h : s.slk.waiting = []) : s.scanLocks = s := by
  rw [State.scanLocks, h]
  rfl

theorem State.scanBuffers_of_nil {s : State} (h : s.sbp.waiting = []) : s.scanBuffers = s := by
  rw [State.scanBuffers, h]
  rfl

theorem State.laneCleared_of_nil {s : State} (hl : s.slk.waiting = []) (hb : s.sbp.waiting = []) (n : Fin 4) :
    s.laneCleared n = ((s.giveUpBatch n).giveUpBuffers n).clearLane n := by
  have hl' : (s.giveUpBatch n).scanLocks = s.giveUpBatch n := State.scanLocks_of_nil hl
  have hb' : ((s.giveUpBatch n).giveUpBuffers n).scanBuffers = (s.giveUpBatch n).giveUpBuffers n :=
    State.scanBuffers_of_nil hb
  rw [State.laneCleared, hl', hb']

/-- The lock and the buffers leave the lane, and nothing else changes at SLK, SBP, MRU, RTU or another lane (R113, R129). -/
theorem State.endBatch_of_nil {s : State} {n : Fin 4} {b : Batch} (h : s.lanes[n].batch = some b) (hl : s.slk.waiting = [])
    (hb : s.sbp.waiting = []) (hr : s.ses.state ≠ .running) (hs : s.ses.state ≠ .suspended) :
    let t := s.endBatch n
    t.slk = { held := s.slk.held.filter (fun e => e.owner != .lane n), waiting := [] } ∧ t.sbp.waiting = [] ∧
      (∀ buf, buf ∈ t.sbp.free ↔
        buf ∈ s.sbp.free ∨ (buf ∈ s.lanes[n].bufs ∧ s.mru.namesQuarantined buf = false)) ∧
      (∀ m : Fin 4, m ≠ n → t.lanes[m] = s.lanes[m]) ∧ t.mru = s.mru ∧ t.rtu = s.rtu ∧ t.mem = s.mem := by
  have hbufs : (s.giveUpBatch n).lanes[n].bufs = s.lanes[n].bufs := by rw [s.giveUpBatch_lane]
  have hfree := (s.giveUpBatch n).returnSet_returned (s.giveUpBatch n).lanes[n].bufs
  have hothers := (State.batchReported_left (p := fun _ => False) (s := s) (n := n) (by simp [hl]) (by simp [hb]) b).granted.others
  have hreported := s.laneCleared_of_nil hl hb n
  rw [State.endBatch_without_pass h hr hs]
  obtain ⟨st, m, hexit⟩ := (s.batchReported n b).exitTests_session
  rw [hexit]
  refine ⟨?_, ?_, fun buf => ?_, fun m hm => hothers m hm id, ?_, ?_, ?_⟩
  all_goals
    dsimp only
    rw [State.batchReported, State.reportBatch_eq, hreported]
  · exact congrArg (fun w => ({ held := s.slk.held.filter (fun e => e.owner != .lane n), waiting := w } : Slk)) hl
  · exact hb
  · refine (hfree.free buf).trans ?_
    rw [hbufs]
    rfl
  · rfl
  · rfl
  · rfl

/-- Settles O26: the counts and the region test for any state, and then, while only others wait, each of the session's states. -/
theorem batchEndCountsAndClears : Obligations.BatchEndCountsAndClears := by
  refine ⟨fun n s b h => ?_, fun region s r hr => State.testRegion_cases hr, ?_⟩
  · obtain ⟨hstripes, houtcome, hlrl⟩ := State.endBatch_counts h
    refine ⟨hstripes, houtcome, hlrl, fun hr hs => ?_⟩
    rw [State.endBatch_lane_idle h hr hs]
    exact ⟨rfl, rfl, rfl⟩
  intro n s b h hw t named after counted rebuilt idle complete completed served
  have hcounted : s.rgtAfter n b = counted := State.rgtAfter_eq n b s
  have hrebuilt : s.RebuiltAfter n b ↔ rebuilt := by rw [State.RebuiltAfter, State.rgtAfter_regions]
  have hrunning := State.endBatch_running h hw
  have hsuspended := State.endBatch_suspended h hw
  have hdraining := State.endBatch_draining h hw
  rw [hrebuilt, hcounted] at hrunning hsuspended
  rw [hrebuilt] at hdraining
  refine ⟨State.endBatch_places h hw, State.endBatch_of_nil h, hrunning, hsuspended, fun hr hs => ?_, hdraining, ?_⟩
  · obtain ⟨st, m, hexit⟩ := (s.batchReported n b).exitTests_session
    refine (congrArg State.rgt ((State.endBatch_without_pass h hr hs).trans hexit)).trans ?_
    exact (s.batchReported_rgt n b).trans hcounted
  · rintro hst rfl
    rw [← hrebuilt]
    exact State.endBatch_stepping h hw hst

end Sys2Proof.Machine
end

section
/-! The Route Port: a route request is read as it was written, joins the request queue or is discarded, and is taken in its turn;
the front path reads the answers. -/

namespace Sys2Proof.Machine

/-! ## Route requests read as they are written (R207) -/

/-- The two ways to lay a 32-bit field out agree. -/
theorem bytes32_eq_leBytes (v : BitVec 32) : bytes32 v = leBytes 4 v.toNat := by
  have byte (o : Nat) : v.extractLsb' o 8 = BitVec.ofNat 8 (v.toNat / 2 ^ o) := by
    rw [BitVec.extractLsb', Nat.shiftRight_eq_div_pow]
  simp only [bytes32, leBytes, byte, Nat.div_div_eq_div_mul, Nat.reducePow, Nat.reduceMul, Nat.div_one]

theorem ofNat_leNat_bytes32 (v : BitVec 32) : BitVec.ofNat 32 (leNat (bytes32 v)) = v := by
  rw [bytes32_eq_leBytes, leNat_leBytes v.isLt, BitVec.ofNat_toNat, BitVec.setWidth_eq]

theorem length_flatMap_bytes32 (listed : List (BitVec 32)) : (listed.flatMap bytes32).length = 4 * listed.length := by
  induction listed with
  | nil => rfl
  | cons v rest ih =>
    rw [List.flatMap_cons, List.length_append, ih, bytes32_eq_leBytes, length_leBytes, List.length_cons]
    omega

theorem readStripes_flatMap_bytes32 (listed : List (BitVec 32)) : readStripes (listed.flatMap bytes32) = listed := by
  induction listed with
  | nil => rfl
  | cons v rest ih => exact congrArg₂ List.cons (ofNat_leNat_bytes32 v) ih

theorem ListsAsCounted.listBytes_eq {r : RouteRequest} (h : ListsAsCounted r) :
    (r.listed.flatMap bytes32).length = listBytes r.kind r.overCount := by
  obtain ⟨hrelease, hother⟩ := h
  rw [length_flatMap_bytes32, listBytes]
  split
  case isTrue hk => rw [hrelease hk]
  case isFalse hk => rw [hother hk, List.length_nil, Nat.mul_zero]

theorem RouteRequest.read_routeMessage {r : RouteRequest} (h : ListsAsCounted r) :
    RouteRequest.read (routeMessage r) = some r := by
  have hfirst := ofNat_leNat_bytes32 r.first
  have hlisted := readStripes_flatMap_bytes32 r.listed
  simp only [bytes32] at hfirst
  simp only [routeMessage, bytes32, List.cons_append, List.nil_append, RouteRequest.read]
  refine (if_pos h.listBytes_eq).trans ?_
  rw [hfirst]
  exact congrArg (fun listed => some { r with listed := listed }) hlisted

theorem exec_routeRequestArrival {r : RouteRequest} (h : ListsAsCounted r) (s : State) :
    exec (.routeRequestArrival (routeMessage r)) s = .next (s.requestArrives r) :=
  execRouteRequestArrival_of_read (RouteRequest.read_routeMessage h) s

/-! ## The request queue (R70, R71) -/

theorem State.setEvent_eq_noting (e : Event) (s : State) : s.setEvent e = s.noting e.bit := rfl

theorem State.queueRequest_of_room {s : State} (h : s.rtu.requests.length < 32) (r : RouteRequest) :
    s.queueRequest r = { s with rtu := { s.rtu with requests := s.rtu.requests ++ [r] } } := if_pos h

theorem State.queueRequest_of_full {s : State} (h : 32 ≤ s.rtu.requests.length) (r : RouteRequest) :
    s.queueRequest r = s.noting (Event.bit .routeOverrun) := (if_neg (Nat.not_lt.2 h)).trans (s.setEvent_eq_noting _)

theorem State.takeRequests_of_nil {s : State} (h : s.rtu.requests = []) : s.takeRequests = s := by
  rw [State.takeRequests, h]
  rfl

theorem Rtu.hasRoom_iff (r : Rtu) : r.hasRoom = true ↔ r.answers.length + r.reservations < 64 := decide_eq_true_iff

/-- The head request leaves the queue and is taken; taking it leaves the rest of the queue, so that the fuel suffices. -/
theorem State.takeRequests_of_cons {s : State} {r : RouteRequest} {rest : List RouteRequest} (h : s.rtu.requests = r :: rest)
    (hroom : s.rtu.answers.length + s.rtu.reservations < 64) :
    s.takeRequests = (({ s with rtu := { s.rtu with requests := rest } } : State).takeRequest r).takeRequests := by
  have hdrop : s.updRtu Rtu.dropHead = { s with rtu := { s.rtu with requests := rest } } := by
    simp only [State.updRtu, Rtu.dropHead, h, List.tail_cons]
  obtain ⟨-, -, hrest, -⟩ := ({ s with rtu := { s.rtu with requests := rest } } : State).takeRequest_only r
  rw [State.takeRequests, State.takeRequests, hrest, h, List.length_cons]
  simp only [State.takeRequestsFuel, h, if_pos ((Rtu.hasRoom_iff _).2 hroom), hdrop]

theorem State.takeRequests_of_no_room {s : State} (h : 64 ≤ s.rtu.answers.length + s.rtu.reservations) :
    s.takeRequests = s := by
  have hroom : ¬s.rtu.hasRoom = true := fun hr => Nat.not_lt.2 h ((Rtu.hasRoom_iff _).1 hr)
  cases hq : s.rtu.requests with
  | nil => exact State.takeRequests_of_nil hq
  | cons r rest =>
    rw [State.takeRequests, hq]
    simp only [List.length_cons, State.takeRequestsFuel, hq, if_neg hroom]

/-- Settles O33: with room the request joins the tail, and otherwise the event is noted; then RTU takes what it can. -/
theorem requestQueuesOrIsDiscarded : Obligations.RequestQueuesOrIsDiscarded := by
  intro r s hlist done
  have hdone : done = .next (s.requestArrives r) := exec_routeRequestArrival hlist s
  rw [hdone]
  refine ⟨fun hroom => ⟨_, rfl, ?_⟩, fun hfull => ?_⟩
  · rw [State.requestArrives, State.queueRequest_of_room (s := s.beginEvent) hroom]
    rfl
  have hdiscarded : s.requestArrives r = (s.beginEvent.noting (Event.bit .routeOverrun)).takeRequests := by
    rw [State.requestArrives, State.queueRequest_of_full (s := s.beginEvent) hfull]
  rw [hdiscarded]
  refine ⟨⟨_, rfl, rfl⟩, fun hanswers => ⟨_, rfl, ?_⟩⟩
  rw [State.takeRequests_of_no_room (s := s.beginEvent.noting _) hanswers]
  rfl

/-! ## A request taken at once (R71, R207) -/

/-- What a ready port makes of a request is what RTU makes of it on the state with nothing sent. -/
theorem becomes_of_takeRequest {s u : State} {r : RouteRequest} (hs : s.RouteReady)
    (h : (s.beginEvent.takeRequest r).Matches u) : Becomes (.next (s.requestArrives r)) u :=
  ⟨_, rfl, by rwa [State.requestArrives_ready hs]⟩

theorem State.takeRequest_of_unknown_kind {r : RouteRequest} (hquery : r.kind ≠ 1) (hclaim : r.kind ≠ 2)
    (hrelease : r.kind ≠ 3) (s : State) : s.takeRequest r = s.takeUnknownKind r :=
  (if_neg hquery).trans ((if_neg hclaim).trans (if_neg hrelease))

/-! ## The reading of answers (R72) -/

theorem exec_answerRead_of_nil {s : State} (h : s.rtu.answers = []) :
    exec .answerRead s = .next { s with sent := [.answer [0, 0, 0, 0, 0, 0, 0, 0]] } := by
  show Host.Outcome.next s.beginEvent.readAnswer = _
  rw [State.readAnswer, State.beginEvent_rtu, h]
  rfl

theorem exec_answerRead_of_cons {s : State} {a : Answer} {rest : List Answer} (h : s.rtu.answers = a :: rest) :
    exec .answerRead s =
      .next ({ s with rtu := { s.rtu with answers := rest }, sent := [.answer a.bytes] } : State).takeRequests := by
  show Host.Outcome.next s.beginEvent.readAnswer = _
  rw [State.readAnswer, State.beginEvent_rtu, h]
  rfl

/-- Settles O34: the taking of requests, the reading of answers, and the answer to a request of unknown kind. -/
theorem requestsTakenAndAnswersRead : Obligations.RequestsTakenAndAnswersRead := by
  refine ⟨fun s h => h.elim State.takeRequests_of_nil State.takeRequests_of_no_room,
    fun s r rest => State.takeRequests_of_cons, fun s => exec_answerRead_of_nil, fun s a rest => exec_answerRead_of_cons, ?_⟩
  intro r s hs hquery hclaim hrelease hlist
  refine ⟨(Config.unknownKindStripe s.freeCount).toNat, BitVec.isLt _, fun i hi => ?_⟩
  have harrives : exec i s = .next (s.requestArrives r) := by
    obtain rfl | rfl := hi
    · rfl
    · exact exec_routeRequestArrival hlist s
  rw [harrives]
  refine becomes_of_takeRequest hs ?_
  rw [State.takeRequest_of_unknown_kind hquery hclaim hrelease]
  rfl

end Sys2Proof.Machine
end

section
/-! QUERY and the dispositions: the checks of R75, and what Table 4-3 and the records make of a stripe (R77, R78). -/

namespace Sys2Proof.Machine

/-! ## QUERY (R75, R81) -/

theorem SessionState.isEnded_iff (st : SessionState) : st.isEnded = true ↔ st = .failed ∨ st = .broken := by
  simp [SessionState.isEnded]

theorem Profile.rangeFits_iff (p : Profile) (first count : Nat) :
    p.rangeFits first count = true ↔ 1 ≤ count ∧ count ≤ 16 ∧ first + count ≤ p.t := by
  simp [Profile.rangeFits, and_assoc]

section Query

variable {s : State} {first count : Nat}

theorem State.queryProblem_of_absent (h : s.ses.state = .absent) : s.queryProblem first count = some .noSession := if_pos h

theorem State.queryProblem_of_ended (h : s.ses.state = .failed ∨ s.ses.state = .broken) :
    s.queryProblem first count = some .spareVoid := by
  have habsent : s.ses.state ≠ .absent := by rintro ha; simp [ha] at h
  rw [State.queryProblem, if_neg habsent, if_pos ((SessionState.isEnded_iff _).2 h)]

/-- Past the checks of the session the range alone decides. -/
theorem State.queryProblem_of_session (habsent : s.ses.state ≠ .absent)
    (hended : ¬(s.ses.state = .failed ∨ s.ses.state = .broken)) :
    s.queryProblem first count = if !s.profile.rangeFits first count then some .range else none := by
  rw [State.queryProblem, if_neg habsent, if_neg (mt (SessionState.isEnded_iff _).1 hended)]

theorem State.queryProblem_of_range (habsent : s.ses.state ≠ .absent)
    (hended : ¬(s.ses.state = .failed ∨ s.ses.state = .broken))
    (hfits : ¬(1 ≤ count ∧ count ≤ 16 ∧ first + count ≤ s.profile.t)) : s.queryProblem first count = some .range := by
  rw [State.queryProblem_of_session habsent hended, if_pos]
  simpa using mt (Profile.rangeFits_iff _ _ _).1 hfits

theorem State.queryProblem_of_fits (habsent : s.ses.state ≠ .absent)
    (hended : ¬(s.ses.state = .failed ∨ s.ses.state = .broken))
    (hfits : 1 ≤ count ∧ count ≤ 16 ∧ first + count ≤ s.profile.t) : s.queryProblem first count = none := by
  rw [State.queryProblem_of_session habsent hended, (Profile.rangeFits_iff _ _ _).2 hfits]
  rfl

theorem State.takeQuery_of_problem {status : RouteStatus} (h : s.queryProblem first count = some status) (tag : Byte) :
    s.takeQuery tag first count = s.answer (plainAnswer tag kindQuery status first) := by rw [State.takeQuery, h]

theorem State.takeQuery_of_none (h : s.queryProblem first count = none) (tag : Byte) :
    s.takeQuery tag first count = (s.answer (s.reportedAnswer tag first count)).contribute first count := by
  rw [State.takeQuery, h]

theorem State.dispositions_eq_map_range (s : State) (first count : Nat) :
    s.dispositions first count = (List.range count).map fun j => s.disposition (first + j) := by
  rw [State.dispositions, List.range'_eq_map_range, List.map_map]
  rfl

end Query

/-- A QUERY at a ready port is RTU's on the state with nothing sent. -/
theorem becomes_of_takeQuery {s u : State} {tag count : Byte} {first : BitVec 32} (hs : s.RouteReady)
    (h : (s.beginEvent.takeQuery tag first.toNat count.toNat).Matches u) : Becomes (exec (.query tag count first) s) u :=
  becomes_of_takeRequest (r := rangeRequest kindQuery tag count first) hs h

/-- Settles O35: each check that fails gives its refusal, and a QUERY that passes them is reported and adds heat. -/
theorem queryAnswered : Obligations.QueryAnswered := by
  intro tag count first s hs done refusal ended fits
  have refused {status : RouteStatus} (h : s.beginEvent.queryProblem first.toNat count.toNat = some status) :
      Becomes done (refusal status) := by
    refine becomes_of_takeQuery hs ?_
    rw [State.takeQuery_of_problem h]
    rfl
  refine ⟨fun habsent => refused (State.queryProblem_of_absent habsent),
    fun hended => refused (State.queryProblem_of_ended hended),
    fun habsent hended hfits => refused (State.queryProblem_of_range habsent hended hfits),
    fun habsent hended hfits => becomes_of_takeQuery hs ?_⟩
  rw [State.takeQuery_of_none (State.queryProblem_of_fits (s := s.beginEvent) habsent hended hfits), State.reportedAnswer,
    State.dispositions_eq_map_range]
  rfl

/-! ## The lane that holds a stripe (R77) -/

/-- The lane's batch holds the stripe. -/
def Lane.Holds (stripe : Nat) (l : Lane) : Prop := ∃ b, l.batch = some b ∧ b.first ≤ stripe ∧ stripe < b.first + b.length

theorem Lane.any_covers_iff (stripe : Nat) (l : Lane) :
    (l.batch.any fun b => b.covers stripe) = true ↔ l.Holds stripe := by
  simp [Lane.Holds, Batch.covers, Option.any_eq_true]

theorem State.laneOf_of_none {s : State} {stripe : Nat} (h : ∀ n : Fin 4, ¬s.lanes[n].Holds stripe) :
    s.laneOf stripe = none :=
  List.find?_eq_none.2 fun n _ hn => h n ((Lane.any_covers_iff _ _).1 hn)

theorem State.holds_of_laneOf {s : State} {stripe : Nat} {n : Fin 4} (h : s.laneOf stripe = some n) :
    s.lanes[n].Holds stripe := by
  rw [State.laneOf] at h
  have hcovers := List.find?_some h
  exact (Lane.any_covers_iff _ _).1 hcovers

theorem State.laneOf_of_unique {s : State} {stripe : Nat} {n : Fin 4} (h : s.lanes[n].Holds stripe)
    (hothers : ∀ m : Fin 4, m ≠ n → ¬s.lanes[m].Holds stripe) : s.laneOf stripe = some n := by
  cases hl : s.laneOf stripe with
  | none => exact absurd ((Lane.any_covers_iff _ _).2 h) (List.find?_eq_none.1 hl n (List.mem_finRange n))
  | some m => exact congrArg some (by_contra fun hne => hothers m hne (State.holds_of_laneOf hl))

/-! ## The first step (R77) -/

section FirstStep

variable {s : State} {stripe : Nat} {r : Region} (hr : s.rgt.regions[stripe / s.profile.rs]? = some r)

include hr

theorem State.firstStep_of_stale (h : r.state = .stale) : s.firstStep stripe = .stale := by
  simp [State.firstStep, Profile.regionOf, hr, h]

theorem State.firstStep_of_rebuilt (h : r.state = .rebuilt) : s.firstStep stripe = .rebuilt := by
  simp [State.firstStep, Profile.regionOf, hr, h]

/-- From the issue mark on no stripe of an ACTIVE region has been handed out. -/
theorem State.firstStep_of_not_issued (h : r.state = .active)
    (hmark : r.issueMark ≤ stripe - stripe / s.profile.rs * s.profile.rs) : s.firstStep stripe = .stale := by
  simp [State.firstStep, Profile.regionOf, hr, h, hmark]

theorem State.firstStep_of_lane {n : Fin 4} (h : r.state = .active)
    (hmark : stripe - stripe / s.profile.rs * s.profile.rs < r.issueMark) (hn : s.laneOf stripe = some n) :
    s.firstStep stripe = s.lanes[n].stage.report := by
  simp [State.firstStep, Profile.regionOf, hr, h, Nat.not_le.2 hmark, hn]

theorem State.firstStep_of_no_lane (h : r.state = .active)
    (hmark : stripe - stripe / s.profile.rs * s.profile.rs < r.issueMark) (hn : s.laneOf stripe = none) :
    s.firstStep stripe = .rebuilt := by
  simp [State.firstStep, Profile.regionOf, hr, h, Nat.not_le.2 hmark, hn]

end FirstStep

/-! ## The entry (R76, R78) -/

section Entry

variable {s : State} {stripe : Nat}

theorem State.disposition_of_stale (h : s.firstStep stripe = .stale) :
    s.disposition stripe = { disposition := .stale, lost := 0, suspect := 0 } := by rw [State.disposition, h]

theorem State.disposition_of_locked (h : s.firstStep stripe = .locked) :
    s.disposition stripe = { disposition := .locked, lost := 0, suspect := 0 } := by rw [State.disposition, h]

theorem State.disposition_of_rebuilt (h : s.firstStep stripe = .rebuilt) :
    s.disposition stripe = recordEntry (s.lrl.find stripe) := by rw [State.disposition, h]

theorem Lrl.find_of_absent {l : Lrl} (h : ∀ x ∈ l.records, x.stripe ≠ stripe) : l.find stripe = none :=
  List.find?_eq_none.2 fun x hx => by simpa using h x hx

theorem recordEntry_of_lost {x : Record} (h : x.lost ≠ 0) :
    recordEntry (some x) = { disposition := .lost, lost := x.lost, suspect := x.suspect } := if_pos h

theorem recordEntry_of_suspect {x : Record} (h : x.lost = 0) :
    recordEntry (some x) = { disposition := .suspect, lost := 0, suspect := x.suspect } := if_neg (not_not.2 h)

end Entry

/-- Settles O36: the rows of Table 4-3 by the first step, and the record of a stripe that it finds rebuilt. -/
theorem dispositionOfAStripe : Obligations.DispositionOfAStripe := by
  intro s stripe r hr offset holds plain rebuilt
  have hrebuilt (h : rebuilt) : s.disposition stripe = recordEntry (s.lrl.find stripe) := by
    refine State.disposition_of_rebuilt ?_
    obtain hstate | ⟨hstate, hmark, hnone⟩ := h
    · exact State.firstStep_of_rebuilt hr hstate
    · exact State.firstStep_of_no_lane hr hstate hmark (State.laneOf_of_none hnone)
  refine ⟨fun hstate => State.disposition_of_stale (State.firstStep_of_stale hr hstate),
    fun hstate hmark => State.disposition_of_stale (State.firstStep_of_not_issued hr hstate hmark),
    fun n hstate hmark hn hothers => ?_, fun h hnone => ?_, fun x h hx => ?_⟩
  · have hstep := State.firstStep_of_lane hr hstate hmark (State.laneOf_of_unique hn hothers)
    refine ⟨fun hstage => State.disposition_of_stale ?_, fun hstage => State.disposition_of_locked ?_⟩
    · obtain h | h := hstage <;> rw [hstep, h] <;> rfl
    · obtain h | h | h | h | h := hstage <;> rw [hstep, h] <;> rfl
  · rw [hrebuilt h, Lrl.find_of_absent hnone]
    rfl
  · have hfind : s.lrl.find stripe = some x := hx
    rw [hrebuilt h, hfind]
    exact ⟨recordEntry_of_lost, recordEntry_of_suspect⟩

end Sys2Proof.Machine
end

section
/-! SLK's grant rule on lists of entries (R88 to R91): what a grant and a scan keep of the held table and the wait list. -/

namespace Sys2Proof.Machine

/-! ## The conditions of R90 -/

theorem LockEntry.Clashes.symm {a b : LockEntry} (h : a.Clashes b) : b.Clashes a := by
  obtain ⟨⟨stripe, ha, hb⟩, hclaims⟩ := h
  exact ⟨⟨stripe, hb, ha⟩, fun hc => hclaims hc.symm⟩

/-- A held table in which no two entries clash and each class keeps to its held slots (R88, R89). -/
structure HeldApart (held : List LockEntry) : Prop where
  apart : held.Pairwise fun a b => ¬a.Clashes b
  claims : (held.filter fun e => e.owner.isClaim).length ≤ 60
  lanes : (held.filter fun e => !e.owner.isClaim).length ≤ 4

/-- No request of the wait list meets the three conditions of R90 (R92). -/
def NoneGrantable (held waiting : List LockEntry) : Prop :=
  ∀ older e younger, waiting = older ++ e :: younger → ¬MayBeGranted held older e

theorem State.locksApart_iff (s : State) :
    s.LocksApart ↔ HeldApart s.slk.held ∧ NoneGrantable s.slk.held s.slk.waiting :=
  ⟨fun ⟨hapart, hclaims, hlanes, hnone⟩ => ⟨⟨hapart, hclaims, hlanes⟩, hnone⟩,
    fun ⟨⟨hapart, hclaims, hlanes⟩, hnone⟩ => ⟨hapart, hclaims, hlanes, hnone⟩⟩

/-- A longer held table grants no more. -/
theorem MayBeGranted.of_append {held more older : List LockEntry} {e : LockEntry} (h : MayBeGranted (held ++ more) older e) :
    MayBeGranted held older e := by
  obtain ⟨hheld, holder, hroom⟩ := h
  refine ⟨fun x hx => hheld x (List.mem_append_left _ hx), holder, lt_of_le_of_lt ?_ hroom⟩
  rw [classHeld, classHeld, List.filter_append, List.length_append]
  exact Nat.le_add_right _ _

theorem NoneGrantable.nil (held : List LockEntry) : NoneGrantable held [] := by
  intro older e younger h
  simp at h

theorem NoneGrantable.append_held {held waiting : List LockEntry} (h : NoneGrantable held waiting) (more : List LockEntry) :
    NoneGrantable (held ++ more) waiting :=
  fun older e younger hw hg => h older e younger hw hg.of_append

/-- A request that may not be granted joins the tail of the wait list. -/
theorem NoneGrantable.append {held waiting : List LockEntry} {e : LockEntry} (h : NoneGrantable held waiting)
    (he : ¬MayBeGranted held waiting e) : NoneGrantable held (waiting ++ [e]) := by
  intro older x younger hw
  rcases List.eq_nil_or_concat younger with rfl | ⟨front, last, rfl⟩
  · obtain ⟨rfl, hx⟩ := List.append_inj' hw rfl
    obtain rfl := List.singleton_inj.1 hx
    exact he
  · rw [List.concat_eq_append, ← List.cons_append, ← List.append_assoc] at hw
    exact h older x front (List.append_inj' hw rfl).1

theorem HeldApart.nil : HeldApart [] := ⟨.nil, Nat.zero_le _, Nat.zero_le _⟩

theorem HeldApart.filter {held : List LockEntry} (h : HeldApart held) (p : LockEntry → Bool) : HeldApart (held.filter p) :=
  ⟨h.apart.filter p, (List.filter_sublist.filter _).length_le.trans h.claims,
    (List.filter_sublist.filter _).length_le.trans h.lanes⟩

/-- An entry granted by R90 joins the held table. -/
theorem HeldApart.append {held older : List LockEntry} {e : LockEntry} (h : HeldApart held) (he : MayBeGranted held older e) :
    HeldApart (held ++ [e]) := by
  obtain ⟨hclash, -, hroom⟩ := he
  have hpair : (held ++ [e]).Pairwise fun a b => ¬a.Clashes b :=
    List.pairwise_append.2 ⟨h.apart, List.pairwise_singleton _ _, fun a ha b hb hab =>
      hclash a ha (List.mem_singleton.1 hb ▸ hab.symm)⟩
  cases hk : e.owner.isClaim with
  | true => exact ⟨hpair, by simpa [List.filter_append, classHeld, hk] using hroom, by simpa [hk] using h.lanes⟩
  | false => exact ⟨hpair, by simpa [hk] using h.claims, by simpa [List.filter_append, classHeld, hk] using hroom⟩

/-! ## A scan (R91) -/

theorem ScanRuns.heldApart {rest held older granted stay : List LockEntry} (h : ScanRuns rest held older granted stay)
    (hh : HeldApart held) : HeldApart (held ++ granted) := by
  induction rest generalizing held older granted with
  | nil =>
    obtain ⟨rfl, -⟩ := h
    rwa [List.append_nil]
  | cons e rest ih =>
    obtain ⟨hg, g, rfl, hr⟩ | ⟨-, hr⟩ := h
    · rw [List.append_cons]
      exact ih hr (hh.append hg)
    · exact ih hr hh

/-- A scan leaves nothing that may be granted. -/
theorem ScanRuns.noneGrantable {rest held older granted stay : List LockEntry} (h : ScanRuns rest held older granted stay)
    (hn : NoneGrantable held older) : NoneGrantable (held ++ granted) stay := by
  induction rest generalizing held older granted with
  | nil =>
    obtain ⟨rfl, rfl⟩ := h
    rwa [List.append_nil]
  | cons e rest ih =>
    obtain ⟨-, g, rfl, hr⟩ | ⟨hg, hr⟩ := h
    · rw [List.append_cons]
      exact ih hr (hn.append_held _)
    · exact ih hr (hn.append hg)

theorem ScanRuns.granted_sublist {rest held older granted stay : List LockEntry} (h : ScanRuns rest held older granted stay) :
    granted.Sublist rest := by
  induction rest generalizing held older granted with
  | nil => exact h.1 ▸ .refl _
  | cons e rest ih =>
    obtain ⟨-, g, rfl, hr⟩ | ⟨-, hr⟩ := h
    · exact (ih hr).cons_cons e
    · exact (ih hr).cons e

theorem ScanRuns.stay_sublist {rest held older granted stay : List LockEntry} (h : ScanRuns rest held older granted stay) :
    stay.Sublist (older ++ rest) := by
  induction rest generalizing held older granted with
  | nil => rw [List.append_nil, h.2]
  | cons e rest ih =>
    obtain ⟨-, g, rfl, hr⟩ | ⟨-, hr⟩ := h
    · exact (ih hr).trans ((List.sublist_cons_self e rest).append_left older)
    · rw [List.append_cons]
      exact ih hr

theorem ScanRuns.perm {rest held older granted stay : List LockEntry} (h : ScanRuns rest held older granted stay) :
    (granted ++ stay).Perm (older ++ rest) := by
  induction rest generalizing held older granted with
  | nil =>
    obtain ⟨rfl, rfl⟩ := h
    simp
  | cons e rest ih =>
    obtain ⟨-, g, rfl, hr⟩ | ⟨-, hr⟩ := h
    · exact ((ih hr).cons e).trans List.perm_middle.symm
    · rw [List.append_cons]
      exact ih hr

/-- What a scan grants clashes with nothing held before it, nor with one another (R90). -/
theorem ScanRuns.not_clashes {rest held older granted stay : List LockEntry} (h : ScanRuns rest held older granted stay) :
    (∀ e ∈ granted, ∀ x ∈ held, ¬e.Clashes x) ∧ granted.Pairwise fun a b => ¬a.Clashes b := by
  induction rest generalizing held older granted with
  | nil => simp [h.1]
  | cons e rest ih =>
    obtain ⟨⟨hclash, -, -⟩, g, rfl, hr⟩ | ⟨-, hr⟩ := h
    · obtain ⟨hheld, hpair⟩ := ih hr
      refine ⟨fun x hx y hy => ?_, List.pairwise_cons.2 ⟨fun x hx hc => ?_, hpair⟩⟩
      · rcases List.mem_cons.1 hx with rfl | hx
        · exact hclash y hy
        · exact hheld x hx y (List.mem_append_left _ hy)
      · exact hheld x hx e (List.mem_append_right _ (List.mem_singleton_self e)) hc.symm
    · exact ih hr

end Sys2Proof.Machine
end

section
/-! A scan of SLK's wait list: which requests it grants, and what their owners are given (R91, R95, R116). -/

namespace Sys2Proof.Machine

/-! ## Lanes that may have been granted their locks -/

/-- Beyond what a grant changes nothing differs, every lane keeps its batch, and a lane named by no entry of the list is as it
was. -/
structure State.LanesGranted (granted : List LockEntry) (s t : State) : Prop where
  only : LocksOnly s t
  batch : ∀ m : Fin 4, t.lanes[m].batch = s.lanes[m].batch
  others : ∀ m : Fin 4, (∀ e ∈ granted, e.owner ≠ .lane m) → t.lanes[m] = s.lanes[m]

theorem State.LanesGranted.refl (granted : List LockEntry) (s : State) : State.LanesGranted granted s s :=
  ⟨.refl s, fun _ => rfl, fun _ _ => rfl⟩

theorem State.LanesGranted.trans {granted : List LockEntry} {s t u : State} (h : State.LanesGranted granted s t)
    (h' : State.LanesGranted granted t u) : State.LanesGranted granted s u :=
  ⟨h.only.trans h'.only, fun m => (h'.batch m).trans (h.batch m), fun m hm => (h'.others m hm).trans (h.others m hm)⟩

theorem State.LanesGranted.mono {few more : List LockEntry} {s t : State} (h : State.LanesGranted few s t)
    (hsub : ∀ e ∈ few, e ∈ more) : State.LanesGranted more s t :=
  ⟨h.only, h.batch, fun m hm => h.others m fun e he => hm e (hsub e he)⟩

/-! ## What a scan's grants leave -/

/-- The answer is the GRANTED answer of a claim of the list, made at a moment when no lane but those of the list had been
granted its lock since `s` (R95). -/
def State.AnswersGrant (granted : List LockEntry) (s : State) (a : Answer) : Prop :=
  ∃ e ∈ granted, ∃ tag u, e.owner = .claim tag ∧ State.LanesGranted granted s u ∧ a = u.grantedAnswer tag e.first e.count

/-- Tag, stripe and number of the answer to a claim's grant (R208). -/
def LockEntry.grantFields (e : LockEntry) : Option (Byte × Nat × Nat) :=
  match e.owner with
  | .lane _ => none
  | .claim tag => some (tag, e.first, e.count)

/-- What the grants of a scan leave, in grant order (R91, R95, R116). -/
structure State.LocksGranted (granted : List LockEntry) (s t : State) : Prop where
  lanes : State.LanesGranted granted s t
  held : t.slk.held = s.slk.held ++ granted
  reservations : t.rtu.reservations = s.rtu.reservations - (granted.filter fun e => e.owner.isClaim).length
  reading : ∀ m : Fin 4, (∃ e ∈ granted, e.owner = .lane m) → s.lanes[m].batch ≠ none → t.lanes[m].stage = .reading
  answers : ∃ written : List Answer, t.rtu.answers = s.rtu.answers ++ written ∧
    (written.map fun a => (a.tag, a.stripe, a.number)) = granted.filterMap LockEntry.grantFields ∧
    ∀ a ∈ written, State.AnswersGrant granted s a

theorem State.LocksGranted.refl (s : State) : State.LocksGranted [] s s :=
  ⟨.refl _ s, by simp, by simp, fun m ⟨_, he, _⟩ => absurd he List.not_mem_nil, [], by simp, rfl, by simp⟩

/-- One grant, and then those of the rest of the scan. -/
theorem State.LocksGranted.cons {e : LockEntry} {granted : List LockEntry} {s u t : State} (h : State.LocksGranted [e] s u)
    (h' : State.LocksGranted granted u t) : State.LocksGranted (e :: granted) s t := by
  have hfirst : State.LanesGranted (e :: granted) s u := h.lanes.mono fun x hx => by
    rw [List.mem_singleton.1 hx]
    exact List.mem_cons_self
  have hrest (v : State) (hv : State.LanesGranted granted u v) : State.LanesGranted (e :: granted) s v :=
    hfirst.trans (hv.mono fun _ => List.mem_cons_of_mem e)
  refine ⟨hrest t h'.lanes, ?_, ?_, fun m hm hb => ?_, ?_⟩
  · rw [h'.held, h.held, List.append_assoc, List.singleton_append]
  · have hsplit : (e :: granted).filter (fun e => e.owner.isClaim) =
        [e].filter (fun e => e.owner.isClaim) ++ granted.filter fun e => e.owner.isClaim := List.filter_append [e] granted
    rw [h'.reservations, h.reservations, hsplit, List.length_append, Nat.sub_sub]
  · by_cases hg : ∃ x ∈ granted, x.owner = .lane m
    · exact h'.reading m hg (by rwa [h.lanes.batch m])
    · have hothers := h'.lanes.others m fun x hx ho => hg ⟨x, hx, ho⟩
      obtain ⟨x, hx, ho⟩ := hm
      rcases List.mem_cons.1 hx with rfl | hx
      · rw [hothers]
        exact h.reading m ⟨x, List.mem_singleton_self x, ho⟩ hb
      · exact absurd ⟨x, hx, ho⟩ hg
  · obtain ⟨w, hw, hfields, hgrants⟩ := h.answers
    obtain ⟨w', hw', hfields', hgrants'⟩ := h'.answers
    refine ⟨w ++ w', by rw [hw', hw, List.append_assoc], ?_, fun a ha => ?_⟩
    · rw [List.map_append, hfields, hfields', ← List.filterMap_append, List.singleton_append]
    · rcases List.mem_append.1 ha with ha | ha
      · obtain ⟨x, hx, tag, v, ho, hv, rfl⟩ := hgrants a ha
        refine ⟨x, ?_, tag, v, ho, hv.mono fun y hy => ?_, rfl⟩
        · rw [List.mem_singleton.1 hx]
          exact List.mem_cons_self
        · rw [List.mem_singleton.1 hy]
          exact List.mem_cons_self
      · obtain ⟨x, hx, tag, v, ho, hv, rfl⟩ := hgrants' a ha
        exact ⟨x, List.mem_cons_of_mem e hx, tag, v, ho, hrest v hv, rfl⟩

/-! ## One grant -/

theorem State.submitAll_lanes (requests : List Request) (s : State) : (s.submitAll requests).lanes = s.lanes := by
  obtain ⟨m, o, h⟩ := s.submitAll_only requests
  rw [h]

/-- A lane that holds a batch and enters READING stands there (R117). -/
theorem State.enterReading_stage {n : Fin 4} {s : State} (h : s.lanes[n].batch ≠ none) :
    (s.enterReading n).lanes[n].stage = .reading := by
  unfold State.enterReading
  split
  · rename_i hb
    exact absurd hb h
  · rw [State.submitAll_lanes, State.updLane_get_self]

/-- Entry into READING touches SLK's and RTU's state in nothing. -/
theorem State.enterReading_locks (n : Fin 4) (s : State) :
    (s.enterReading n).slk = s.slk ∧ (s.enterReading n).rtu = s.rtu := by
  unfold State.enterReading
  split
  · exact ⟨rfl, rfl⟩
  · rename_i b _
    obtain ⟨m, o, h⟩ := State.submitAll_only (s.readRequests n b)
      (s.updLane n fun l => { l with stage := .reading, reads := s.firstReads b, outstanding := (s.readRequests n b).length })
    dsimp only
    rw [h]
    exact ⟨rfl, rfl⟩

/-- The grant that a scan makes of the request e, with what still waits then. -/
theorem State.grantWaiting_granted_one (e : LockEntry) (waiting : List LockEntry) (s : State) :
    State.LocksGranted [e] s
      ((s.updSlk fun k => { k with held := k.held ++ [e], waiting := waiting }).grantWaiting e) ∧
    ((s.updSlk fun k => { k with held := k.held ++ [e], waiting := waiting }).grantWaiting e).slk.waiting = waiting := by
  set u := s.updSlk fun k => { k with held := k.held ++ [e], waiting := waiting } with hu
  have honly : LocksOnly s (u.grantWaiting e) := (s.updSlk_only _).trans (State.grantWaiting_only e u)
  cases ho : e.owner with
  | lane n =>
    have hgrant : u.grantWaiting e = u.enterReading n := by simp [State.grantWaiting, ho]
    have hserved := u.enterReading_served n
    obtain ⟨hslk, hrtu⟩ := u.enterReading_locks n
    rw [hgrant] at honly ⊢
    refine ⟨⟨⟨honly, fun m => ?_, fun m hm => ?_⟩, ?_, ?_, fun m hm hb => ?_, [], ?_, ?_, by simp⟩, ?_⟩
    · by_cases hm : m = n
      · subst hm
        exact hserved.batch
      · exact congrArg Lane.batch (hserved.others m hm)
    · exact hserved.others m fun hmn => hm e (List.mem_singleton_self e) (hmn ▸ ho)
    · rw [hslk]
      rfl
    · rw [hrtu]
      simp [hu, ho, LockOwner.isClaim]
    · obtain ⟨x, hx, hox⟩ := hm
      rw [List.mem_singleton.1 hx, ho] at hox
      obtain rfl := LockOwner.lane.inj hox
      exact State.enterReading_stage hb
    · rw [hrtu, List.append_nil]
      rfl
    · simp [LockEntry.grantFields, ho]
    · rw [hslk]
      rfl
  | claim tag =>
    have hgrant : u.grantWaiting e = (u.answer (u.grantedAnswer tag e.first e.count)).dropReservation := by
      simp [State.grantWaiting, ho]
    rw [hgrant] at honly ⊢
    refine ⟨⟨⟨honly, fun m => rfl, fun m _ => rfl⟩, rfl, ?_, fun m hm _ => ?_, [u.grantedAnswer tag e.first e.count], rfl, ?_,
      fun a ha => ?_⟩, rfl⟩
    · simp [hu, ho, LockOwner.isClaim]
    · obtain ⟨x, hx, hox⟩ := hm
      rw [List.mem_singleton.1 hx, ho] at hox
      cases hox
    · simp [LockEntry.grantFields, State.grantedAnswer, ho]
    · exact ⟨e, List.mem_singleton_self e, tag, u, ho, ⟨s.updSlk_only _, fun _ => rfl, fun _ _ => rfl⟩,
        List.mem_singleton.1 ha⟩

/-! ## The scan -/

/-- What a scan grants, and what waits in the end: requests are examined one after another (R91). -/
theorem State.scanFrom_scanned {rest kept : List LockEntry} {s : State} (h : s.slk.waiting = kept ++ rest) :
    ∃ granted, ScanRuns rest s.slk.held kept granted (State.scanFrom rest kept s).slk.waiting ∧
      State.LocksGranted granted s (State.scanFrom rest kept s) := by
  induction rest generalizing kept s with
  | nil =>
    rw [List.append_nil] at h
    exact ⟨[], ⟨rfl, h⟩, .refl s⟩
  | cons e rest ih =>
    simp only [State.scanFrom]
    split
    · rename_i hg
      obtain ⟨hone, hwait⟩ := State.grantWaiting_granted_one e (kept ++ rest) s
      obtain ⟨granted, hruns, hgranted⟩ := ih hwait
      rw [hone.held] at hruns
      exact ⟨e :: granted, .inl ⟨(grantable_iff _ _ _).1 hg, granted, rfl, hruns⟩, hone.cons hgranted⟩
    · rename_i hg
      rw [List.append_cons] at h
      obtain ⟨granted, hruns, hgranted⟩ := ih h
      exact ⟨granted, .inr ⟨mt (grantable_iff _ _ _).2 hg, hruns⟩, hgranted⟩

theorem State.scanLocks_scanned (s : State) :
    ∃ granted, ScanRuns s.slk.waiting s.slk.held [] granted s.scanLocks.slk.waiting ∧
      State.LocksGranted granted s s.scanLocks := State.scanFrom_scanned (List.nil_append _).symm

/-- Whatever was held apart, after a scan nothing that waits may be granted. -/
theorem State.scanLocks_locksApart {s : State} (h : HeldApart s.slk.held) : s.scanLocks.LocksApart := by
  obtain ⟨granted, hruns, hgranted⟩ := s.scanLocks_scanned
  rw [State.locksApart_iff, hgranted.held]
  exact ⟨hruns.heldApart h, hruns.noneGrantable (.nil _)⟩

end Sys2Proof.Machine
end

section
/-! What waits, holds or is solved, part by part (R109, R115, R116, R120, R126, R23), and where the strip buffers are (R110). -/

namespace Sys2Proof.Machine

/-! ## The stages of the lanes -/

/-- The owner may stand in SBP's wait list: a lane in BUFFERING (R109), qualification before it has its set (R23). -/
def State.MayWait (s : State) : Owner → Prop
  | .lane n => s.lanes[n].stage = .buffering
  | .qualification => s.ses.state = .qualifying ∧ s.ses.qualSet = [] ∧
      ∃ q, s.ses.qualProgress = some q ∧ q.phase = .buffers ∧ q.held = .none

/-- StagesFit, with a name for each part. -/
structure State.Staged (s : State) : Prop where
  waitsOnce : (s.sbp.waiting.map (·.owner)).Nodup
  waits : ∀ w ∈ s.sbp.waiting, s.MayWait w.owner
  locksOnce : ((s.slk.waiting.filter fun e => !e.owner.isClaim).map (·.owner)).Nodup
  locks : ∀ e ∈ s.slk.waiting, ∀ n : Fin 4, e.owner = .lane n → s.lanes[n].stage = .locking
  holdsOnce : s.holdingOrder.Nodup
  holds : ∀ n ∈ s.holdingOrder, s.lanes[n].stage = .holding
  solves : ∀ n : Fin 4, s.rcd.contexts[n] ≠ none → s.lanes[n].stage = .solving
  bare : ∀ n : Fin 4, s.lanes[n].stage = .idle ∨ s.lanes[n].stage = .buffering → s.lanes[n].bufs = []
  qualified : s.ses.qualSet ≠ [] → s.ses.state = .qualifying

theorem State.stagesFit_iff (s : State) : s.StagesFit ↔ s.Staged := by
  constructor
  · rintro ⟨⟨hwo, hwl, hwq⟩, ⟨hlo, hl⟩, ⟨hho, hh⟩, hs, hb, hq⟩
    refine ⟨hwo, fun w hw => ?_, hlo, hl, hho, hh, hs, hb, hq⟩
    cases ho : w.owner with
    | lane n => exact hwl w hw n ho
    | qualification => exact hwq w hw ho
  · intro h
    refine ⟨⟨h.waitsOnce, fun w hw n ho => ?_, fun w hw ho => ?_⟩, ⟨h.locksOnce, h.locks⟩, ⟨h.holdsOnce, h.holds⟩, h.solves,
      h.bare, h.qualified⟩
    · have hmay := h.waits w hw
      rwa [ho] at hmay
    · have hmay := h.waits w hw
      rwa [ho] at hmay

/-- Lane n stands in no wait list and not in the holding order, and RCD has no context for it. -/
structure State.LaneFree (n : Fin 4) (s : State) : Prop where
  waits : ∀ w ∈ s.sbp.waiting, w.owner ≠ .lane n
  locks : ∀ e ∈ s.slk.waiting, e.owner ≠ .lane n
  holds : n ∉ s.holdingOrder
  solves : s.rcd.contexts[n] = none

section Staged

variable {s : State} {n : Fin 4}

theorem State.Staged.not_waiting (hs : s.Staged) (h : s.lanes[n].stage ≠ .buffering) :
    ∀ w ∈ s.sbp.waiting, w.owner ≠ .lane n := by
  intro w hw ho
  have hmay := hs.waits w hw
  rw [ho] at hmay
  exact h hmay

theorem State.Staged.not_locking (hs : s.Staged) (h : s.lanes[n].stage ≠ .locking) : ∀ e ∈ s.slk.waiting, e.owner ≠ .lane n :=
  fun e he ho => h (hs.locks e he n ho)

theorem State.Staged.not_holding (hs : s.Staged) (h : s.lanes[n].stage ≠ .holding) : n ∉ s.holdingOrder :=
  fun hn => h (hs.holds n hn)

theorem State.Staged.not_solving (hs : s.Staged) (h : s.lanes[n].stage ≠ .solving) : s.rcd.contexts[n] = none :=
  by_contra fun hc => h (hs.solves n hc)

/-- A lane at a stage that neither waits nor is solved, and not in the holding order. -/
theorem State.Staged.free_of_not_holding (hs : s.Staged) (hbuffering : s.lanes[n].stage ≠ .buffering)
    (hlocking : s.lanes[n].stage ≠ .locking) (hsolving : s.lanes[n].stage ≠ .solving) (hout : n ∉ s.holdingOrder) :
    s.LaneFree n :=
  ⟨hs.not_waiting hbuffering, hs.not_locking hlocking, hout, hs.not_solving hsolving⟩

/-- A lane that is IDLE or in READING, WRITING or SETTLING stands in no list. -/
theorem State.Staged.free (hs : s.Staged) (h : s.lanes[n].stage ∈ [.idle, .reading, .writing, .settling]) : s.LaneFree n := by
  have hne {st : LaneStage} (hst : st ∉ [.idle, .reading, .writing, .settling]) : s.lanes[n].stage ≠ st := fun e => hst (e ▸ h)
  exact hs.free_of_not_holding (hne (by decide)) (hne (by decide)) (hne (by decide)) (hs.not_holding (hne (by decide)))

/-- A lane's record after a change of one. -/
theorem State.updLane_get (f : Lane → Lane) (s : State) (n m : Fin 4) :
    (s.updLane n f).lanes[m] = if m = n then f s.lanes[n] else s.lanes[m] := by
  split
  · rename_i h
    rw [h, State.updLane_get_self]
  · rename_i h
    exact State.updLane_get_other (Ne.symm h) f s

/-- A lane that stands in no list takes any stage; IDLE and BUFFERING without buffers. -/
theorem State.Staged.updLane (hs : s.Staged) (hfree : s.LaneFree n) {f : Lane → Lane}
    (hbare : (f s.lanes[n]).stage = .idle ∨ (f s.lanes[n]).stage = .buffering → (f s.lanes[n]).bufs = []) :
    (s.updLane n f).Staged := by
  have hother {m : Fin 4} (hm : m ≠ n) : (s.updLane n f).lanes[m] = s.lanes[m] := State.updLane_get_other (Ne.symm hm) f s
  refine { hs with waits := fun w hw => ?_, locks := fun e he m ho => ?_, holds := fun m hm => ?_, solves := fun m hm => ?_,
                   bare := fun m => ?_ }
  · have hmay := hs.waits w hw
    cases ho : w.owner with
    | lane m =>
      have hm : m ≠ n := fun e => hfree.waits w hw (e ▸ ho)
      rw [ho] at hmay
      exact (congrArg Lane.stage (hother hm)).trans hmay
    | qualification => rwa [ho] at hmay
  · have hm : m ≠ n := fun hmn => hfree.locks e he (hmn ▸ ho)
    rw [hother hm]
    exact hs.locks e he m ho
  · have hmn : m ≠ n := fun e => hfree.holds (e ▸ hm)
    rw [hother hmn]
    exact hs.holds m hm
  · have hmn : m ≠ n := fun e => hm (e ▸ hfree.solves)
    rw [hother hmn]
    exact hs.solves m hm
  · by_cases hm : m = n
    · subst hm
      rw [State.updLane_get_self]
      exact hbare
    · rw [hother hm]
      exact hs.bare m

end Staged

/-! ## Changes that touch none of it -/

/-- What the invariants on locks, stages and buffers speak of is the same. -/
structure State.SamePlaces (s t : State) : Prop where
  slk : t.slk = s.slk
  sbp : t.sbp = s.sbp
  stage : ∀ m : Fin 4, t.lanes[m].stage = s.lanes[m].stage
  bufs : ∀ m : Fin 4, t.lanes[m].bufs = s.lanes[m].bufs
  holdingOrder : t.holdingOrder = s.holdingOrder
  contexts : t.rcd.contexts = s.rcd.contexts
  state : t.ses.state = s.ses.state
  qualProgress : t.ses.qualProgress = s.ses.qualProgress
  qualSet : t.ses.qualSet = s.ses.qualSet

theorem State.SamePlaces.refl (s : State) : s.SamePlaces s :=
  ⟨rfl, rfl, fun _ => rfl, fun _ => rfl, rfl, rfl, rfl, rfl, rfl⟩

theorem State.SamePlaces.trans {s t u : State} (h : s.SamePlaces t) (h' : t.SamePlaces u) : s.SamePlaces u :=
  ⟨h'.slk.trans h.slk, h'.sbp.trans h.sbp, fun m => (h'.stage m).trans (h.stage m), fun m => (h'.bufs m).trans (h.bufs m),
    h'.holdingOrder.trans h.holdingOrder, h'.contexts.trans h.contexts, h'.state.trans h.state,
    h'.qualProgress.trans h.qualProgress, h'.qualSet.trans h.qualSet⟩

theorem MruOnly.samePlaces {s t : State} (h : MruOnly s t) : s.SamePlaces t := by
  obtain ⟨m, o, rfl⟩ := h
  exact ⟨rfl, rfl, fun _ => rfl, fun _ => rfl, rfl, rfl, rfl, rfl, rfl⟩

theorem State.updRtu_samePlaces (f : Rtu → Rtu) (s : State) : s.SamePlaces (s.updRtu f) := { State.SamePlaces.refl s with }

theorem State.updRgt_samePlaces (f : Rgt → Rgt) (s : State) : s.SamePlaces (s.updRgt f) := { State.SamePlaces.refl s with }

theorem State.updMgp_samePlaces (f : Mgp → Mgp) (s : State) : s.SamePlaces (s.updMgp f) := { State.SamePlaces.refl s with }

theorem State.updLrl_samePlaces (f : Lrl → Lrl) (s : State) : s.SamePlaces (s.updLrl f) := { State.SamePlaces.refl s with }

theorem State.writeMem_samePlaces (a : Nat) (bytes : List Byte) (s : State) : s.SamePlaces (s.writeMem a bytes) :=
  { State.SamePlaces.refl s with }

theorem State.SamePlaces.staged {s t : State} (h : s.SamePlaces t) (hs : s.Staged) : t.Staged := by
  refine ⟨?_, fun w hw => ?_, ?_, fun e he m ho => ?_, ?_, fun m hm => ?_, fun m hm => ?_, fun m hm => ?_, fun hq => ?_⟩
  · rw [h.sbp]; exact hs.waitsOnce
  · rw [h.sbp] at hw
    have hmay := hs.waits w hw
    cases ho : w.owner with
    | lane n =>
      rw [ho] at hmay
      exact (h.stage n).trans hmay
    | qualification =>
      rw [ho] at hmay
      unfold State.MayWait
      rw [h.state, h.qualSet, h.qualProgress]
      exact hmay
  · rw [h.slk]; exact hs.locksOnce
  · rw [h.slk] at he
    rw [h.stage]
    exact hs.locks e he m ho
  · rw [h.holdingOrder]; exact hs.holdsOnce
  · rw [h.holdingOrder] at hm
    rw [h.stage]
    exact hs.holds m hm
  · rw [h.contexts] at hm
    rw [h.stage]
    exact hs.solves m hm
  · rw [h.stage] at hm
    rw [h.bufs]
    exact hs.bare m hm
  · rw [h.qualSet] at hq
    rw [h.state]
    exact hs.qualified hq

/-- A change of a lane's record that keeps its stage and its buffers. -/
theorem State.updLane_samePlaces {n : Fin 4} {f : Lane → Lane} {s : State} (hstage : (f s.lanes[n]).stage = s.lanes[n].stage)
    (hbufs : (f s.lanes[n]).bufs = s.lanes[n].bufs) : s.SamePlaces (s.updLane n f) := by
  refine { State.SamePlaces.refl s with stage := fun m => ?_, bufs := fun m => ?_ }
  · rw [State.updLane_get]
    split
    · rename_i h
      rw [hstage, h]
    · rfl
  · rw [State.updLane_get]
    split
    · rename_i h
      rw [hbufs, h]
    · rfl

/-! ## Where the buffers are -/

/-- How often the buffer stands in the places of R110. -/
def State.timesPlaced (b : BufId) (s : State) : Nat :=
  s.sbp.free.count b + s.sbp.quarantineHold.count b + ∑ n : Fin 4, s.lanes[n].bufs.count b + s.ses.qualSet.count b

theorem State.buffersInPlace_iff (s : State) :
    s.BuffersInPlace ↔ s.sbp.free.Pairwise (· < ·) ∧ ∀ b, s.timesPlaced b = 1 := by
  refine and_congr_right fun _ => List.perm_iff_count.trans (forall_congr' fun b => ?_)
  have hlanes : (((List.finRange 4).flatMap fun n => s.lanes[n].bufs).count b) = ∑ n : Fin 4, s.lanes[n].bufs.count b := by
    rw [List.count_flatMap, Fin.sum_univ_def]
    rfl
  rw [List.count_append, List.count_append, List.count_append, hlanes,
    List.count_eq_one_of_mem (List.nodup_finRange 128) (List.mem_finRange b)]
  rfl

/-- The buffer sets of the lanes and of qualification, and SBP's state, are the same. -/
structure State.SetsKept (s t : State) : Prop where
  sbp : t.sbp = s.sbp
  bufs : ∀ m : Fin 4, t.lanes[m].bufs = s.lanes[m].bufs
  qualSet : t.ses.qualSet = s.ses.qualSet

theorem State.SetsKept.refl (s : State) : s.SetsKept s := ⟨rfl, fun _ => rfl, rfl⟩

theorem State.SetsKept.trans {s t u : State} (h : s.SetsKept t) (h' : t.SetsKept u) : s.SetsKept u :=
  ⟨h'.sbp.trans h.sbp, fun m => (h'.bufs m).trans (h.bufs m), h'.qualSet.trans h.qualSet⟩

theorem State.updSlk_sets (f : Slk → Slk) (s : State) : s.SetsKept (s.updSlk f) := ⟨rfl, fun _ => rfl, rfl⟩

theorem State.SamePlaces.sets {s t : State} (h : s.SamePlaces t) : s.SetsKept t := ⟨h.sbp, h.bufs, h.qualSet⟩

theorem State.SetsKept.timesPlaced {s t : State} (h : s.SetsKept t) (b : BufId) : t.timesPlaced b = s.timesPlaced b := by
  simp only [State.timesPlaced, h.sbp, h.bufs, h.qualSet]

theorem State.SetsKept.buffersInPlace {s t : State} (h : s.SetsKept t) (hs : s.BuffersInPlace) : t.BuffersInPlace := by
  rw [State.buffersInPlace_iff] at hs ⊢
  rw [h.sbp]
  exact ⟨hs.1, fun b => (h.timesPlaced b).trans (hs.2 b)⟩

/-- A lane's set is replaced. -/
theorem State.timesPlaced_updLane (b : BufId) (n : Fin 4) (f : Lane → Lane) (s : State) :
    (s.updLane n f).timesPlaced b + s.lanes[n].bufs.count b = s.timesPlaced b + (f s.lanes[n]).bufs.count b := by
  have hold := Finset.add_sum_erase Finset.univ (fun m : Fin 4 => s.lanes[m].bufs.count b) (Finset.mem_univ n)
  have hnew := Finset.add_sum_erase Finset.univ (fun m : Fin 4 => (s.updLane n f).lanes[m].bufs.count b) (Finset.mem_univ n)
  have hrest : ∑ m ∈ Finset.univ.erase n, (s.updLane n f).lanes[m].bufs.count b =
      ∑ m ∈ Finset.univ.erase n, s.lanes[m].bufs.count b :=
    Finset.sum_congr rfl fun m hm => by rw [State.updLane_get_other (Ne.symm (Finset.ne_of_mem_erase hm))]
  rw [hrest, State.updLane_get_self] at hnew
  have hsbp : (s.updLane n f).sbp = s.sbp := rfl
  have hses : (s.updLane n f).ses = s.ses := rfl
  simp only [State.timesPlaced, hsbp, hses]
  omega

theorem count_joinFree {free back : List BufId} {b : BufId} (h : free.count b + back.count b ≤ 1) :
    (joinFree free back).count b = free.count b + back.count b := by
  have hnodup : (joinFree free back).Nodup := (List.nodup_finRange 128).filter _
  by_cases hb : b ∈ free ∨ b ∈ back
  · have hpos : 0 < free.count b + back.count b := by
      rcases hb with hb | hb
      · exact Nat.add_pos_left (List.count_pos_iff.2 hb) _
      · exact Nat.add_pos_right _ (List.count_pos_iff.2 hb)
    rw [List.count_eq_one_of_mem hnodup ((mem_joinFree _ _ _).2 hb)]
    omega
  · rw [not_or] at hb
    rw [List.count_eq_zero_of_not_mem (mt (mem_joinFree _ _ _).1 (not_or.2 hb)), List.count_eq_zero_of_not_mem hb.1,
      List.count_eq_zero_of_not_mem hb.2]

theorem joinFree_ascending (free back : List BufId) : (joinFree free back).Pairwise (· < ·) :=
  (List.pairwise_lt_finRange 128).filter _

/-- A set that returns to SBP is placed once more, in the free pool or in the quarantine hold (R113). -/
theorem State.timesPlaced_returnSet {b : BufId} {bufs : List BufId} {s : State} (h : s.sbp.free.count b + bufs.count b ≤ 1) :
    (s.returnSet bufs).timesPlaced b = s.timesPlaced b + bufs.count b := by
  have hsplit : bufs.count b = (bufs.filter s.mru.namesQuarantined).count b +
      (bufs.filter fun x => !s.mru.namesQuarantined x).count b := List.countP_eq_countP_filter_add _ _ _
  have hfree : (s.returnSet bufs).sbp.free.count b =
      s.sbp.free.count b + (bufs.filter fun x => !s.mru.namesQuarantined x).count b := count_joinFree (by omega)
  have hhold : (s.returnSet bufs).sbp.quarantineHold.count b =
      s.sbp.quarantineHold.count b + (bufs.filter s.mru.namesQuarantined).count b := List.count_append
  have hlanes : (s.returnSet bufs).lanes = s.lanes := rfl
  have hses : (s.returnSet bufs).ses = s.ses := rfl
  simp only [State.timesPlaced, hfree, hhold, hlanes, hses]
  omega

/-- Buffers that leave the quarantine hold join the free pool (R113). -/
theorem State.timesPlaced_releaseHold {b : BufId} {s : State} (h : s.sbp.free.count b + s.sbp.quarantineHold.count b ≤ 1) :
    s.releaseHold.timesPlaced b = s.timesPlaced b := by
  have hsplit : s.sbp.quarantineHold.count b = (s.sbp.quarantineHold.filter s.mru.namesQuarantined).count b +
      (s.sbp.quarantineHold.filter fun x => !s.mru.namesQuarantined x).count b := List.countP_eq_countP_filter_add _ _ _
  have hfree : s.releaseHold.sbp.free.count b =
      s.sbp.free.count b + (s.sbp.quarantineHold.filter fun x => !s.mru.namesQuarantined x).count b :=
    count_joinFree (by omega)
  have hhold : s.releaseHold.sbp.quarantineHold = s.sbp.quarantineHold.filter s.mru.namesQuarantined := rfl
  have hlanes : s.releaseHold.lanes = s.lanes := rfl
  have hses : s.releaseHold.ses = s.ses := rfl
  simp only [State.timesPlaced, hfree, hhold, hlanes, hses]
  omega

section InPlace

variable {s : State}

theorem State.BuffersInPlace.placed (h : s.BuffersInPlace) (b : BufId) : s.timesPlaced b = 1 :=
  ((s.buffersInPlace_iff).1 h).2 b

/-- A lane's set returns to SBP, and the lane has none then (R113, R129, R132). -/
theorem State.BuffersInPlace.return_lane (h : s.BuffersInPlace) (n : Fin 4) {f : Lane → Lane}
    (hf : (f s.lanes[n]).bufs = []) : ((s.returnSet s.lanes[n].bufs).updLane n f).BuffersInPlace := by
  refine (State.buffersInPlace_iff _).2 ⟨joinFree_ascending _ _, fun b => ?_⟩
  have hone := h.placed b
  have hle : s.lanes[n].bufs.count b ≤ ∑ m : Fin 4, s.lanes[m].bufs.count b :=
    Finset.single_le_sum (f := fun m : Fin 4 => s.lanes[m].bufs.count b) (fun _ _ => Nat.zero_le _) (Finset.mem_univ n)
  have hback := State.timesPlaced_returnSet (b := b) (bufs := s.lanes[n].bufs) (s := s) (by
    unfold State.timesPlaced at hone
    omega)
  have hlane := State.timesPlaced_updLane b n f (s.returnSet s.lanes[n].bufs)
  have hlanes : (s.returnSet s.lanes[n].bufs).lanes = s.lanes := rfl
  rw [hlanes, hf, List.count_nil] at hlane
  omega

/-- Qualification's set returns to SBP (R27, R113, R133). -/
theorem State.BuffersInPlace.return_qual (h : s.BuffersInPlace) {f : Ses → Ses} (hf : (f s.ses).qualSet = []) :
    ((s.returnSet s.ses.qualSet).updSes f).BuffersInPlace := by
  refine (State.buffersInPlace_iff _).2 ⟨joinFree_ascending _ _, fun b => ?_⟩
  have hone := h.placed b
  have hback := State.timesPlaced_returnSet (b := b) (bufs := s.ses.qualSet) (s := s) (by
    unfold State.timesPlaced at hone
    omega)
  have hset : ((s.returnSet s.ses.qualSet).updSes f).timesPlaced b + s.ses.qualSet.count b =
      (s.returnSet s.ses.qualSet).timesPlaced b := by
    have hq : ((s.returnSet s.ses.qualSet).updSes f).ses.qualSet = [] := hf
    have hq' : (s.returnSet s.ses.qualSet).ses.qualSet = s.ses.qualSet := rfl
    simp only [State.timesPlaced, hq, hq', State.updSes_sbp, State.updSes_lanes, List.count_nil]
    rfl
  omega

theorem State.BuffersInPlace.releaseHold (h : s.BuffersInPlace) : s.releaseHold.BuffersInPlace := by
  refine (State.buffersInPlace_iff _).2 ⟨joinFree_ascending _ _, fun b => ?_⟩
  have hone := h.placed b
  rw [State.timesPlaced_releaseHold, hone]
  unfold State.timesPlaced at hone
  omega

end InPlace

end Sys2Proof.Machine
end

section
/-! What grants and scans keep of the locks, the stages and the buffers (O57). The lemmas go through the operations in the order of
the model's files. -/

namespace Sys2Proof.Machine

/-! ## The invariants from one state to the next -/

/-- What O57 says of the states before and after a step, as a relation that composes. -/
structure State.OrderKept (s t : State) : Prop where
  locks : s.LocksApart → t.LocksApart
  head : s.BufferHeadWaits → t.BufferHeadWaits
  staged : s.Staged → t.Staged
  buffers : s.Staged → s.BuffersInPlace → t.BuffersInPlace

theorem State.OrderKept.refl (s : State) : s.OrderKept s := ⟨id, id, id, fun _ => id⟩

theorem State.OrderKept.trans {s t u : State} (h : s.OrderKept t) (h' : t.OrderKept u) : s.OrderKept u :=
  ⟨h'.locks ∘ h.locks, h'.head ∘ h.head, h'.staged ∘ h.staged, fun hs hb => h'.buffers (h.staged hs) (h.buffers hs hb)⟩

theorem State.OrderKept.foldl {α : Type} {f : State → α → State} (h : ∀ s a, State.OrderKept s (f s a)) (l : List α)
    (s : State) : s.OrderKept (l.foldl f s) := by
  induction l generalizing s with
  | nil => exact .refl s
  | cons a l ih => exact (h s a).trans (ih _)

theorem State.locksApart_congr {s t : State} (h : t.slk = s.slk) (hs : s.LocksApart) : t.LocksApart := by
  rw [State.locksApart_iff] at hs ⊢
  rwa [h]

theorem State.bufferHeadWaits_congr {s t : State} (h : t.sbp = s.sbp) (hs : s.BufferHeadWaits) : t.BufferHeadWaits := by
  unfold State.BufferHeadWaits at hs ⊢
  rwa [h]

/-- SLK's state and every buffer set are the same. -/
theorem State.OrderKept.of_sets {s t : State} (hslk : t.slk = s.slk) (hsets : s.SetsKept t) (hstaged : s.Staged → t.Staged) :
    s.OrderKept t :=
  ⟨State.locksApart_congr hslk, State.bufferHeadWaits_congr hsets.sbp, hstaged, fun _ => hsets.buffersInPlace⟩

theorem State.SamePlaces.order {s t : State} (h : s.SamePlaces t) : s.OrderKept t := .of_sets h.slk h.sets h.staged

theorem MruOnly.order {s t : State} (h : MruOnly s t) : s.OrderKept t := h.samePlaces.order

/-! ## Lanes that submit -/

theorem LocksOnly.sets {s t : State} (h : LocksOnly s t) (hbufs : ∀ m : Fin 4, t.lanes[m].bufs = s.lanes[m].bufs) :
    s.SetsKept t := by
  obtain ⟨m, o, l, k, a, r, rfl⟩ := h
  exact ⟨rfl, hbufs, rfl⟩

theorem State.updLane_bufs {n : Fin 4} {f : Lane → Lane} {s : State} (h : (f s.lanes[n]).bufs = s.lanes[n].bufs) (m : Fin 4) :
    (s.updLane n f).lanes[m].bufs = s.lanes[m].bufs := by
  rw [State.updLane_get]
  split
  · rename_i hm
    rw [h, hm]
  · rfl

theorem State.enterReading_sets (n : Fin 4) (s : State) : s.SetsKept (s.enterReading n) := by
  refine (s.enterReading_only n).sets fun m => ?_
  unfold State.enterReading
  split
  · rfl
  · rw [State.submitAll_lanes]
    exact State.updLane_bufs rfl m

theorem State.enterWriting_sets (n : Fin 4) (results : List StripeResult) (s : State) :
    s.SetsKept (s.enterWriting n results) := by
  refine (s.enterWriting_only n results).sets fun m => ?_
  unfold State.enterWriting
  split
  · rfl
  · rw [State.submitAll_lanes]
    exact State.updLane_bufs rfl m

section Entering

variable {s : State} {n : Fin 4}

theorem State.enterReading_staged (hs : s.Staged) (hfree : s.LaneFree n) : (s.enterReading n).Staged := by
  unfold State.enterReading
  split
  · exact hs
  · refine (State.submitAll_only _ _).samePlaces.staged (hs.updLane hfree ?_)
    rintro (h | h) <;> cases h

theorem State.enterWriting_staged (hs : s.Staged) (hfree : s.LaneFree n) (results : List StripeResult) :
    (s.enterWriting n results).Staged := by
  unfold State.enterWriting
  split
  · exact hs
  · refine (State.submitAll_only _ _).samePlaces.staged (hs.updLane hfree ?_)
    rintro (h | h) <;> cases h

theorem State.enterWriting_slk (results : List StripeResult) : (s.enterWriting n results).slk = s.slk := by
  unfold State.enterWriting
  split
  · rfl
  · obtain ⟨m, o, h⟩ := State.submitAll_only (s.writeRequests n ‹Batch›)
      (s.updLane n fun l => { l with stage := .writing, results := results, outstanding := (s.writeRequests n ‹Batch›).length })
    dsimp only
    rw [h]
    rfl

end Entering

/-! ## SLK (R90, R91, R101) -/

section Locks

variable {s : State}

/-- A request granted by R90 joins the held table. -/
theorem State.LocksApart.hold (h : s.LocksApart) {e : LockEntry} (he : MayBeGranted s.slk.held s.slk.waiting e) {t : State}
    (ht : t.slk = { s.slk with held := s.slk.held ++ [e] }) : t.LocksApart := by
  obtain ⟨hheld, hnone⟩ := (State.locksApart_iff s).1 h
  rw [State.locksApart_iff, ht]
  exact ⟨hheld.append he, hnone.append_held _⟩

/-- A request not granted joins the tail of the wait list. -/
theorem State.LocksApart.wait (h : s.LocksApart) {e : LockEntry} (he : ¬MayBeGranted s.slk.held s.slk.waiting e) {t : State}
    (ht : t.slk = { s.slk with waiting := s.slk.waiting ++ [e] }) : t.LocksApart := by
  obtain ⟨hheld, hnone⟩ := (State.locksApart_iff s).1 h
  rw [State.locksApart_iff, ht]
  exact ⟨hheld, hnone.append he⟩

theorem State.requestLaneLock_locksApart (n : Fin 4) (h : s.LocksApart) : (s.requestLaneLock n).LocksApart := by
  unfold State.requestLaneLock
  split
  · exact h
  · simp only
    split
    · rename_i hg
      exact h.hold ((grantable_iff _ _ _).1 hg) (State.enterReading_locks n _).1
    · rename_i hg
      exact h.wait (mt (grantable_iff _ _ _).2 hg) rfl

theorem State.requestLaneLock_sets (n : Fin 4) (s : State) : s.SetsKept (s.requestLaneLock n) := by
  unfold State.requestLaneLock
  split
  · exact .refl s
  · simp only
    split
    · exact (s.updSlk_sets _).trans (State.enterReading_sets n _)
    · exact s.updSlk_sets _

/-- A lane in LOCKING that stands in no list makes its lock request. -/
theorem State.requestLaneLock_staged {n : Fin 4} (hs : s.Staged) (hfree : s.LaneFree n)
    (hstage : s.lanes[n].stage = .locking) : (s.requestLaneLock n).Staged := by
  unfold State.requestLaneLock
  split
  · exact hs
  · rename_i b _
    simp only
    split
    · exact State.enterReading_staged { hs with } ⟨hfree.waits, hfree.locks, hfree.holds, hfree.solves⟩
    · set e : LockEntry := { owner := .lane n, first := b.first, count := b.length } with he
      refine { hs with locksOnce := ?_, locks := fun x hx m ho => ?_ }
      · show (((s.slk.waiting ++ [e]).filter fun x => !x.owner.isClaim).map (·.owner)).Nodup
        rw [List.filter_append, List.map_append, List.nodup_append]
        refine ⟨hs.locksOnce, by simp [he, LockOwner.isClaim], fun o ho o' ho' => ?_⟩
        obtain ⟨x, hx, rfl⟩ := List.mem_map.1 ho
        obtain rfl : o' = .lane n := by simpa [he, LockOwner.isClaim] using ho'
        exact hfree.locks x (List.mem_of_mem_filter hx)
      · rcases List.mem_append.1 hx with hx | hx
        · exact hs.locks x hx m ho
        · rw [List.mem_singleton.1 hx] at ho
          obtain rfl := LockOwner.lane.inj ho
          exact hstage

theorem State.grantWaiting_sets (e : LockEntry) (s : State) : s.SetsKept (s.grantWaiting e) := by
  unfold State.grantWaiting
  split
  · exact s.enterReading_sets _
  · exact ⟨rfl, fun _ => rfl, rfl⟩

theorem State.scanFrom_sets (rest kept : List LockEntry) (s : State) : s.SetsKept (State.scanFrom rest kept s) := by
  induction rest generalizing kept s with
  | nil => exact .refl s
  | cons e rest ih =>
    simp only [State.scanFrom]
    split
    · exact ((s.updSlk_sets _).trans (State.grantWaiting_sets e _)).trans (ih _ _)
    · exact ih _ _

/-- Every lane that a scan grants leaves LOCKING, and its request was its only one. -/
theorem State.scanFrom_staged {rest kept : List LockEntry} (h : s.slk.waiting = kept ++ rest) (hs : s.Staged) :
    (State.scanFrom rest kept s).Staged := by
  induction rest generalizing kept s with
  | nil => exact hs
  | cons e rest ih =>
    simp only [State.scanFrom]
    split
    · set u := s.updSlk fun k => { k with held := k.held ++ [e], waiting := kept ++ rest }
      have hsub : (kept ++ rest).Sublist s.slk.waiting := by
        rw [h]
        exact (List.sublist_cons_self e rest).append_left kept
      have hu : u.Staged :=
        { hs with
          locksOnce := hs.locksOnce.sublist ((hsub.filter _).map _)
          locks := fun x hx => hs.locks x (hsub.subset hx) }
      refine ih (State.grantWaiting_granted_one e (kept ++ rest) s).2 ?_
      unfold State.grantWaiting
      split
      · rename_i n ho
        have hstage : s.lanes[n].stage = .locking := hs.locks e (by rw [h]; simp) n ho
        refine State.enterReading_staged hu ⟨hs.not_waiting (hstage.trans_ne (by decide)), fun x hx hxo => ?_,
          hs.not_holding (hstage.trans_ne (by decide)), hs.not_solving (hstage.trans_ne (by decide))⟩
        have honce := hs.locksOnce
        rw [h, List.filter_append, List.filter_cons_of_pos (by simp [ho, LockOwner.isClaim]), List.map_append,
          List.map_cons, List.nodup_middle, List.nodup_cons, ← List.map_append, ← List.filter_append] at honce
        refine honce.1 (List.mem_map.2 ⟨x, List.mem_filter.2 ⟨hx, ?_⟩, hxo.trans ho.symm⟩)
        simp [hxo, LockOwner.isClaim]
      · exact ((u.updRtu_samePlaces _).trans (State.updRtu_samePlaces _ _)).staged hu
    · exact ih (by rw [h, List.append_cons]) hs

/-- Locks are given up, and SLK scans its wait list (R91). -/
theorem State.OrderKept.scanLocks {v : State} (hheld : HeldApart s.slk.held → HeldApart v.slk.held) (hsets : s.SetsKept v)
    (hstaged : s.Staged → v.Staged) : s.OrderKept v.scanLocks := by
  have hscan : v.SetsKept v.scanLocks := State.scanFrom_sets _ _ _
  exact ⟨fun h => State.scanLocks_locksApart (hheld ((State.locksApart_iff s).1 h).1),
    State.bufferHeadWaits_congr (hsets.trans hscan).sbp, fun hs => State.scanFrom_staged (List.nil_append _).symm (hstaged hs),
    fun _ => (hsets.trans hscan).buffersInPlace⟩

end Locks

/-! ## SBP (R111 to R113) -/

section Buffers

variable {s : State}

/-- A change of the session record while qualification does not wait for buffers. -/
theorem State.Staged.updSes (hs : s.Staged) (hwait : ∀ w ∈ s.sbp.waiting, w.owner ≠ .qualification) {f : Ses → Ses}
    (hset : (f s.ses).qualSet ≠ [] → (f s.ses).state = .qualifying) : (s.updSes f).Staged := by
  refine { hs with waits := fun w hw => ?_, qualified := hset }
  have hmay := hs.waits w hw
  cases ho : w.owner with
  | lane n => rwa [ho] at hmay
  | qualification => exact absurd ho (hwait w hw)

/-- A qualification step taken or held back, while qualification does not wait for buffers. -/
theorem State.QualStepped.staged {t : State} (h : s.QualStepped t)
    (hwait : ∀ w ∈ s.sbp.waiting, w.owner ≠ .qualification) (hs : s.Staged) : t.Staged := by
  obtain ⟨m, o, e, q, rfl⟩ := h.only
  exact { hs.updSes (f := fun x => { x with qualProgress := q }) hwait hs.qualified with }

theorem State.QualStepped.sets {t : State} (h : s.QualStepped t) : s.SetsKept t ∧ t.slk = s.slk := by
  obtain ⟨m, o, e, q, rfl⟩ := h.only
  exact ⟨⟨rfl, fun _ => rfl, rfl⟩, rfl⟩

theorem State.grantSet_sbp (owner : Owner) (bufs : List BufId) (s : State) : (s.grantSet owner bufs).sbp = s.sbp := by
  cases owner with
  | lane n => exact (State.requestLaneLock_sets n _).sbp
  | qualification =>
    unfold State.grantSet
    simp only
    split
    · rfl
    · exact (State.beginAttempt_stepped _ _).sets.1.sbp

theorem State.grantSet_locksApart (owner : Owner) (bufs : List BufId) (h : s.LocksApart) :
    (s.grantSet owner bufs).LocksApart := by
  cases owner with
  | lane n => exact State.requestLaneLock_locksApart n (State.locksApart_congr rfl h)
  | qualification =>
    unfold State.grantSet
    simp only
    split
    · exact State.locksApart_congr rfl h
    · exact State.locksApart_congr (State.beginAttempt_stepped _ _).sets.2 (State.locksApart_congr rfl h)

/-- The owner may be granted a set: it is at its stage, and it does not wait (any longer) for another. -/
structure State.MayDraw (s : State) (o : Owner) : Prop where
  may : s.MayWait o
  once : ∀ w ∈ s.sbp.waiting, w.owner ≠ o

theorem State.grantBuffers_staged {r : BufRequest} (hs : s.Staged) (hr : s.MayDraw r.owner) : (s.grantBuffers r).Staged := by
  obtain ⟨hmay, honce⟩ := hr
  have hdrawn : (s.updSbp fun p => { p with free := p.free.drop r.size }).Staged := { hs with }
  unfold State.grantBuffers
  cases ho : r.owner with
  | lane n =>
    rw [ho] at hmay honce
    have hstage : s.lanes[n].stage = .buffering := hmay
    have hfree : s.LaneFree n := ⟨honce, hs.not_locking (hstage.trans_ne (by decide)), hs.not_holding (hstage.trans_ne (by decide)),
      hs.not_solving (hstage.trans_ne (by decide))⟩
    refine State.requestLaneLock_staged (hdrawn.updLane ⟨hfree.waits, hfree.locks, hfree.holds, hfree.solves⟩ ?_)
      ⟨hfree.waits, hfree.locks, hfree.holds, hfree.solves⟩ ?_
    · rintro (h | h) <;> cases h
    · rw [State.updLane_get_self]
  | qualification =>
    rw [ho] at hmay honce
    have hset := hdrawn.updSes (f := fun e => { e with qualSet := s.sbp.free.take r.size }) honce fun _ => hmay.1
    unfold State.grantSet
    simp only
    split
    · exact hset
    · exact (State.beginAttempt_stepped _ _).staged (show ∀ w ∈ s.sbp.waiting, _ from honce) hset

/-- The head of the free pool becomes the set of an owner that had none (R111). -/
theorem State.grantBuffers_buffersInPlace {r : BufRequest} (hs : s.Staged) (hmay : s.MayWait r.owner) (hb : s.BuffersInPlace) :
    (s.grantBuffers r).BuffersInPlace := by
  obtain ⟨hasc, hplaced⟩ := (State.buffersInPlace_iff s).1 hb
  set u := s.updSbp fun p => { p with free := p.free.drop r.size }
  have hdrawn (b : BufId) : u.timesPlaced b + (s.sbp.free.take r.size).count b = 1 := by
    have hfree : s.sbp.free.count b = (s.sbp.free.take r.size).count b + (s.sbp.free.drop r.size).count b := by
      rw [← List.count_append, List.take_append_drop]
    have hone := hplaced b
    show (s.sbp.free.drop r.size).count b + s.sbp.quarantineHold.count b + ∑ n : Fin 4, s.lanes[n].bufs.count b +
      s.ses.qualSet.count b + _ = 1
    unfold State.timesPlaced at hone
    omega
  have hpool : (s.sbp.free.drop r.size).Pairwise (· < ·) := hasc.sublist (List.drop_sublist _ _)
  unfold State.grantBuffers
  cases ho : r.owner with
  | lane n =>
    rw [ho] at hmay
    refine (State.requestLaneLock_sets n _).buffersInPlace ((State.buffersInPlace_iff _).2 ⟨hpool, fun b => ?_⟩)
    have hlane := State.timesPlaced_updLane b n (fun l => { l with bufs := s.sbp.free.take r.size, stage := .locking }) u
    have hbare : u.lanes[n].bufs = [] := hs.bare n (.inr hmay)
    rw [hbare, List.count_nil] at hlane
    exact hlane.trans (hdrawn b)
  | qualification =>
    rw [ho] at hmay
    obtain ⟨-, hempty, -⟩ := hmay
    have hset : (u.updSes fun e => { e with qualSet := s.sbp.free.take r.size }).BuffersInPlace := by
      refine (State.buffersInPlace_iff _).2 ⟨hpool, fun b => ?_⟩
      have hone := hdrawn b
      have hqual : u.ses.qualSet = [] := hempty
      unfold State.timesPlaced at hone ⊢
      rw [hqual, List.count_nil] at hone
      exact hone
    unfold State.grantSet
    simp only
    split
    · exact hset
    · exact (State.beginAttempt_stepped _ _).sets.1.buffersInPlace hset

theorem State.grantBuffers_sbp (r : BufRequest) (s : State) :
    (s.grantBuffers r).sbp = { s.sbp with free := s.sbp.free.drop r.size } := State.grantSet_sbp _ _ _

/-- A buffer request reaches SBP from an owner at its stage that does not wait yet (R111). -/
theorem State.OrderKept.requestBuffers {u : State} (h : s.OrderKept u) {r : BufRequest}
    (hr : s.Staged → u.MayDraw r.owner) : s.OrderKept (u.requestBuffers r) := by
  by_cases hfits : u.sbp.waiting = [] ∧ r.size ≤ u.sbp.free.length
  · rw [State.requestBuffers_of_free hfits.1 hfits.2]
    refine ⟨(State.grantSet_locksApart _ _ <| State.locksApart_congr rfl <| h.locks ·), fun hs x rest hx => ?_,
      fun hs => State.grantBuffers_staged (h.staged hs) (hr hs),
      fun hs hb => State.grantBuffers_buffersInPlace (h.staged hs) (hr hs).may (h.buffers hs hb)⟩
    rw [State.grantBuffers_sbp] at hx
    exact absurd (hfits.1.symm.trans hx) (List.cons_ne_nil _ _).symm
  · rw [State.requestBuffers_of_busy (by rw [not_and_or, Nat.not_le] at hfits; exact hfits)]
    refine ⟨fun hs => State.locksApart_congr rfl (h.locks hs), fun hs x rest hx => ?_, fun hs => ?_, fun hs => h.buffers hs⟩
    · have hx : u.sbp.waiting ++ [r] = x :: rest := hx
      show u.sbp.free.length < x.size
      cases hw : u.sbp.waiting with
      | nil =>
        rw [hw] at hx
        obtain rfl : r = x := (List.cons.inj hx).1
        exact Nat.not_le.1 fun hle => hfits ⟨hw, hle⟩
      | cons y ys =>
        rw [hw] at hx
        obtain rfl : y = x := (List.cons.inj hx).1
        exact h.head hs y ys hw
    · obtain ⟨hmay, honce⟩ := hr hs
      have hu := h.staged hs
      refine { hu with waitsOnce := ?_, waits := fun w hw => ?_ }
      · show ((u.sbp.waiting ++ [r]).map (·.owner)).Nodup
        rw [List.map_append, List.nodup_append]
        refine ⟨hu.waitsOnce, List.nodup_singleton _, fun o ho o' ho' => ?_⟩
        obtain ⟨w, hw, rfl⟩ := List.mem_map.1 ho
        rw [List.mem_singleton.1 ho']
        exact honce w hw
      · rcases List.mem_append.1 hw with hw | hw
        · exact hu.waits w hw
        · rw [List.mem_singleton.1 hw]
          exact hmay

/-- A scan of SBP's wait list leaves a head that does not fit; what else it keeps (R112). -/
theorem State.scanBuffersFrom_scanned {l : List BufRequest} (h : s.sbp.waiting = l) :
    (State.scanBuffersFrom l s).BufferHeadWaits ∧ (s.LocksApart → (State.scanBuffersFrom l s).LocksApart) ∧
      (s.Staged → (State.scanBuffersFrom l s).Staged) ∧
      (s.Staged → s.BuffersInPlace → (State.scanBuffersFrom l s).BuffersInPlace) := by
  induction l generalizing s with
  | nil =>
    refine ⟨fun x rest hx => ?_, id, id, fun _ => id⟩
    exact absurd (h.symm.trans hx) (List.cons_ne_nil _ _).symm
  | cons r rest ih =>
    simp only [State.scanBuffersFrom]
    split
    · set u := s.updSbp fun p => { p with waiting := rest }
      have hu : s.Staged → u.Staged := fun hs =>
        { hs with
          waitsOnce := by
            have honce := hs.waitsOnce
            rw [h, List.map_cons, List.nodup_cons] at honce
            exact honce.2
          waits := fun w hw => hs.waits w (by rw [h]; exact List.mem_cons_of_mem r hw) }
      have hr : s.Staged → u.MayDraw r.owner := fun hs =>
        ⟨hs.waits r (by rw [h]; exact List.mem_cons_self), fun w hw ho => by
          have honce := hs.waitsOnce
          rw [h, List.map_cons, List.nodup_cons] at honce
          exact honce.1 (List.mem_map.2 ⟨w, hw, ho⟩)⟩
      obtain ⟨hhead, hlocks, hstaged, hbuffers⟩ := ih (s := u.grantBuffers r) (by rw [State.grantBuffers_sbp]; rfl)
      exact ⟨hhead, fun hs => hlocks (State.grantSet_locksApart _ _ (State.locksApart_congr rfl hs)),
        fun hs => hstaged (State.grantBuffers_staged (hu hs) (hr hs)),
        fun hs hb => hbuffers (State.grantBuffers_staged (hu hs) (hr hs))
          (State.grantBuffers_buffersInPlace (hu hs) (hr hs).may hb)⟩
    · rename_i hfit
      refine ⟨fun x rest' hx => ?_, id, id, fun _ => id⟩
      obtain rfl : r = x := (List.cons.inj (h.symm.trans hx)).1
      exact Nat.not_le.1 hfit

/-- Buffers have been given up, and SBP scans its wait list (R112). -/
theorem State.OrderKept.scanBuffers {v : State} (hslk : v.slk = s.slk) (hstaged : s.Staged → v.Staged)
    (hbuffers : s.Staged → s.BuffersInPlace → v.BuffersInPlace) : s.OrderKept v.scanBuffers := by
  obtain ⟨hhead, hlocks, hst, hb⟩ := State.scanBuffersFrom_scanned (s := v) rfl
  exact ⟨fun h => hlocks (State.locksApart_congr hslk h), fun _ => hhead, fun hs => hst (hstaged hs),
    fun hs hin => hb (hstaged hs) (hbuffers hs hin)⟩

theorem State.Staged.releaseHold (hs : s.Staged) : s.releaseHold.Staged := { hs with }

theorem State.Staged.returnSet (hs : s.Staged) (bufs : List BufId) : (s.returnSet bufs).Staged := { hs with }

end Buffers

/-! ## Assignment (R56 to R61) -/

/-- An IDLE lane is handed a batch. -/
theorem State.assign_order {n : Fin 4} {s : State} (h : s.lanes[n].stage = .idle) (b : Batch) : s.OrderKept (s.assign n b) := by
  set u := s.updLane n fun l => { l with batch := some b, stage := .buffering }
  have hself : u.lanes[n] = { s.lanes[n] with batch := some b, stage := .buffering } := State.updLane_get_self n _ s
  have hfree (hs : s.Staged) : s.LaneFree n := hs.free (by rw [h]; decide)
  have hu : s.OrderKept u := .of_sets rfl ⟨rfl, State.updLane_bufs rfl, rfl⟩ fun hs =>
    hs.updLane (hfree hs) fun _ => hs.bare n (.inl h)
  exact hu.requestBuffers fun hs => ⟨congrArg Lane.stage hself, (hfree hs).waits⟩

theorem State.serveLane_order {n : Fin 4} {s t : State} (h : s.lanes[n].stage = .idle) (ht : s.serveLane n = some t) :
    s.OrderKept t := by
  unfold State.serveLane at ht
  obtain ⟨x, -, rfl⟩ := Option.map_eq_some_iff.1 ht
  exact (s.updRgt_samePlaces _).order.trans (State.assign_order (s := s.updRgt fun _ => x.2) h x.1)

theorem State.passOver_order (l : List (Fin 4)) (s : State) : s.OrderKept (State.passOver l s) := by
  induction l generalizing s with
  | nil => exact .refl s
  | cons n rest ih =>
    simp only [State.passOver]
    split
    · rename_i he
      split
      · exact .refl s
      · rename_i ht
        exact (State.serveLane_order ((s.eligible_iff n).1 he).1 ht).trans (ih _)
    · exact ih _

theorem State.stepPass_order (s : State) : s.OrderKept s.stepPass := by
  unfold State.stepPass
  split
  · rename_i h
    cases ht : s.serveLane 0 with
    | none => exact .refl s
    | some t => exact State.serveLane_order h ht
  · exact .refl s

end Sys2Proof.Machine
end

section
/-! What the end of a batch, the end of a session, a fault, a settlement or a completion keeps of the locks, the stages and the
buffers (O57). -/

namespace Sys2Proof.Machine

/-! ## The session record -/

section Session

variable {s t : State}

/-- Outside QUALIFYING qualification neither waits for buffers nor has any (R23). -/
theorem State.Staged.not_qualifying (hs : s.Staged) (h : s.ses.state ≠ .qualifying) :
    (∀ w ∈ s.sbp.waiting, w.owner ≠ .qualification) ∧ s.ses.qualSet = [] := by
  refine ⟨fun w hw ho => ?_, by_contra fun hq => h (hs.qualified hq)⟩
  have hmay := hs.waits w hw
  rw [ho] at hmay
  exact h hmay.1

/-- A change of the session record outside QUALIFYING that hands qualification no buffers. -/
theorem State.updSes_order {f : Ses → Ses} (h : s.ses.state ≠ .qualifying) (hset : s.ses.qualSet = [] → (f s.ses).qualSet = []) :
    s.OrderKept (s.updSes f) := by
  refine ⟨State.locksApart_congr rfl, State.bufferHeadWaits_congr rfl, fun hs => ?_, fun hs hb => ?_⟩
  · obtain ⟨hwait, hempty⟩ := hs.not_qualifying h
    exact hs.updSes hwait fun hq => absurd (hset hempty) hq
  · have hempty := (hs.not_qualifying h).2
    have hsets : s.SetsKept (s.updSes f) := ⟨rfl, fun _ => rfl, (hset hempty).trans hempty.symm⟩
    exact hsets.buffersInPlace hb

theorem State.setEvent_samePlaces (e : Event) (s : State) : s.SamePlaces (s.setEvent e) := s.updMgp_samePlaces _

theorem State.changeState_order (h : s.ses.state ≠ .qualifying) (st : SessionState) : s.OrderKept (s.changeState st) :=
  (State.updSes_order (f := fun e => { e with state := st }) h id).trans (State.setEvent_samePlaces _ _).order

/-- A change of the session state that QUALIFYING does not make. -/
theorem SessionOnly.order (h : SessionOnly s t) (hq : s.ses.state = .qualifying → t = s) : s.OrderKept t := by
  by_cases hst : s.ses.state = .qualifying
  · rw [hq hst]
    exact .refl s
  · obtain ⟨st, m, rfl⟩ := h
    exact (State.updSes_order (f := fun e => { e with state := st }) hst id).trans (State.updMgp_samePlaces (fun _ => m) _).order

theorem State.drainingExit_order (h : s.ses.state ≠ .qualifying) : s.OrderKept s.drainingExit :=
  s.drainingExit_session.order fun hq => absurd hq h

theorem State.steppingExit_order (h : s.ses.state ≠ .qualifying) : s.OrderKept s.steppingExit :=
  s.steppingExit_session.order fun hq => absurd hq h

theorem State.exitTests_order (s : State) : s.OrderKept s.exitTests := by
  refine s.exitTests_session.order fun hq => ?_
  have htest : s.completionTest = s := by rw [State.completionTest, hq]
  rw [State.exitTests, htest]
  exact if_neg fun h => by rw [hq] at h; cases h.1

end Session

/-! ## Records and batches -/

theorem State.countRecord_samePlaces (stripe : Nat) (s : State) : s.SamePlaces (s.countRecord stripe) :=
  { State.SamePlaces.refl s with }

theorem State.uncountRecord_samePlaces (stripe : Nat) (s : State) : s.SamePlaces (s.uncountRecord stripe) :=
  { State.SamePlaces.refl s with }

theorem State.offer_samePlaces (r : Record) (s : State) : s.SamePlaces (s.offer r).1 := by
  unfold State.offer
  split
  · exact ((s.updLrl_samePlaces _).trans (State.countRecord_samePlaces _ _)).trans (State.setEvent_samePlaces _ _)
  · exact s.setEvent_samePlaces _

theorem State.retire_samePlaces (stripe : Nat) (s : State) : s.SamePlaces (s.retire stripe).1 := by
  unfold State.retire
  split
  · exact (s.updLrl_samePlaces _).trans (State.uncountRecord_samePlaces _ _)
  · exact .refl s

theorem State.retireAll_samePlaces (l : List Nat) (s : State) : s.SamePlaces (State.retireAll l s).1 := by
  induction l generalizing s with
  | nil => exact .refl s
  | cons stripe rest ih => exact (s.retire_samePlaces stripe).trans (ih _)

theorem State.offerAll_samePlaces (n : Fin 4) (l : List Nat) (s : State) : s.SamePlaces (State.offerAll n l s).1 := by
  induction l generalizing s with
  | nil => exact .refl s
  | cons stripe rest ih =>
    have h := s.offer_samePlaces (s.lanes[n].recordOf stripe)
    simp only [State.offerAll]
    split
    · refine (h.trans (State.updLane_samePlaces ?_ ?_)).trans (ih _)
      · rfl
      · rfl
    · exact h

theorem State.reportBatch_samePlaces (b : Batch) (s : State) : s.SamePlaces (s.reportBatch b) := by
  rw [State.reportBatch_eq]
  exact s.updRgt_samePlaces fun g => g.counted (s.regionHeld b.region) b

/-- A lane that has made its offers and gives up what it holds (R125, R127). -/
structure State.Leaving (n : Fin 4) (s : State) : Prop where
  stage : s.lanes[n].stage = .settling ∨ s.lanes[n].stage = .holding
  out : n ∉ s.holdingOrder

section EndBatch

variable {s : State} {n : Fin 4}

theorem State.Leaving.free (h : s.Leaving n) (hs : s.Staged) : s.LaneFree n := by
  have hne {st : LaneStage} (hst : st ≠ .settling) (hst' : st ≠ .holding) : s.lanes[n].stage ≠ st := by
    rintro rfl
    exact h.stage.elim hst hst'
  exact hs.free_of_not_holding (hne (by decide) (by decide)) (hne (by decide) (by decide)) (hne (by decide) (by decide)) h.out

theorem State.Leaving.congr {t : State} (h : s.Leaving n) (hstage : t.lanes[n].stage = s.lanes[n].stage)
    (hout : t.holdingOrder = s.holdingOrder) : t.Leaving n := ⟨by rw [hstage]; exact h.stage, by rw [hout]; exact h.out⟩

theorem LocksOnly.holdingOrder_eq {t : State} (h : LocksOnly s t) : t.holdingOrder = s.holdingOrder := by
  obtain ⟨m, o, l, k, a, r, rfl⟩ := h
  rfl

theorem WorkOnly.holdingOrder_eq {t : State} (h : WorkOnly s t) : t.holdingOrder = s.holdingOrder := by
  obtain ⟨m, o, l, k, a, r, b, e, q, c, rfl⟩ := h
  rfl

theorem State.giveUpBatch_sets (n : Fin 4) (s : State) : s.SetsKept (s.giveUpBatch n) :=
  ⟨rfl, State.updLane_bufs (f := fun l => { l with outcome := l.endOutcome, batch := none }) rfl, rfl⟩

theorem State.giveUpBatch_staged (hs : s.Staged) : (s.giveUpBatch n).Staged := by
  have hlane : (s.updLane n fun l => { l with outcome := l.endOutcome, batch := none }).Staged :=
    (State.updLane_samePlaces rfl rfl).staged hs
  exact { hlane with }

/-- Steps 1 and 2 of R129. -/
theorem State.scanLocks_giveUpBatch_order (n : Fin 4) (s : State) : s.OrderKept (s.giveUpBatch n).scanLocks :=
  .scanLocks (·.filter _) (s.giveUpBatch_sets n) State.giveUpBatch_staged

theorem State.Leaving.scanLocks (h : s.Leaving n) (hs : s.Staged) : (s.giveUpBatch n).scanLocks.Leaving n := by
  obtain ⟨granted, hruns, hgranted⟩ := (s.giveUpBatch n).scanLocks_scanned
  have hlane := hgranted.lanes.others n fun e he => (h.free hs).locks e (hruns.granted_sublist.subset he)
  refine h.congr ?_ hgranted.lanes.only.holdingOrder_eq
  rw [hlane, State.giveUpBatch_lane]

/-- Step 3 of R129. -/
theorem State.giveUpBuffers_staged (hs : s.Staged) (hfree : s.LaneFree n) : (s.giveUpBuffers n).Staged :=
  State.Staged.updLane (hs.returnSet _) ⟨hfree.waits, hfree.locks, hfree.holds, hfree.solves⟩ fun _ => rfl

theorem State.OrderKept.giveUpBuffers {u : State} (h : s.OrderKept u) (hl : s.Staged → u.Leaving n) :
    s.OrderKept (u.giveUpBuffers n).scanBuffers := by
  have hstaged (hs : s.Staged) : (u.giveUpBuffers n).Staged := State.giveUpBuffers_staged (h.staged hs) ((hl hs).free (h.staged hs))
  obtain ⟨hhead, hlocks, hst, hb⟩ := State.scanBuffersFrom_scanned (s := u.giveUpBuffers n) rfl
  exact ⟨fun hs => hlocks (State.locksApart_congr rfl (h.locks hs)), fun _ => hhead, fun hs => hst (hstaged hs),
    fun hs hin => hb (hstaged hs) ((h.buffers hs hin).return_lane n rfl)⟩

/-- The scan of SBP's wait list serves others, so the lane that gave its set up has none. -/
theorem State.Leaving.scanBuffers (h : s.Leaving n) (hs : s.Staged) :
    (s.giveUpBuffers n).scanBuffers.Leaving n ∧ (s.giveUpBuffers n).scanBuffers.lanes[n].bufs = [] := by
  have hself : (s.giveUpBuffers n).lanes[n] = { s.lanes[n] with bufs := [] } := State.updLane_get_self n _ _
  have hgranted : State.Granted (· ≠ .lane n) (s.giveUpBuffers n) (s.giveUpBuffers n).scanBuffers :=
    State.scanBuffers_granted (show ∀ w ∈ s.sbp.waiting, _ from (h.free hs).waits)
  have hlane := (hgranted.others n (not_not.2 rfl)).trans hself
  exact ⟨h.congr ((congrArg Lane.stage hlane).trans rfl) hgranted.work.holdingOrder_eq, congrArg Lane.bufs hlane⟩

/-- Step 4 of R129. -/
theorem State.OrderKept.clearLane {u : State} (h : s.OrderKept u) (hl : s.Staged → u.Leaving n ∧ u.lanes[n].bufs = []) :
    s.OrderKept (u.clearLane n) := by
  refine ⟨fun hs => State.locksApart_congr rfl (h.locks hs), fun hs => State.bufferHeadWaits_congr rfl (h.head hs), fun hs => ?_,
    fun hs hin => ?_⟩
  · exact (h.staged hs).updLane ((hl hs).1.free (h.staged hs)) fun _ => rfl
  · have hsets : u.SetsKept (u.clearLane n) :=
      ⟨rfl, State.updLane_bufs (f := fun l => { Lane.reset with outcome := l.outcome }) (hl hs).2.symm, rfl⟩
    exact hsets.buffersInPlace (h.buffers hs hin)

/-- Steps 1 to 4 of R129. -/
theorem State.OrderKept.laneCleared {u : State} (h : s.OrderKept u) (hl : s.Staged → u.Leaving n) :
    s.OrderKept (u.laneCleared n) := by
  have hlocks := h.trans (u.scanLocks_giveUpBatch_order n)
  have hleft (hs : s.Staged) : (u.giveUpBatch n).scanLocks.Leaving n := (hl hs).scanLocks (h.staged hs)
  exact (hlocks.giveUpBuffers hleft).clearLane fun hs => (hleft hs).scanBuffers (hlocks.staged hs)

theorem State.passAfterBatch_order (n : Fin 4) (returned : Bool) (s : State) : s.OrderKept (s.passAfterBatch n returned) := by
  unfold State.passAfterBatch
  split
  · split
    · exact State.passOver_order _ s
    · exact State.passOver_order _ s
  · exact .refl s

/-- A lane that has made its offers ends its batch (R129). -/
theorem State.OrderKept.endBatch {u : State} (h : s.OrderKept u) (hl : s.Staged → u.Leaving n) : s.OrderKept (u.endBatch n) := by
  cases hb : u.lanes[n].batch with
  | none =>
    have hsame : u.endBatch n = u := by rw [State.endBatch, hb]
    rwa [hsame]
  | some b =>
    rw [State.endBatch_eq hb]
    exact (((h.laneCleared hl).trans (State.reportBatch_samePlaces b _).order).trans (State.exitTests_order _)).trans
      (State.passAfterBatch_order n _ _)

end EndBatch

end Sys2Proof.Machine
end

section
/-! What SETTLING and HOLDING, the end of a session, a fault, a settlement or a completion keeps of the locks, the stages and the
buffers (O57). -/

namespace Sys2Proof.Machine

/-! ## SETTLING and HOLDING (R125 to R127) -/

section Holding

variable {s u : State} {n : Fin 4}

/-- A lane that stands in no list takes a stage other than IDLE and BUFFERING, and keeps its buffers. -/
theorem State.OrderKept.updLane (h : s.OrderKept u) {f : Lane → Lane} (hbufs : (f u.lanes[n]).bufs = u.lanes[n].bufs)
    (hstage : (f u.lanes[n]).stage ≠ .idle ∧ (f u.lanes[n]).stage ≠ .buffering) (hfree : s.Staged → u.LaneFree n) :
    s.OrderKept (u.updLane n f) := by
  have hsets : u.SetsKept (u.updLane n f) := ⟨rfl, State.updLane_bufs hbufs, rfl⟩
  exact ⟨fun hs => State.locksApart_congr rfl (h.locks hs), fun hs => State.bufferHeadWaits_congr rfl (h.head hs),
    fun hs => (h.staged hs).updLane (hfree hs) fun hc => absurd hc (not_or.2 hstage),
    fun hs hb => hsets.buffersInPlace (h.buffers hs hb)⟩

/-- A lane in HOLDING joins the tail of the holding order. -/
theorem State.Staged.hold (hs : s.Staged) (hout : n ∉ s.holdingOrder) (hstage : s.lanes[n].stage = .holding) :
    ({ s with holdingOrder := s.holdingOrder ++ [n] } : State).Staged := by
  refine { hs with holdsOnce := ?_, holds := fun m hm => ?_ }
  · rw [List.nodup_append]
    refine ⟨hs.holdsOnce, List.nodup_singleton n, fun a ha b hb => ?_⟩
    rw [List.mem_singleton.1 hb]
    exact fun hab => hout (hab ▸ ha)
  · rcases List.mem_append.1 hm with hm | hm
    · exact hs.holds m hm
    · rw [List.mem_singleton.1 hm]
      exact hstage

theorem State.OrderKept.enterHolding (h : s.OrderKept u) (hfree : s.Staged → u.LaneFree n) : s.OrderKept (u.enterHolding n) := by
  set v := u.updLane n fun l => { l with stage := .holding }
  have hv : s.OrderKept v := h.updLane rfl ⟨by simp, by simp⟩ hfree
  have hself : v.lanes[n].stage = .holding := congrArg Lane.stage (State.updLane_get_self n (fun l => { l with stage := .holding }) u)
  have hheld : s.OrderKept { v with holdingOrder := v.holdingOrder ++ [n] } :=
    ⟨fun hs => State.locksApart_congr rfl (hv.locks hs), fun hs => State.bufferHeadWaits_congr rfl (hv.head hs),
      fun hs => (hv.staged hs).hold (hfree hs).holds hself, fun hs hb => hv.buffers hs hb⟩
  unfold State.enterHolding
  simp only
  split
  · rename_i hrunning
    exact hheld.trans (State.changeState_order (by rw [hrunning]; decide) _)
  · exact hheld

theorem State.offerAll_samePlaces_of_eq {l : List Nat} {t : State} {accepted : Bool} (h : State.offerAll n l s = (t, accepted)) :
    s.SamePlaces t := by
  have hsame := State.offerAll_samePlaces n l s
  rwa [h] at hsame

/-- A lane in WRITING has no write left (R125). -/
theorem State.OrderKept.enterSettling (h : s.OrderKept u) (hfree : s.Staged → u.LaneFree n) :
    s.OrderKept (u.enterSettling n) := by
  set v := u.updLane n fun l => { l with stage := .settling, offers := u.lanes[n].firstOffers }
  have hv : s.OrderKept v := h.updLane rfl ⟨by simp, by simp⟩ hfree
  have hself : v.lanes[n].stage = .settling :=
    congrArg Lane.stage (State.updLane_get_self n (fun l => { l with stage := .settling, offers := u.lanes[n].firstOffers }) u)
  unfold State.enterSettling
  simp only
  split
  all_goals
    rename_i t hoffers
    have hsame := State.offerAll_samePlaces_of_eq hoffers
    have ht := hv.trans hsame.order
    have hstage : t.lanes[n].stage = .settling := (hsame.stage n).trans hself
    have htfree (hs : s.Staged) : t.LaneFree n := (ht.staged hs).free (by rw [hstage]; decide)
  · exact ht.endBatch fun hs => ⟨.inl hstage, (htfree hs).holds⟩
  · exact ht.enterHolding htfree

theorem State.endBatch_holdingOrder (n : Fin 4) (s : State) : (s.endBatch n).holdingOrder = s.holdingOrder := by
  cases hb : s.lanes[n].batch with
  | none => rw [State.endBatch, hb]
  | some b =>
    rw [State.endBatch_eq hb, ← s.batchReported_holdingOrder n b]
    obtain ⟨hpass, -⟩ := State.passAfterBatch_kept n (s.ses.state == .suspended) (s.batchReported n b).exitTests
    obtain ⟨g, m, o, l, k, p, hpass⟩ := hpass.only
    obtain ⟨st, m', hexit⟩ := (s.batchReported n b).exitTests_session
    rw [hpass, hexit]

/-- The holders end their batches, oldest first (R127). -/
theorem State.serveHolders_order {l : List (Fin 4)} (h : s.holdingOrder = l) : s.OrderKept (State.serveHolders l s) := by
  induction l generalizing s with
  | nil => exact .refl s
  | cons n rest ih =>
    simp only [State.serveHolders]
    split
    · rename_i t hoffers
      have hsame := State.offerAll_samePlaces_of_eq hoffers
      have horder : t.holdingOrder = n :: rest := hsame.holdingOrder.trans h
      have hleft : s.OrderKept { t with holdingOrder := rest } := by
        refine hsame.order.trans (.of_sets rfl ⟨rfl, fun _ => rfl, rfl⟩ fun ht => { ht with holdsOnce := ?_, holds := fun m hm => ?_ })
        · have honce := ht.holdsOnce
          rw [horder] at honce
          exact (List.nodup_cons.1 honce).2
        · exact ht.holds m (by rw [horder]; exact List.mem_cons_of_mem n hm)
      refine (hleft.endBatch fun hs => ?_).trans (ih (State.endBatch_holdingOrder n _))
      have ht := hsame.staged hs
      have honce := ht.holdsOnce
      rw [horder] at honce
      exact ⟨.inr (ht.holds n (by rw [horder]; exact List.mem_cons_self)), (List.nodup_cons.1 honce).1⟩
    · rename_i t hoffers
      exact (State.offerAll_samePlaces_of_eq hoffers).order

theorem State.afterRetirement_order (s : State) : s.OrderKept s.afterRetirement := State.serveHolders_order rfl

/-! ## SOLVING and WRITING (R120, R121) -/

/-- A lane that stands in no list enters SOLVING and has a solve context (R120). -/
theorem State.OrderKept.enterSolving (h : s.OrderKept u) (hfree : s.Staged → u.LaneFree n) : s.OrderKept (u.enterSolving n) := by
  have hv : s.OrderKept (u.updLane n fun l => { l with stage := .solving }) := h.updLane rfl ⟨by simp, by simp⟩ hfree
  refine ⟨fun hs => State.locksApart_congr rfl (hv.locks hs), fun hs => State.bufferHeadWaits_congr rfl (hv.head hs),
    fun hs => { hv.staged hs with solves := fun m hm => ?_ }, fun hs hb => hv.buffers hs hb⟩
  rw [State.enterSolving_lane]
  rw [State.enterSolving_context] at hm
  split
  · rfl
  · rename_i hmn
    rw [if_neg hmn] at hm
    exact (h.staged hs).solves m hm

theorem State.OrderKept.enterWriting (h : s.OrderKept u) (hfree : s.Staged → u.LaneFree n) (results : List StripeResult) :
    s.OrderKept (u.enterWriting n results) := by
  have hsets := u.enterWriting_sets n results
  exact ⟨fun hs => State.locksApart_congr (State.enterWriting_slk results) (h.locks hs),
    fun hs => State.bufferHeadWaits_congr hsets.sbp (h.head hs),
    fun hs => State.enterWriting_staged (h.staged hs) (hfree hs) results, fun hs hb => hsets.buffersInPlace (h.buffers hs hb)⟩

/-- A lane in SOLVING takes its next block, or enters WRITING with its context deleted (R121, R161). -/
theorem State.takeBlock_order (n : Fin 4) (s : State) : s.OrderKept (s.takeBlock n) := by
  unfold State.takeBlock
  split
  · rename_i c batch hctx _
    have hsolving (hs : s.Staged) : s.lanes[n].stage = .solving := hs.solves n (hctx.trans_ne (Option.some_ne_none c))
    have hset (a : Nat) (bytes : List Byte) (c' : Option SolveContext) :
        s.OrderKept ((s.writeMem a bytes).setContext n c') := by
      refine .of_sets rfl ⟨rfl, fun _ => rfl, rfl⟩ fun hs => { hs with solves := fun m hm => ?_ }
      by_cases hmn : m = n
      · rw [hmn]
        exact hsolving hs
      · refine hs.solves m ?_
        have hval : n.val ≠ m.val := fun e => hmn (Fin.ext e.symm)
        simpa [State.setContext, State.updRcd, State.writeMem, hval] using hm
    simp only
    split
    · exact hset _ _ _
    · refine (hset _ _ none).enterWriting (fun hs => ?_) _
      have hstage := hsolving hs
      refine ⟨hs.not_waiting (hstage.trans_ne (by decide)), hs.not_locking (hstage.trans_ne (by decide)),
        hs.not_holding (hstage.trans_ne (by decide)), ?_⟩
      simp [State.setContext, State.updRcd]
  · exact .refl s

end Holding

end Sys2Proof.Machine
end

section
/-! What the end of a session, a fault, a settlement, a completion or a timeout keeps of the locks, the stages and the buffers
(O57). -/

namespace Sys2Proof.Machine

/-! ## The end of a session (R40, R132, R133) -/

section Ending

variable {s t : State}

theorem State.abandonLane_buffersInPlace (n : Fin 4) (h : s.BuffersInPlace) : (s.abandonLane n).BuffersInPlace := by
  unfold State.abandonLane
  split
  · exact h.return_lane n rfl
  · exact h

theorem State.foldl_abandonLane_buffersInPlace (l : List (Fin 4)) (h : s.BuffersInPlace) :
    (l.foldl State.abandonLane s).BuffersInPlace := by
  induction l generalizing s with
  | nil => exact h
  | cons n rest ih => exact ih (State.abandonLane_buffersInPlace n h)

/-- Every set returns to SBP (R40, R133). -/
theorem State.abandonAll_buffersInPlace (h : s.BuffersInPlace) : s.abandonAll.BuffersInPlace := by
  set u := s.clearAll.updSbp fun p => { p with waiting := [] }
  have habandon : s.abandonAll = ({ (allLanes.foldl State.abandonLane u).abandonQualification with holdingOrder := [] } :
    State).updRcd fun r => { r with contexts := Vector.replicate 4 none } := rfl
  have hlanes : (allLanes.foldl State.abandonLane u).BuffersInPlace :=
    State.foldl_abandonLane_buffersInPlace allLanes (s := u) h
  rw [habandon]
  generalize allLanes.foldl State.abandonLane u = v at hlanes
  exact hlanes.return_qual (f := fun e => { e with qualSet := [], qualProgress := none }) rfl

/-- SLK's collections are emptied, and qualification has no buffers; SBP and the lanes are the same. -/
structure State.LocksEmptied (s t : State) : Prop where
  slk : t.slk = Slk.reset
  sbp : t.sbp = s.sbp
  lanes : t.lanes = s.lanes
  holdingOrder : t.holdingOrder = s.holdingOrder
  contexts : t.rcd.contexts = s.rcd.contexts
  qualSet : t.ses.qualSet = []

/-- All work has been abandoned, and SLK's collections are empty (R40, R202). -/
theorem State.LocksEmptied.order (h : s.abandonAll.LocksEmptied t) : s.OrderKept t := by
  have habandoned := s.abandonAll_abandoned
  have hwaiting : t.sbp.waiting = [] := by rw [h.sbp, habandoned.waiting]
  have hholding : t.holdingOrder = [] := by rw [h.holdingOrder, habandoned.only]
  have hset : s.abandonAll.ses.qualSet = [] := by rw [habandoned.only]
  have hnone (n : Fin 4) : t.rcd.contexts[n] = none := by
    rw [h.contexts, habandoned.only]
    simp
  refine ⟨fun _ => ?_, fun _ x rest hx => ?_, fun hs => ?_, fun _ hb => ?_⟩
  · rw [State.locksApart_iff, h.slk]
    exact ⟨.nil, .nil _⟩
  · rw [hwaiting] at hx
    cases hx
  · refine ⟨?_, ?_, ?_, ?_, ?_, ?_, fun n hn => absurd (hnone n) hn, fun n hn => ?_, fun hq => absurd h.qualSet hq⟩
    · rw [hwaiting]; exact List.nodup_nil
    · rw [hwaiting]; exact fun w hw => absurd hw List.not_mem_nil
    · rw [h.slk]; exact List.nodup_nil
    · rw [h.slk]; exact fun e he => absurd he List.not_mem_nil
    · rw [hholding]; exact List.nodup_nil
    · rw [hholding]; exact fun n hn => absurd hn List.not_mem_nil
    · rw [h.lanes, habandoned.lanes] at hn ⊢
      by_cases hb : s.lanes[n].batch = none
      · rw [Lane.abandoned_of_none hb] at hn ⊢
        exact hs.bare n hn
      · rw [Lane.abandoned_of_ne hb]
        rfl
  · have hsets : s.abandonAll.SetsKept t := ⟨h.sbp, fun _ => by rw [h.lanes], h.qualSet.trans hset.symm⟩
    exact hsets.buffersInPlace (State.abandonAll_buffersInPlace hb)

theorem State.endSession_order (new : SessionState) (cause : Cause) (s : State) : s.OrderKept (s.endSession new cause) := by
  have hemptied {v : State} (hv : v.ses.qualSet = []) :
      v.LocksEmptied (((v.emptyLocks .spareVoid).updSes fun e => { e with cause := cause }).changeState new) :=
    ⟨rfl, rfl, rfl, rfl, rfl, hv⟩
  exact (hemptied (by rw [s.abandonAll_abandoned.only])).order

end Ending

/-! ## Faults (R36 to R38) -/

section Faults

variable {s u : State} {n : Fin 4}

/-- A lane whose last read is in enters SOLVING. -/
theorem State.enterSolving_order (h : s.lanes[n].stage = .reading) : s.OrderKept (s.enterSolving n) :=
  (State.OrderKept.refl s).enterSolving fun hs => hs.free (by rw [h]; decide)

theorem State.faultLane_order (x : Nat) (s : State) (n : Fin 4) : s.OrderKept (s.faultLane x n) := by
  unfold State.faultLane
  split
  · rename_i hstage
    set u := s.updLane n fun l =>
      { l with outstanding := l.outstanding - l.unsettled x, reads := l.reads.map (missingAt x) }
    have hsame : s.SamePlaces u := State.updLane_samePlaces rfl rfl
    simp only
    split
    · exact hsame.order.trans (State.enterSolving_order ((hsame.stage n).trans hstage))
    · exact hsame.order
  · exact (State.updLane_samePlaces rfl rfl).order
  · exact .refl s

theorem State.markFaulted_samePlaces (x : Nat) (s : State) : s.SamePlaces (s.markFaulted x) :=
  { State.SamePlaces.refl s with }

theorem State.firstFault_order (x : Nat) (s : State) : s.OrderKept (s.firstFault x) := by
  have hmarked : s.SamePlaces ((s.markFaulted x).updSes fun e => { e with faultedSurvivor := some x }) :=
    { s.markFaulted_samePlaces x with }
  exact (hmarked.order.trans (State.clearPosition_only x _).order).trans
    (State.OrderKept.foldl (State.faultLane_order x) allLanes _)

theorem State.takeFault_order (x : Nat) (s : State) : s.OrderKept (s.takeFault x) := by
  unfold State.takeFault
  split
  · exact .refl s
  · split
    · exact .refl s
    · exact .refl s
    · exact s.endSession_order _ _
    · split
      · exact s.firstFault_order x
      · exact (s.markFaulted_samePlaces x).order.trans (State.endSession_order _ _ _)

end Faults

/-! ## Settlements (R118, R120, R123, R25 to R27) -/

section Settlements

variable {s : State} {n : Fin 4}

theorem State.settleRead_order (n : Fin 4) (r : Request) (o : Settlement) (s : State) : s.OrderKept (s.settleRead n r o) := by
  unfold State.settleRead
  split
  · rename_i hstage
    set u := s.updLane n fun l =>
      { l with
        outstanding := l.outstanding - 1
        reads := l.reads.modify (s.lanes[n].bufs.idxOf r.buf / s.profile.n) fun row =>
          row.modify r.position fun c => c.settle o }
    have hsame : s.SamePlaces u := State.updLane_samePlaces rfl rfl
    simp only
    split
    · exact hsame.order.trans (State.enterSolving_order ((hsame.stage n).trans hstage))
    · exact hsame.order
  · exact .refl s

theorem State.settleWrite_order (n : Fin 4) (s : State) : s.OrderKept (s.settleWrite n) := by
  unfold State.settleWrite
  split
  · rename_i hstage
    set u := s.updLane n fun l => { l with outstanding := l.outstanding - 1 }
    have hsame : s.SamePlaces u := State.updLane_samePlaces rfl rfl
    simp only
    split
    · exact hsame.order.enterSettling fun hs => (hsame.staged hs).free (by rw [hsame.stage, hstage]; decide)
    · exact hsame.order
  · exact .refl s

/-- Qualification waits for buffers in the phase before its first attempt only (R23). -/
theorem State.Staged.qualification_not_waiting (hs : s.Staged)
    (h : ∀ q, s.ses.qualProgress = some q → q.phase = .buffers → q.held ≠ .none) :
    ∀ w ∈ s.sbp.waiting, w.owner ≠ .qualification := by
  intro w hw ho
  have hmay := hs.waits w hw
  rw [ho] at hmay
  obtain ⟨-, -, q, hq, hphase, hheld⟩ := hmay
  exact h q hq hphase hheld

/-- A step of qualification taken or held back while it does not wait for buffers. -/
theorem State.progress_order {m : Mru} {o : List Output} {e : Memory} {q : Option QualProgress}
    (hwait : s.Staged → ∀ w ∈ s.sbp.waiting, w.owner ≠ .qualification) :
    s.OrderKept { s with mru := m, sent := o, mem := e, ses := { s.ses with qualProgress := q } } :=
  .of_sets rfl ⟨rfl, fun _ => rfl, rfl⟩ fun hs =>
    { hs.updSes (f := fun x => { x with qualProgress := q }) (hwait hs) hs.qualified with }

theorem State.beginAttempt_order (hwait : s.Staged → ∀ w ∈ s.sbp.waiting, w.owner ≠ .qualification) (q : QualProgress) :
    s.OrderKept (s.beginAttempt q) := by
  obtain ⟨m, o, e, p, h⟩ := (s.beginAttempt_stepped q).only
  rw [h]
  exact State.progress_order hwait

theorem State.beginReadBack_order (hwait : s.Staged → ∀ w ∈ s.sbp.waiting, w.owner ≠ .qualification) (q : QualProgress) :
    s.OrderKept (s.beginReadBack q) := by
  obtain ⟨m, o, p, h⟩ := s.beginReadBack_frame q
  rw [h]
  exact State.progress_order hwait

theorem State.resumeHeldStep_order (s : State) : s.OrderKept s.resumeHeldStep := by
  unfold State.resumeHeldStep
  split
  · exact .refl s
  · rename_i q hq
    have hwait (hheld : q.held ≠ .none) (hs : s.Staged) : ∀ w ∈ s.sbp.waiting, w.owner ≠ .qualification :=
      hs.qualification_not_waiting fun q' hq' _ => by
        rw [hq] at hq'
        exact Option.some.inj hq' ▸ hheld
    split
    · exact .refl s
    · rename_i hheld
      exact State.beginAttempt_order (hwait (by rw [hheld]; decide)) q
    · rename_i hheld
      exact State.beginReadBack_order (hwait (by rw [hheld]; decide)) q

/-- A session record put in place while qualification neither waits for buffers nor has any. -/
theorem State.OrderKept.updSes {u : State} (h : s.OrderKept u) {f : Ses → Ses}
    (hidle : s.Staged → (∀ w ∈ u.sbp.waiting, w.owner ≠ .qualification) ∧ u.ses.qualSet = [])
    (hset : u.ses.qualSet = [] → (f u.ses).qualSet = []) : s.OrderKept (u.updSes f) := by
  refine ⟨fun hs => State.locksApart_congr rfl (h.locks hs), fun hs => State.bufferHeadWaits_congr rfl (h.head hs), fun hs => ?_,
    fun hs hb => ?_⟩
  · obtain ⟨hwait, hempty⟩ := hidle hs
    exact (h.staged hs).updSes hwait fun hq => absurd (hset hempty) hq
  · have hempty := (hidle hs).2
    have hsets : u.SetsKept (u.updSes f) := ⟨rfl, fun _ => rfl, (hset hempty).trans hempty.symm⟩
    exact hsets.buffersInPlace (h.buffers hs hb)

/-- A scan of SBP's wait list adds nothing to it. -/
theorem State.mem_of_scanBuffersFrom {l : List BufRequest} (h : s.sbp.waiting = l) :
    ∀ w ∈ (State.scanBuffersFrom l s).sbp.waiting, w ∈ l := by
  induction l generalizing s with
  | nil => exact fun w hw => h ▸ hw
  | cons r rest ih =>
    simp only [State.scanBuffersFrom]
    split
    · intro w hw
      refine List.mem_cons_of_mem r (ih ?_ w hw)
      rw [State.grantBuffers_sbp]
      rfl
    · exact fun w hw => h ▸ hw

/-- The last attempt has passed, and the session is READY (R27). -/
theorem State.finishQualification_order (hwait : s.Staged → ∀ w ∈ s.sbp.waiting, w.owner ≠ .qualification) :
    s.OrderKept s.finishQualification := by
  set u := (s.returnSet s.ses.qualSet).updSes fun e => { e with qualSet := [], qualProgress := none }
  have hscan : s.OrderKept u.scanBuffers :=
    .scanBuffers rfl (fun hs => (hs.returnSet _).updSes (hwait hs) fun hq => absurd rfl hq)
      fun _ hb => hb.return_qual rfl
  have hidle (hs : s.Staged) :
      (∀ w ∈ u.scanBuffers.sbp.waiting, w.owner ≠ .qualification) ∧ u.scanBuffers.ses.qualSet = [] := by
    have hnot : ∀ w ∈ u.sbp.waiting, w.owner ≠ .qualification := hwait hs
    have hgranted : State.Granted (· ≠ .qualification) u u.scanBuffers := State.scanBuffers_granted hnot
    exact ⟨fun w hw => hnot w (State.mem_of_scanBuffersFrom rfl w hw), congrArg Ses.qualSet (hgranted.ses (not_not.2 rfl))⟩
  have hready : s.OrderKept (u.scanBuffers.updSes fun e => { e with state := .ready }) := hscan.updSes hidle id
  exact hready.trans ((State.setEvent_samePlaces .stateChange _).trans (State.setEvent_samePlaces .qualDone _)).order

theorem State.attemptOutcome_order (hwait : s.Staged → ∀ w ∈ s.sbp.waiting, w.owner ≠ .qualification) (q : QualProgress)
    (passed : Bool) : s.OrderKept (s.attemptOutcome q passed) := by
  unfold State.attemptOutcome
  split
  · split
    · exact State.beginAttempt_order hwait _
    · exact State.finishQualification_order hwait
  · split
    · exact State.beginAttempt_order hwait _
    · exact s.endSession_order _ _

theorem State.settleQualification_order (o : Settlement) (s : State) : s.OrderKept (s.settleQualification o) := by
  unfold State.settleQualification
  split
  · exact .refl s
  · rename_i q hq
    have hwait (hphase : q.phase ≠ .buffers) (hs : s.Staged) : ∀ w ∈ s.sbp.waiting, w.owner ≠ .qualification :=
      hs.qualification_not_waiting fun q' hq' hbuffers => by
        rw [hq] at hq'
        exact absurd (Option.some.inj hq' ▸ hbuffers) hphase
    split
    · exact .refl s
    · rename_i hphase
      exact State.beginReadBack_order (hwait (by rw [hphase]; decide)) q
    · rename_i hphase
      exact State.attemptOutcome_order (hwait (by rw [hphase]; decide)) q _

theorem State.settle_order (r : Request) (o : Settlement) (s : State) : s.OrderKept (s.settle r o) := by
  unfold State.settle
  split
  · exact .refl s
  · exact s.settleQualification_order o
  · split
    · exact s.settleWrite_order _
    · exact s.settleRead_order _ _ _

end Settlements

/-! ## Completions and timeouts (R142 to R152) -/

theorem State.endWith_order {report : State → State} (h : ∀ s : State, s.OrderKept (report s)) (x : Nat) (s : State) :
    s.OrderKept (s.endWith x report) :=
  (h s).trans ((State.serveTagWait_only _).trans (State.decideAfterFree_only x _)).order

theorem State.completeRequest_order (r : Request) (status : CompletionStatus) (mask : Mask) (s : State) :
    s.OrderKept (s.completeRequest r status mask) := by
  have settles (o : Settlement) (v : State) : v.OrderKept (v.endWith r.position (State.settle r o)) :=
    State.endWith_order (State.settle_order r o) _ v
  have fails (v : State) : v.OrderKept (v.endWith r.position (State.endSession .failed .spareUnwritable)) :=
    State.endWith_order (State.endSession_order .failed .spareUnwritable) _ v
  have requeued (r' : Request) (v : State) : v.OrderKept ((v.requeueHead r').issueDecision r.position) :=
    ((State.requeueHead_only r' v).trans (State.issueDecision_only _ _)).order
  have counted : s.OrderKept (s.setTimeouts r.position 0) := (State.setTimeouts_only _ _ s).order
  cases status with
  | good => exact counted.trans (settles .good _)
  | medium =>
    simp only [State.completeRequest, State.completeMedium]
    split
    · exact counted.trans (settles _ _)
    · split
      · exact counted.trans (fails _)
      · exact counted.trans (requeued _ _)
  | defer =>
    simp only [State.completeRequest, State.completeDefer]
    split
    · exact requeued _ s
    · split
      · exact fails s
      · exact settles _ s
  | lost =>
    simp only [State.completeRequest, State.completeLost]
    exact (s.serveTagWait_only.order.trans (State.takeFault_order _ _)).trans (State.decideAfterFree_only _ _).order

theorem State.reportQuarantineEnd_order (s : State) : s.OrderKept s.reportQuarantineEnd := by
  have hscan : s.OrderKept s.releaseHold.scanBuffers := .scanBuffers rfl (·.releaseHold) fun _ hb => hb.releaseHold
  exact hscan.trans (State.resumeHeldStep_order _)

theorem State.endQuarantine_order (tag : Nat) (s : State) : s.OrderKept (s.endQuarantine tag) :=
  ((s.removeQuarantined_only tag).order.trans (State.reportQuarantineEnd_order _)).trans
    ((State.serveTagWait_only _).trans (State.decideAll_only _)).order

theorem State.landData_samePlaces (r : Request) (data : List Byte) (s : State) : s.SamePlaces (s.landData r data) := by
  unfold State.landData
  split
  · exact .refl s
  · exact s.writeMem_samePlaces _ _

theorem State.takeCompletion_order (tag : Nat) (status : Byte) (mask : Mask) (data : List Byte) (s : State) :
    s.OrderKept (s.takeCompletion tag status mask data) := by
  unfold State.takeCompletion
  split
  · exact .refl s
  · split
    · exact ((s.landData_samePlaces _ data).order.trans (State.leaveOutstanding_only _ _ _).order).trans
        (State.completeRequest_order _ _ _ _)
    · split
      · exact (s.landData_samePlaces _ data).order.trans (State.endQuarantine_order _ _)
      · exact .refl s

theorem State.serveTimedOut_order (r : Request) (s : State) : s.OrderKept (s.serveTimedOut r) := by
  unfold State.serveTimedOut
  split
  · exact (State.requeueHead_only _ s).order
  · exact s.settle_order _ _

theorem State.timeOut_order (r : Request) (tag : Nat) (s : State) : s.OrderKept (s.timeOut r tag) := by
  have late : MruOnly s ((s.leaveOutstanding r.position tag).updMru fun m =>
      { m with quarantined := m.quarantined ++ [r.quarantine (s.now + m.timeout)] }) :=
    (State.leaveOutstanding_only _ _ s).trans (State.updMru_only _ _)
  have counted := (late.order.trans (State.setEvent_samePlaces .memberTimeout _).order).trans
    (State.setTimeouts_only r.position (min 3 ((s.mru.pos r.position).timeouts + 1)) _).order
  unfold State.timeOut
  dsimp only
  refine State.OrderKept.trans ?_ (State.issueDecision_only _ _).order
  split
  · exact counted.trans (State.serveTimedOut_order r _)
  · exact counted.trans (State.takeFault_order _ _)

end Sys2Proof.Machine
end

section
/-! What each command, each port and each event of time keeps of the locks, the stages and the buffers, and so what a step keeps
(O57). -/

namespace Sys2Proof.Machine

/-! ## Session control -/

section SessionControl

variable {s : State}

theorem State.emptyLocks_order (status : RouteStatus) (s : State) : s.OrderKept (s.emptyLocks status) := by
  refine ⟨fun _ => ?_, State.bufferHeadWaits_congr rfl, fun hs => ?_, fun _ hb => hb⟩
  · rw [State.locksApart_iff]
    exact ⟨.nil, .nil _⟩
  · exact { hs with locksOnce := List.nodup_nil, locks := fun e he => absurd he List.not_mem_nil }

theorem State.forgetSession_order (h : s.ses.state ≠ .qualifying) : s.OrderKept s.forgetSession :=
  ((s.updRgt_samePlaces _).trans (State.updLrl_samePlaces _ _)).order.trans
    (State.updSes_order (f := fun e => Ses.absent e.laneCount) h fun _ => rfl)

/-- A STEP's pass leaves the session in STEPPING. -/
theorem State.stepPass_state (s : State) : s.stepPass.ses.state = s.ses.state := by
  unfold State.stepPass State.serveLane State.assign
  split
  · cases s.rgt.nextBatch s.profile.rs (s.ses.batchSize.getD 0) with
    | none => rfl
    | some x =>
      obtain ⟨m, o, l, k, a, r, b, e, q, c, h⟩ := State.requestBuffers_only
        { owner := .lane 0, size := (s.updRgt fun _ => x.2).profile.n * x.1.length }
        ((s.updRgt fun _ => x.2).updLane 0 fun l => { l with batch := some x.1, stage := .buffering })
      rw [Option.map_some, Option.getD_some, h]
      rfl
  · rfl

theorem takeOpenSession_order (f b lanes fill start aq kq skipQual : Nat) (s : State) :
    s.OrderKept (takeOpenSession f b lanes fill start aq kq skipQual s).1 := by
  unfold takeOpenSession
  split
  · exact .refl s
  · rename_i hstate
    have habsent : s.ses.state ≠ .qualifying := by rw [not_not.1 hstate]; decide
    split
    · exact .refl s
    · exact .refl s
    · rename_i p kind _ _
      split
      · exact .refl s
      · simp only
        split
        · exact .refl s
        · set v := ((s.updSes fun _ => Ses.opened p.n f b lanes kind aq kq (skipQual != 0)).updRgt (Rgt.build p start)).zeroTimeouts
          have hopened : s.OrderKept v :=
            ((State.updSes_order (f := fun _ => Ses.opened p.n f b lanes kind aq kq (skipQual != 0)) habsent fun _ => rfl).trans
              (State.updRgt_samePlaces _ _).order).trans (State.zeroTimeouts_only _).order
          have hentered (st : SessionState) : s.OrderKept (v.changeState st) :=
            hopened.trans (State.changeState_order (by show SessionState.absent ≠ _; decide) st)
          split
          · exact hentered _
          · rename_i hskip
            refine (hentered _).requestBuffers fun hs => ⟨⟨rfl, rfl, .start, ?_, rfl, rfl⟩, (hs.not_qualifying habsent).1⟩
            exact if_neg hskip

theorem takeResetEngine_order (s : State) : s.OrderKept (takeResetEngine s).1 := by
  have hemptied (v : State) : v.LocksEmptied
      ((((v.zeroTimeouts.forgetSession).updSlk fun _ => Slk.reset).updRtu fun _ => Rtu.reset).updMgp (Mgp.onlyEvent .engineReset)) :=
    ⟨rfl, rfl, rfl, rfl, rfl, rfl⟩
  exact (hemptied s.abandonAll).order

theorem takeSetLanes_order (count : Nat) (s : State) : s.OrderKept (takeSetLanes count s).1 := by
  have counted : s.SamePlaces (s.updSes fun e => { e with laneCount := clampTo 1 4 count }) := { State.SamePlaces.refl s with }
  unfold takeSetLanes
  simp only
  split
  · exact counted.order.trans (State.passOver_order _ _)
  · exact counted.order

theorem takeForgive_order (stripe : Nat) (s : State) : s.OrderKept (takeForgive stripe s).1 := by
  unfold takeForgive
  split
  · exact .refl s
  · split
    · exact .refl s
    · split
      · exact .refl s
      · split
        · exact .refl s
        · exact (s.retire_samePlaces stripe).order.trans (State.afterRetirement_order _)

/-- A settings command of GEO changes GEO only. -/
theorem takeSetSegments_samePlaces (x f : Nat) (elements : List SegmentElement) (s : State) :
    s.SamePlaces (takeSetSegments x f elements s).1 := by
  unfold takeSetSegments
  split
  · exact .refl s
  · split
    · exact .refl s
    · split
      · exact .refl s
      · split
        · exact .refl s
        · split
          · exact .refl s
          · simp only
            split
            · exact .refl s
            · exact { State.SamePlaces.refl s with }

theorem State.coolRegion_samePlaces (region : Nat) (s : State) : s.SamePlaces (s.coolRegion region) :=
  { State.SamePlaces.refl s with }

end SessionControl

/-- Every command of Table 10-2. -/
theorem runCommand_order (c : HostCommand) (s : State) : s.OrderKept (runCommand c s).1 := by
  cases c with
  | setGeometry n l t rs k =>
    simp only [runCommand, takeSetGeometry]
    split
    · exact .refl s
    · split
      · exact State.SamePlaces.order { State.SamePlaces.refl s with }
      · exact .refl s
  | setSegments position first elements => exact (takeSetSegments_samePlaces position first elements s).order
  | openSession f b lanes fill startRegion aq kq skipQual =>
    exact takeOpenSession_order f b lanes fill startRegion aq kq skipQual s
  | start =>
    simp only [runCommand, takeStart]
    split
    · rename_i h
      exact (State.changeState_order (by rw [h]; decide) _).trans (State.passOver_order _ _)
    · exact .refl s
  | pause =>
    simp only [runCommand, takePause]
    split
    · rename_i h
      have hstate : s.ses.state ≠ .qualifying := by rcases h with h | h <;> rw [h] <;> decide
      exact (State.changeState_order hstate _).trans (State.drainingExit_order (by show SessionState.draining ≠ _; decide))
    · exact .refl s
  | resume =>
    simp only [runCommand, takeResume]
    split
    · rename_i h
      exact (State.changeState_order (by rw [h]; decide) _).trans (State.passOver_order _ _)
    · exact .refl s
  | step =>
    simp only [runCommand, takeStep]
    split
    · rename_i h
      have hstate : s.ses.state ≠ .qualifying := by rcases h with h | h <;> rw [h] <;> decide
      have hpass := State.stepPass_order (s.changeState .stepping)
      have hstepping : (s.changeState .stepping).stepPass.ses.state ≠ .qualifying := by
        rw [State.stepPass_state]
        show SessionState.stepping ≠ _
        decide
      exact ((State.changeState_order hstate _).trans hpass).trans (State.steppingExit_order hstepping)
    · exact .refl s
  | abort =>
    simp only [runCommand, takeAbort]
    split
    · exact s.endSession_order _ _
    · exact .refl s
  | closeSession =>
    simp only [runCommand, takeCloseSession]
    split
    · rename_i h
      have hstate : s.ses.state ≠ .qualifying := fun hq => by rw [hq] at h; cases h
      exact ((s.emptyLocks_order _).trans (State.forgetSession_order hstate)).trans (State.setEvent_samePlaces _ _).order
    · exact .refl s
  | promote region =>
    simp only [runCommand, takePromote]
    split
    · exact .refl s
    · exact ((s.updRgt_samePlaces _).trans (State.coolRegion_samePlaces _ _)).order
  | demote region =>
    simp only [runCommand, takeDemote]
    split
    · exact .refl s
    · exact ((s.updRgt_samePlaces _).trans (State.coolRegion_samePlaces _ _)).order
  | memberDown position =>
    simp only [runCommand, takeMemberDown]
    split
    · exact .refl s
    · split
      · exact .refl s
      · exact s.takeFault_order _
  | setPace w window =>
    simp only [runCommand, takeSetPace]
    exact ((s.updMru_only _).trans (State.decideAll_only _)).order
  | setTimeout ms =>
    simp only [runCommand, takeSetTimeout]
    exact (s.updMru_only _).order
  | setHeat h =>
    simp only [runCommand, takeSetHeat]
    exact (s.updRgt_samePlaces _).order
  | setLanes count => exact takeSetLanes_order count s
  | setCheck setting =>
    simp only [runCommand, takeSetCheck]
    split
    · exact .refl s
    · split
      · exact .refl s
      · exact State.SamePlaces.order { State.SamePlaces.refl s with }
  | setEventEnables events => exact (s.updMgp_samePlaces _).order
  | ackEvents events => exact (s.updMgp_samePlaces _).order
  | getStatus => exact .refl s
  | getRegion region =>
    simp only [runCommand, takeGetRegion]
    split
    · exact .refl s
    · split <;> exact .refl s
  | listRecords first maxCount =>
    simp only [runCommand, takeListRecords]
    split
    · exact .refl s
    · split <;> exact .refl s
  | forgive stripe => exact takeForgive_order stripe s
  | resetEngine => exact takeResetEngine_order s

/-! ## The Management Port -/

theorem State.takeMessage_order (m : CommandMessage) (s : State) : s.OrderKept (s.takeMessage m) := by
  unfold State.takeMessage State.respond
  refine State.OrderKept.trans ?_ (State.updMgp_samePlaces _ _).order
  cases decodeCommand m.opcode m.params with
  | unknown => exact .refl s
  | badLength => exact .refl s
  | command c => exact runCommand_order c s

theorem State.takeCommandsFuel_order (fuel : Nat) (s : State) : s.OrderKept (s.takeCommandsFuel fuel) := by
  induction fuel generalizing s with
  | zero => exact .refl s
  | succ fuel ih =>
    simp only [State.takeCommandsFuel]
    split
    · exact .refl s
    · split
      · exact ((s.updMgp_samePlaces _).order.trans (State.takeMessage_order _ _)).trans (ih _)
      · exact .refl s

theorem State.commandArrives_order (m : CommandMessage) (s : State) : s.OrderKept (s.commandArrives m) := by
  refine s.beginEvent_only.order.trans (State.OrderKept.trans ?_ (State.takeCommandsFuel_order _ _))
  unfold State.queueCommand
  split
  · exact (State.updMgp_samePlaces _ _).order
  · exact (State.setEvent_samePlaces _ _).order

theorem State.readResponse_order (s : State) : s.OrderKept s.readResponse := by
  unfold State.readResponse
  split
  · exact (s.emit_only _).order
  · exact ((s.updMgp_samePlaces _).order.trans (State.emit_only _ _).order).trans (State.takeCommandsFuel_order _ _)

/-! ## The Route Port -/

section Route

theorem State.takeQuery_samePlaces (tag : Byte) (first count : Nat) (s : State) : s.SamePlaces (s.takeQuery tag first count) := by
  unfold State.takeQuery
  split
  · exact s.updRtu_samePlaces _
  · exact (s.updRtu_samePlaces _).trans (State.updRgt_samePlaces _ _)

/-- A claim joins the held table or the wait list as the rule of R90 has it. -/
theorem State.takeClaim_order (tag : Byte) (first count : Nat) (s : State) : s.OrderKept (s.takeClaim tag first count) := by
  unfold State.takeClaim
  split
  · exact (s.updRtu_samePlaces _).order
  · simp only
    split
    · rename_i hg
      have hheld : s.OrderKept (s.updSlk fun k =>
          { k with held := k.held ++ [{ owner := .claim tag, first := first, count := count }] }) :=
        ⟨fun h => h.hold ((grantable_iff _ _ _).1 hg) rfl, State.bufferHeadWaits_congr rfl, fun hs => { hs with }, fun _ hb => hb⟩
      exact hheld.trans ((State.updRtu_samePlaces _ _).trans (State.updRgt_samePlaces _ _)).order
    · rename_i hg
      have hwaits : s.OrderKept (s.updSlk fun k =>
          { k with waiting := k.waiting ++ [{ owner := .claim tag, first := first, count := count }] }) := by
        refine ⟨fun h => h.wait (mt (grantable_iff _ _ _).2 hg) rfl, State.bufferHeadWaits_congr rfl,
          fun hs => { hs with locksOnce := ?_, locks := fun e he n ho => ?_ }, fun _ hb => hb⟩
        · show ((List.filter _ (s.slk.waiting ++ [_])).map _).Nodup
          rw [List.filter_append]
          simpa [LockOwner.isClaim] using hs.locksOnce
        · rcases List.mem_append.1 he with he | he
          · exact hs.locks e he n ho
          · rw [List.mem_singleton.1 he] at ho
            cases ho
      exact hwaits.trans ((State.updRtu_samePlaces _ _).trans (State.updRgt_samePlaces _ _)).order

theorem State.releaseHeld_order (tag : Byte) (e : LockEntry) (listed : List Nat) (s : State) :
    s.OrderKept (s.releaseHeld tag e listed) := by
  have retired := (State.retireAll_samePlaces (e.overwritten listed) s).order
  unfold State.releaseHeld
  simp only
  generalize State.retireAll (e.overwritten listed) s = x at retired ⊢
  have scanned : x.1.OrderKept ((x.1.dropHeld (.claim tag)).answer (releasedAnswer tag x.2)).scanLocks :=
    .scanLocks (·.filter _) ⟨rfl, fun _ => rfl, rfl⟩ fun hs => { hs with }
  split
  · exact retired.trans scanned
  · exact (retired.trans scanned).trans (State.afterRetirement_order _)

theorem State.withdraw_order (tag : Byte) (s : State) : s.OrderKept (s.withdraw tag) := by
  refine .scanLocks id ⟨rfl, fun _ => rfl, rfl⟩ fun hs => { hs with
    locksOnce := hs.locksOnce.sublist ((List.filter_sublist.filter _).map _)
    locks := fun e he => hs.locks e (List.mem_of_mem_filter he) }

theorem State.takeRelease_order (tag : Byte) (listed : List Nat) (s : State) : s.OrderKept (s.takeRelease tag listed) := by
  have answered (a : Answer) : s.OrderKept (s.answer a) := (s.updRtu_samePlaces _).order
  unfold State.takeRelease
  split
  · exact answered _
  · split
    · exact answered _
    · split
      · exact s.releaseHeld_order _ _ _
      · split
        · exact s.withdraw_order _
        · exact answered _

theorem State.takeRequest_order (r : RouteRequest) (s : State) : s.OrderKept (s.takeRequest r) := by
  unfold State.takeRequest
  split
  · exact (s.takeQuery_samePlaces _ _ _).order
  · split
    · exact s.takeClaim_order _ _ _
    · split
      · exact s.takeRelease_order _ _
      · exact State.SamePlaces.order { State.SamePlaces.refl s with }

theorem State.takeRequestsFuel_order (fuel : Nat) (s : State) : s.OrderKept (s.takeRequestsFuel fuel) := by
  induction fuel generalizing s with
  | zero => exact .refl s
  | succ fuel ih =>
    simp only [State.takeRequestsFuel]
    split
    · exact .refl s
    · split
      · exact ((s.updRtu_samePlaces _).order.trans (State.takeRequest_order _ _)).trans (ih _)
      · exact .refl s

theorem State.requestArrives_order (r : RouteRequest) (s : State) : s.OrderKept (s.requestArrives r) := by
  refine s.beginEvent_only.order.trans (State.OrderKept.trans ?_ (State.takeRequestsFuel_order _ _))
  unfold State.queueRequest
  split
  · exact (State.updRtu_samePlaces _ _).order
  · exact (State.setEvent_samePlaces _ _).order

theorem State.readAnswer_order (s : State) : s.OrderKept s.readAnswer := by
  unfold State.readAnswer
  split
  · exact (s.emit_only _).order
  · exact ((s.updRtu_samePlaces _).order.trans (State.emit_only _ _).order).trans (State.takeRequestsFuel_order _ _)

end Route

/-! ## Time, and the step -/

theorem State.runTimeEvent_order (e : TimeEvent) (s : State) : s.OrderKept (s.runTimeEvent e) := by
  cases e with
  | timeout tag =>
    simp only [State.runTimeEvent]
    split
    · exact .refl s
    · exact s.timeOut_order _ tag
  | quarantineEnd tag => exact s.endQuarantine_order tag
  | pacing x => exact ((s.setExpiry_only x none).trans (State.issueDecision_only x _)).order

theorem State.takeTimeEvent_order (e : TimeEvent) (s : State) : s.OrderKept (s.takeTimeEvent e) := by
  unfold State.takeTimeEvent
  split
  · exact s.beginEvent_only.order
  · have reached (d : Nat) : s.SamePlaces (s.beginEvent.reachTime d) := { State.SamePlaces.refl s with }
    exact (reached _).order.trans (State.runTimeEvent_order e _)

/-- At power-on reset nothing waits, holds or is solved, and the free pool has every buffer. -/
theorem State.reset_inOrder (s : State) : s.OrderKept State.reset := by
  have hidle (n : Fin 4) : State.reset.lanes[n].bufs = [] ∧ State.reset.rcd.contexts[n] = none := by
    revert n
    decide
  refine ⟨fun _ => ?_, fun _ x rest hx => ?_, fun _ => ?_, fun _ _ => ?_⟩
  · rw [State.locksApart_iff]
    exact ⟨.nil, .nil _⟩
  · cases hx
  · exact ⟨List.nodup_nil, fun w hw => absurd hw List.not_mem_nil, List.nodup_nil, fun e he => absurd he List.not_mem_nil,
      List.nodup_nil, fun n hn => absurd hn List.not_mem_nil, fun n hn => absurd (hidle n).2 hn, fun n _ => (hidle n).1,
      fun hq => absurd rfl hq⟩
  · refine (State.buffersInPlace_iff _).2 ⟨List.pairwise_lt_finRange 128, fun b => ?_⟩
    have hfree : State.reset.sbp.free.count b = 1 :=
      List.count_eq_one_of_mem (List.nodup_finRange 128) (List.mem_finRange b)
    have hlanes : ∑ n : Fin 4, State.reset.lanes[n].bufs.count b = 0 :=
      Finset.sum_eq_zero fun n _ => by rw [(hidle n).1, List.count_nil]
    unfold State.timesPlaced
    rw [hfree, hlanes]
    rfl

theorem State.Occurs.order {s t : State} (h : s.Occurs t) : s.OrderKept t := by
  cases h with
  | reset =>
    exact s.reset_inOrder.trans
      (State.SamePlaces.order (t := { State.reset with pending := s.pending, freeCount := s.freeCount })
        { State.SamePlaces.refl State.reset with })
  | nothing => exact s.beginEvent_only.order
  | tick => exact State.SamePlaces.order { State.SamePlaces.refl s with }
  | commandArrives m => exact s.commandArrives_order m
  | readResponse => exact s.beginEvent_only.order.trans (State.readResponse_order _)
  | requestArrives r => exact s.requestArrives_order r
  | readAnswer => exact s.beginEvent_only.order.trans (State.readAnswer_order _)
  | takeCompletion tag status mask data =>
    exact s.beginEvent_only.order.trans (State.takeCompletion_order tag status mask data _)
  | takeBlock n => exact s.beginEvent_only.order.trans (State.takeBlock_order n _)
  | takeTimeEvent e => exact s.takeTimeEvent_order e

/-- Settles O57: whatever occurs at a step keeps the locks apart, the stages and the buffers in place, and so does taking a command
off the queue. -/
theorem locksAndBuffersStayInPlace : Obligations.LocksAndBuffersStayInPlace := by
  intro s t h
  obtain ⟨k, hk⟩ := step_occurs h
  have taken : s.SamePlaces { s with pending := s.pending.tail, freeCount := k } := { State.SamePlaces.refl s with }
  obtain ⟨hlocks, hhead, hstaged, hbuffers⟩ := taken.order.trans hk.order
  rw [State.stagesFit_iff, State.stagesFit_iff]
  exact ⟨hlocks, hhead, hstaged, hbuffers⟩

end Sys2Proof.Machine
end

section
/-! CLAIM: the checks of R93 in their order, and a claim that is granted at intake or waits (R94). -/

namespace Sys2Proof.Machine

/-! ## The checks (R93) -/

theorem Slk.tagInUse_iff (k : Slk) (tag : Byte) : k.tagInUse tag = true ↔ ∃ e ∈ k.held ++ k.waiting, e.owner = .claim tag := by
  simp only [Slk.tagInUse, List.any_eq_true, beq_iff_eq]

theorem Slk.waitingClaims_eq (k : Slk) : k.waitingClaims = (k.waiting.filter fun w => w.owner.isClaim).length :=
  List.countP_eq_length_filter

section Claim

variable {s : State} {tag : Byte} {first count : Nat}

theorem State.claimProblem_of_absent (h : s.ses.state = .absent) : s.claimProblem tag first count = some .noSession := if_pos h

theorem State.claimProblem_of_ended (h : s.ses.state = .failed ∨ s.ses.state = .broken) :
    s.claimProblem tag first count = some .spareVoid := by
  have habsent : s.ses.state ≠ .absent := by rintro ha; simp [ha] at h
  rw [State.claimProblem, if_neg habsent, if_pos ((SessionState.isEnded_iff _).2 h)]

/-- The session takes claims: there is one, and it has not ended. -/
structure State.TakesClaims (s : State) : Prop where
  present : s.ses.state ≠ .absent
  live : ¬(s.ses.state = .failed ∨ s.ses.state = .broken)

theorem State.claimProblem_of_range (h : s.TakesClaims)
    (hfits : ¬(1 ≤ count ∧ count ≤ 16 ∧ first + count ≤ s.profile.t)) : s.claimProblem tag first count = some .range := by
  rw [State.claimProblem, if_neg h.present, if_neg (mt (SessionState.isEnded_iff _).1 h.live), if_pos]
  simpa using mt (Profile.rangeFits_iff _ _ _).1 hfits

section Fits

variable (h : s.TakesClaims) (hfits : 1 ≤ count ∧ count ≤ 16 ∧ first + count ≤ s.profile.t)

include h hfits

theorem State.claimProblem_of_tag (htag : ∃ e ∈ s.slk.held ++ s.slk.waiting, e.owner = .claim tag) :
    s.claimProblem tag first count = some .tagInUse := by
  rw [State.claimProblem, if_neg h.present, if_neg (mt (SessionState.isEnded_iff _).1 h.live),
    (Profile.rangeFits_iff _ _ _).2 hfits, (Slk.tagInUse_iff _ _).2 htag]
  rfl

section NewTag

variable (htag : ¬∃ e ∈ s.slk.held ++ s.slk.waiting, e.owner = .claim tag)

include htag

/-- With a tag of its own a claim is turned away only when it would have to wait and the wait list has no room for it. -/
theorem State.claimProblem_of_new_tag :
    s.claimProblem tag first count =
      if !grantable s.slk.held s.slk.waiting { owner := .claim tag, first := first, count := count } &&
        decide (28 ≤ (s.slk.waiting.filter fun w => w.owner.isClaim).length) then some .busy else none := by
  have hunused : s.slk.tagInUse tag = false := Bool.eq_false_iff.2 (mt (Slk.tagInUse_iff _ _).1 htag)
  rw [State.claimProblem, if_neg h.present, if_neg (mt (SessionState.isEnded_iff _).1 h.live),
    (Profile.rangeFits_iff _ _ _).2 hfits, hunused, ← Slk.waitingClaims_eq]
  rfl

theorem State.claimProblem_of_busy
    (hfree : ¬MayBeGranted s.slk.held s.slk.waiting { owner := .claim tag, first := first, count := count })
    (hfull : ¬(s.slk.waiting.filter fun w => w.owner.isClaim).length < 28) :
    s.claimProblem tag first count = some .busy := by
  rw [State.claimProblem_of_new_tag h hfits htag, Bool.eq_false_iff.2 (mt (grantable_iff _ _ _).1 hfree),
    decide_eq_true (Nat.not_lt.1 hfull)]
  rfl

theorem State.claimProblem_of_room
    (h' : MayBeGranted s.slk.held s.slk.waiting { owner := .claim tag, first := first, count := count } ∨
      (s.slk.waiting.filter fun w => w.owner.isClaim).length < 28) : s.claimProblem tag first count = none := by
  rw [State.claimProblem_of_new_tag h hfits htag]
  obtain hfree | hroom := h'
  · rw [(grantable_iff _ _ _).2 hfree]
    rfl
  · rw [decide_eq_false (Nat.not_le.2 hroom), Bool.and_false]
    rfl

end NewTag

end Fits

theorem State.takeClaim_of_problem {status : RouteStatus} (h : s.claimProblem tag first count = some status) :
    s.takeClaim tag first count = s.answer (plainAnswer tag kindClaim status first) := by rw [State.takeClaim, h]

/-- A claim that passes the checks is granted when the rule of R90 lets it (R94). -/
theorem State.takeClaim_of_free (h : s.claimProblem tag first count = none)
    (hfree : MayBeGranted s.slk.held s.slk.waiting { owner := .claim tag, first := first, count := count }) :
    s.takeClaim tag first count =
      ((s.updSlk fun k => { k with held := k.held ++ [{ owner := .claim tag, first := first, count := count }] }).answer
        (s.grantedAnswer tag first count)).contribute first count := by
  rw [State.takeClaim, h]
  exact if_pos ((grantable_iff _ _ _).2 hfree)

/-- Otherwise it waits, with a reservation (R94). -/
theorem State.takeClaim_of_busy (h : s.claimProblem tag first count = none)
    (hfree : ¬MayBeGranted s.slk.held s.slk.waiting { owner := .claim tag, first := first, count := count }) :
    s.takeClaim tag first count =
      ((s.updSlk fun k => { k with waiting := k.waiting ++ [{ owner := .claim tag, first := first, count := count }] }).updRtu
        fun r => { r with reservations := r.reservations + 1 }).contribute first count := by
  rw [State.takeClaim, h]
  exact if_neg (mt (grantable_iff _ _ _).1 hfree)

end Claim

/-- A CLAIM at a ready port is RTU's on the state with nothing sent. -/
theorem becomes_of_takeClaim {s u : State} {tag count : Byte} {first : BitVec 32} (hs : s.RouteReady)
    (h : (s.beginEvent.takeClaim tag first.toNat count.toNat).Matches u) : Becomes (exec (.claim tag count first) s) u :=
  becomes_of_takeRequest (r := rangeRequest kindClaim tag count first) hs h

/-- Settles O37: each check that fails gives its refusal; a claim that passes them is granted or waits as the rule of R90 has it. -/
theorem claimGrantedOrWaits : Obligations.ClaimGrantedOrWaits := by
  intro tag count first s hs done refusal ended fits tagUsed e free room warmed
  have refused {status : RouteStatus} (h : s.beginEvent.claimProblem tag first.toNat count.toNat = some status) :
      Becomes done (refusal status) := by
    refine becomes_of_takeClaim hs ?_
    rw [State.takeClaim_of_problem h]
    rfl
  refine ⟨fun habsent => refused (State.claimProblem_of_absent habsent),
    fun hended => refused (State.claimProblem_of_ended hended), fun habsent hended => ?_⟩
  have htakes : s.beginEvent.TakesClaims := ⟨habsent, hended⟩
  refine ⟨fun hfits => refused (State.claimProblem_of_range htakes hfits),
    fun hfits htag => refused (State.claimProblem_of_tag htakes hfits htag),
    fun hfits htag hfree hfull => refused (State.claimProblem_of_busy htakes hfits htag hfree hfull),
    fun hfits htag hfree => becomes_of_takeClaim hs ?_, fun hfits htag hfree hr => becomes_of_takeClaim hs ?_⟩
  · rw [State.takeClaim_of_free (State.claimProblem_of_room htakes hfits htag (.inl hfree)) hfree, State.grantedAnswer, State.dispositions_eq_map_range]
    rfl
  · rw [State.takeClaim_of_busy (State.claimProblem_of_room htakes hfits htag (.inr hr)) hfree]
    rfl

end Sys2Proof.Machine
end

section
/-! RELEASE: the records that a held claim's list retires (R98), and the end of a held or a waiting claim (R97, R99). -/

namespace Sys2Proof.Machine

/-! ## The retirement of several records (R180) -/

/-- In ascending order of stripe a stripe has at most one record. -/
theorem filter_stripe_eq {records : List Record} (h : records.Pairwise fun a b => a.stripe < b.stripe) (stripe : Nat) :
    (records.filter fun r => r.stripe == stripe) = (records.find? fun r => r.stripe == stripe).toList := by
  induction records with
  | nil => rfl
  | cons r rest ih =>
    obtain ⟨hr, hrest⟩ := List.pairwise_cons.1 h
    by_cases he : r.stripe = stripe
    · have hnone : (rest.filter fun x => x.stripe == stripe) = [] :=
        List.filter_eq_nil_iff.2 fun x hx hxs => (Nat.ne_of_lt (hr x hx)) (he.trans (beq_iff_eq.1 hxs).symm)
      simp [he, hnone]
    · simp [he, ih hrest]

/-- Records counted among several stripes are those of the first and those of the others that are left. -/
theorem countP_among_cons {records : List Record} {stripe : Nat} {rest : List Nat} (hnew : stripe ∉ rest) (q : Record → Bool) :
    (records.countP fun r => (stripe :: rest).contains r.stripe && q r) =
      (records.filter fun r => r.stripe == stripe).countP q +
        (records.filter fun r => r.stripe != stripe).countP fun r => rest.contains r.stripe && q r := by
  rw [List.countP_filter, List.countP_filter]
  induction records with
  | nil => rfl
  | cons r records ih =>
    rw [List.countP_cons, List.countP_cons, List.countP_cons, ih]
    by_cases he : r.stripe = stripe
    · simp [he, hnew]
      omega
    · simp [he]
      omega

/-- The records of the stripes of the list have been retired: what they leave of LRL and RGT, and their number. -/
structure State.Retired (l : List Nat) (s t : State) (number : Nat) : Prop where
  only : t = { s with
    lrl := { records := s.lrl.records.filter fun r => !l.contains r.stripe }
    rgt := { s.rgt with regions := t.rgt.regions } }
  regions : ∀ n : Nat, t.rgt.regions[n]? = s.rgt.regions[n]?.map fun (r : Region) =>
    ({ r with recordCount := r.recordCount -
        s.lrl.records.countP fun x => l.contains x.stripe && (x.stripe / s.profile.rs == n) } : Region)
  number : number = s.lrl.records.countP fun x => l.contains x.stripe

theorem State.Retired.nil (s : State) : State.Retired [] s s 0 := by
  refine ⟨?_, fun n => ?_, ?_⟩
  · simp
  · simp
  · simp

/-- A stripe's record, if there is one, leaves the list, and its region counts one less (R180, R65). -/
theorem State.retire_retired {s : State} (h : s.lrl.records.Pairwise fun a b => a.stripe < b.stripe) (stripe : Nat) :
    State.Retired [stripe] s (s.retire stripe).1 (if (s.retire stripe).2 then 1 else 0) := by
  have hcount (q : Record → Bool) : (s.lrl.records.countP fun x => [stripe].contains x.stripe && q x) =
      (s.lrl.find stripe).toList.countP q := by
    rw [countP_among_cons List.not_mem_nil, filter_stripe_eq h]
    simp
    rfl
  have hnumber : (s.lrl.records.countP fun x => [stripe].contains x.stripe) = (s.lrl.find stripe).toList.length := by
    have := hcount fun _ => true
    simpa using this
  unfold State.retire
  cases hfind : s.lrl.find stripe with
  | none =>
    have hkeep : (s.lrl.records.filter fun r => !List.contains [stripe] r.stripe) = s.lrl.records :=
      List.filter_eq_self.2 fun r hr => by
        have := List.find?_eq_none.1 hfind r hr
        simpa using this
    refine ⟨?_, fun n => ?_, ?_⟩
    · rw [hkeep]
    · rw [hcount, hfind]
      simp
    · rw [hnumber, hfind]
      rfl
  | some x =>
    have hx : x.stripe = stripe := by simpa using List.find?_some hfind
    refine ⟨?_, fun n => ?_, ?_⟩
    · have hfilter : (fun r : Record => !List.contains [stripe] r.stripe) = fun r => r.stripe != stripe := by
        funext r
        rw [List.contains_cons, List.contains_nil, Bool.or_false]
        rfl
      rw [hfilter]
      rfl
    · rw [hcount, hfind]
      show (s.rgt.regions.modify (stripe / s.profile.rs) _)[n]? = _
      rw [List.getElem?_modify]
      by_cases hn : stripe / s.profile.rs = n
      · simp [hx, hn]
      · simp [hx, hn]
    · rw [hnumber, hfind]
      rfl

theorem State.Retired.cons {stripe : Nat} {rest : List Nat} {s u t : State} {k m : Nat} (hnew : stripe ∉ rest)
    (h : State.Retired [stripe] s u k) (h' : State.Retired rest u t m) : State.Retired (stripe :: rest) s t (k + m) := by
  have hrecords : u.lrl.records = s.lrl.records.filter fun r => r.stripe != stripe := by
    rw [h.only]
    refine List.filter_congr fun r _ => ?_
    rw [List.contains_cons, List.contains_nil, Bool.or_false]
    rfl
  have hprofile : u.profile = s.profile := by
    rw [h.only]
    rfl
  have hsplit (q : Record → Bool) : (s.lrl.records.countP fun x => (stripe :: rest).contains x.stripe && q x) =
      (s.lrl.records.countP fun x => [stripe].contains x.stripe && q x) +
        u.lrl.records.countP fun x => rest.contains x.stripe && q x := by
    rw [countP_among_cons hnew, hrecords, countP_among_cons List.not_mem_nil]
    simp
  refine ⟨?_, fun n => ?_, ?_⟩
  · have hleft : (u.lrl.records.filter fun r => !rest.contains r.stripe) =
        s.lrl.records.filter fun r => !(stripe :: rest).contains r.stripe := by
      rw [hrecords, List.filter_filter]
      refine List.filter_congr fun r _ => ?_
      rw [List.contains_cons, Bool.not_or, Bool.and_comm]
      rfl
    have ht := h'.only
    rw [hleft] at ht
    obtain ⟨regions, hregions⟩ : ∃ regions, u.rgt.regions = regions := ⟨_, rfl⟩
    have hu := h.only
    rw [hregions] at hu
    rw [ht, hu]
  · rw [h'.regions, h.regions, hprofile, Option.map_map]
    refine congrArg (Option.map · _) (funext fun r => ?_)
    simp only [Function.comp_apply, hsplit, Nat.sub_sub]
  · have hall := hsplit fun _ => true
    simp only [Bool.and_true] at hall
    rw [h.number, h'.number, hall]

theorem State.retireAll_retired {l : List Nat} (hl : l.Nodup) {s : State}
    (h : s.lrl.records.Pairwise fun a b => a.stripe < b.stripe) :
    State.Retired l s (State.retireAll l s).1 (State.retireAll l s).2 := by
  induction l generalizing s with
  | nil => exact .nil s
  | cons stripe rest ih =>
    obtain ⟨hnew, hrest⟩ := List.nodup_cons.1 hl
    have hone := State.retire_retired h stripe
    have hpair : (s.retire stripe).1.lrl.records.Pairwise fun a b => a.stripe < b.stripe := by
      rw [hone.only]
      exact h.filter _
    have hall := hone.cons hnew (ih hrest hpair)
    simp only [State.retireAll]
    split at hall
    · rename_i hhit
      rw [if_pos hhit, Nat.add_comm]
      exact hall
    · rename_i hmiss
      rw [if_neg hmiss]
      rwa [Nat.zero_add] at hall

/-! ## What the message names (R98, R207) -/

theorem overwrittenList_releaseRequest {listed : List (BitVec 32)} (h : listed.length ≤ 255) (tag : Byte) :
    overwrittenList (releaseRequest tag listed) = (listed.take 16).map BitVec.toNat := by
  have hcount : (BitVec.ofNat 8 (min 255 listed.length)).toNat = listed.length := by
    rw [BitVec.toNat_ofNat]
    omega
  have htake : listed.take (min 16 listed.length) = listed.take 16 := List.take_eq_take_iff.2 (by omega)
  rw [overwrittenList, releaseRequest, hcount, htake]

theorem nodup_eraseDups (l : List Nat) : l.eraseDups.Nodup := by
  induction hl : l.length using Nat.strong_induction_on generalizing l with
  | _ n ih =>
    cases l with
    | nil => exact List.nodup_nil
    | cons a rest =>
      rw [List.eraseDups_cons, List.nodup_cons]
      refine ⟨by simp, ih _ ?_ _ rfl⟩
      rw [← hl, List.length_cons]
      exact Nat.lt_succ_of_le (List.length_filter_le _ _)

theorem LockEntry.nodup_overwritten (e : LockEntry) (listed : List Nat) : (e.overwritten listed).Nodup :=
  nodup_eraseDups _

theorem LockEntry.contains_overwritten (e : LockEntry) (listed : List Nat) (n : Nat) :
    (e.overwritten listed).contains n = (listed.contains n && decide (e.first ≤ n) && decide (n < e.first + e.count)) := by
  rw [Bool.eq_iff_iff, Bool.and_assoc]
  simp [LockEntry.overwritten, LockEntry.covers]

/-! ## RELEASE (R97 to R99) -/

section Release

variable {s : State} {tag : Byte} {listed : List Nat}

theorem State.takeRelease_of_absent (h : s.ses.state = .absent) :
    s.takeRelease tag listed = s.answer (plainAnswer tag kindRelease .noSession 0) := if_pos h

theorem State.takeRelease_of_ended (h : s.ses.state = .failed ∨ s.ses.state = .broken) :
    s.takeRelease tag listed = s.answer (plainAnswer tag kindRelease .spareVoid 0) := by
  have habsent : s.ses.state ≠ .absent := by rintro ha; simp [ha] at h
  rw [State.takeRelease, if_neg habsent, if_pos ((SessionState.isEnded_iff _).2 h)]

section Session

variable (h : s.TakesClaims)

include h

theorem State.takeRelease_of_unknown (hheld : s.slk.heldClaim tag = none)
    (hwaiting : s.slk.waitingClaim tag = none) :
    s.takeRelease tag listed = s.answer (plainAnswer tag kindRelease .unknownTag 0) := by
  rw [State.takeRelease, if_neg h.present, if_neg (mt (SessionState.isEnded_iff _).1 h.live), hheld, hwaiting]

theorem State.takeRelease_of_waiting (hheld : s.slk.heldClaim tag = none)
    (hwaiting : s.slk.waitingClaim tag ≠ none) : s.takeRelease tag listed = s.withdraw tag := by
  obtain ⟨e, he⟩ := Option.ne_none_iff_exists'.1 hwaiting
  rw [State.takeRelease, if_neg h.present, if_neg (mt (SessionState.isEnded_iff _).1 h.live), hheld, he]

theorem State.takeRelease_of_held {e : LockEntry} (hheld : s.slk.heldClaim tag = some e) :
    s.takeRelease tag listed = s.releaseHeld tag e listed := by
  rw [State.takeRelease, if_neg h.present, if_neg (mt (SessionState.isEnded_iff _).1 h.live), hheld]

end Session

/-- The steps of R98 behind the retirement of the records that the list names. -/
theorem State.releaseHeld_of_retired {e : LockEntry} {t : State} {number : Nat}
    (h : State.retireAll (e.overwritten listed) s = (t, number)) :
    s.releaseHeld tag e listed =
      if number = 0 then ((t.dropHeld (.claim tag)).answer (releasedAnswer tag number)).scanLocks
      else ((t.dropHeld (.claim tag)).answer (releasedAnswer tag number)).scanLocks.afterRetirement := by
  rw [State.releaseHeld, h]

end Release

/-- A RELEASE at a ready port is RTU's on the state with nothing sent. -/
theorem exec_release {s : State} {listed : List (BitVec 32)} (hs : s.RouteReady) (h : listed.length ≤ 255) (tag : Byte) :
    exec (.release tag listed) s = .next (s.beginEvent.takeRelease tag ((listed.take 16).map BitVec.toNat)) := by
  show Host.Outcome.next (s.requestArrives (releaseRequest tag listed)) = _
  rw [State.requestArrives_ready hs, ← overwrittenList_releaseRequest h tag]
  rfl

/-- Settles O38: a tag that no claim has is unknown, a waiting claim is withdrawn, and a held one retires what its list names. -/
theorem releaseEndsClaim : Obligations.ReleaseEndsClaim := by
  intro tag listed s hs horder hlength done answer ended held waiting
  have hdone : done = .next (s.beginEvent.takeRelease tag ((listed.take 16).map BitVec.toNat)) := exec_release hs hlength tag
  rw [hdone]
  refine ⟨fun habsent => ?_, fun hended => ?_, fun habsent hended => ?_⟩
  · rw [State.takeRelease_of_absent (s := s.beginEvent) habsent]
    exact ⟨_, rfl, rfl⟩
  · rw [State.takeRelease_of_ended (s := s.beginEvent) hended]
    exact ⟨_, rfl, rfl⟩
  have htakes : s.beginEvent.TakesClaims := ⟨habsent, hended⟩
  refine ⟨fun hheld hwaiting => ?_, fun hheld hwaiting => ?_, ?_⟩
  · rw [State.takeRelease_of_unknown htakes hheld hwaiting]
    exact ⟨_, rfl, rfl⟩
  · rw [State.takeRelease_of_waiting htakes hheld hwaiting]
    rfl
  intro e hheld named gone
  have hnamed (n : Nat) : (e.overwritten ((listed.take 16).map BitVec.toNat)).contains n = named n := e.contains_overwritten _ n
  have hretired := State.retireAll_retired (e.nodup_overwritten ((listed.take 16).map BitVec.toNat)) (s := s.beginEvent) horder.1
  obtain ⟨t, number, hall⟩ : ∃ t number,
      State.retireAll (e.overwritten ((listed.take 16).map BitVec.toNat)) s.beginEvent = (t, number) := ⟨_, _, rfl⟩
  rw [hall] at hretired
  obtain ⟨only, hregions, hnumber⟩ := hretired
  simp only [hnamed] at only hregions hnumber
  have hgone : number = gone.length := hnumber.trans List.countP_eq_length_filter
  have hrgt : t.rgt = { s.rgt with regions := t.rgt.regions } := congrArg State.rgt only
  have hleft : t = { s.beginEvent with
      lrl := { records := s.lrl.records.filter fun r => !named r.stripe }, rgt := t.rgt } :=
    only.trans (congrArg (fun g => ({ s.beginEvent with
      lrl := { records := s.lrl.records.filter fun r => !named r.stripe }, rgt := g } : State)) hrgt.symm)
  refine ⟨t.rgt, fun n => ?_, (congrArg Rgt.queue hrgt :), (congrArg Rgt.nextActivation hrgt :),
    (congrArg Rgt.rebuiltRegions hrgt :), (congrArg Rgt.rebuiltStripes hrgt :), (congrArg Rgt.heatThreshold hrgt :), ?_⟩
  · have hcount : (gone.filter fun x => x.stripe / s.profile.rs == n).length =
        s.lrl.records.countP fun x => named x.stripe && (x.stripe / s.profile.rs == n) := by
      rw [← List.countP_eq_length_filter, List.countP_filter]
      simp only [Bool.and_comm]
    rw [hcount]
    exact hregions n
  · rw [State.takeRelease_of_held (s := s.beginEvent) htakes hheld, State.releaseHeld_of_retired hall, hgone]
    generalize t.rgt = g at hleft
    subst hleft
    exact congrArg Host.Outcome.next (if_congr List.length_eq_zero_iff rfl rfl)

end Sys2Proof.Machine
end

section
/-! The scan of SLK's wait list as a whole: its grants in order, and the dispositions that the granted claims are answered with
(R91, R95, R116). -/

namespace Sys2Proof.Machine

/-! ## Dispositions while lanes are granted their locks (R77) -/

/-- A disposition depends on RGT, GEO and LRL, on which lane holds the stripe, and on that lane. -/
theorem State.disposition_congr {s t : State} {stripe : Nat} (hrgt : t.rgt = s.rgt) (hgeo : t.geo = s.geo) (hlrl : t.lrl = s.lrl)
    (hholds : t.laneOf stripe = s.laneOf stripe) (hlane : ∀ n : Fin 4, s.laneOf stripe = some n → t.lanes[n] = s.lanes[n]) :
    t.disposition stripe = s.disposition stripe := by
  have hprofile : t.profile = s.profile := by simp only [State.profile, hgeo]
  have hfirst : t.firstStep stripe = s.firstStep stripe := by
    simp only [State.firstStep, hrgt, hprofile, hholds]
    cases h : s.laneOf stripe with
    | none => rfl
    | some n => simp only [hlane n h]
  simp only [State.disposition, hfirst, hlrl]

/-- A claim granted by a scan and a lane granted by it share no stripe, so that the grants leave the dispositions of the claim's
stripes alone. -/
theorem State.LanesGranted.disposition {granted : List LockEntry} {s t : State} (h : State.LanesGranted granted s t)
    {stripe : Nat} (hapart : ∀ e ∈ granted, ∀ n : Fin 4, e.owner = .lane n → ¬s.lanes[n].Holds stripe) :
    t.disposition stripe = s.disposition stripe := by
  have hholds : t.laneOf stripe = s.laneOf stripe := by
    simp only [State.laneOf, h.batch]
  obtain ⟨m, o, l, k, a, r, hlocks⟩ := h.only
  refine State.disposition_congr (by rw [hlocks]) (by rw [hlocks]) (by rw [hlocks]) hholds fun n hn => ?_
  exact h.others n fun e he ho => hapart e he n ho (State.holds_of_laneOf hn)

/-- What a scan grants is apart, whichever of two entries it grants first. -/
theorem ScanRuns.granted_not_clashes {rest held older granted stay : List LockEntry}
    (h : ScanRuns rest held older granted stay) {a b : LockEntry} (ha : a ∈ granted) (hb : b ∈ granted) (hne : a ≠ b) :
    ¬a.Clashes b := by
  have hsymm : Std.Symm fun a b : LockEntry => ¬a.Clashes b := ⟨fun a b hab hba => hab hba.symm⟩
  exact h.not_clashes.2.forall ha hb hne

section Answers

variable {s t : State} {rest held older granted stay : List LockEntry} {a : Answer}

/-- Where requests name their lanes' batches, no lane that a scan grants holds a stripe of a claim that it grants. -/
theorem ScanRuns.not_holds (h : ScanRuns rest held older granted stay)
    (hnames : ∀ e ∈ granted, ∀ (n : Fin 4) (b : Batch), e.owner = .lane n → s.lanes[n].batch = some b →
      e.first = b.first ∧ e.count = b.length)
    {c : LockEntry} (hc : c ∈ granted) {tag : Byte} (howner : c.owner = .claim tag) {stripe : Nat} (hfirst : c.first ≤ stripe)
    (hlast : stripe < c.first + c.count) :
    ∀ e ∈ granted, ∀ n : Fin 4, e.owner = .lane n → ¬s.lanes[n].Holds stripe := by
  rintro e he n ho ⟨b, hb, hlow, hhigh⟩
  obtain ⟨hef, hec⟩ := hnames e he n b ho hb
  have hne : e ≠ c := by
    rintro rfl
    rw [ho] at howner
    cases howner
  refine h.granted_not_clashes he hc hne ⟨⟨stripe, ⟨by omega, by omega⟩, hfirst, hlast⟩, fun ⟨hclaim, _⟩ => ?_⟩
  rw [ho] at hclaim
  cases hclaim

theorem State.length_dispositions (s : State) (first count : Nat) : (s.dispositions first count).length = count := by
  rw [State.dispositions, List.length_map, List.length_range']

theorem State.AnswersGrant.plain (h : State.AnswersGrant granted s a) :
    a.kind = 2 ∧ a.status = .granted ∧ a.entries.length = a.number := by
  obtain ⟨e, -, tag, u, -, -, rfl⟩ := h
  exact ⟨rfl, rfl, u.length_dispositions _ _⟩

/-- The answer to a claim that a scan grants holds the dispositions of any moment of the scan (R95). -/
theorem State.AnswersGrant.entries (h : State.AnswersGrant granted s a) (hruns : ScanRuns rest held older granted stay)
    (hnames : ∀ e ∈ granted, ∀ (n : Fin 4) (b : Batch), e.owner = .lane n → s.lanes[n].batch = some b →
      e.first = b.first ∧ e.count = b.length) (ht : State.LanesGranted granted s t) :
    a.entries = (List.range a.number).map fun j => t.disposition (a.stripe + j) := by
  obtain ⟨e, he, tag, u, ho, hu, rfl⟩ := h
  refine (u.dispositions_eq_map_range e.first e.count).trans (List.map_congr_left fun j hj => ?_)
  have hj : j < e.count := List.mem_range.1 hj
  have hapart := hruns.not_holds (s := s) hnames he ho (stripe := e.first + j) (Nat.le_add_right _ _) (by omega)
  exact (hu.disposition hapart).trans (ht.disposition hapart).symm

end Answers

/-- Settles O39: the run of the scan (`scanLocks_scanned`), what such a run keeps of lists, and the dispositions that grants to
lanes leave alone. -/
theorem scanGrantsInOrder : Obligations.ScanGrantsInOrder := by
  intro s
  obtain ⟨granted, hruns, hgranted⟩ := s.scanLocks_scanned
  obtain ⟨hlanes, hheld, hreservations, hreading, written, hanswers, hfields, hwritten⟩ := hgranted
  refine ⟨granted, hruns, hheld, hruns.granted_sublist, hruns.stay_sublist, hruns.perm, ?_,
    ⟨written, hanswers, hfields, fun a ha => (hwritten a ha).plain, fun hnames a ha => ?_⟩, hreservations,
    fun n b hn hb => ⟨hreading n hn (hb.trans_ne (Option.some_ne_none b)), (hlanes.batch n).trans hb⟩, hlanes.others⟩
  · rw [hheld]
    exact hruns.noneGrantable (.nil _)
  · have hnames' (e : LockEntry) (he : e ∈ granted) := hnames e (hruns.granted_sublist.subset he)
    exact ⟨(hwritten a ha).entries hruns hnames' (.refl granted s), (hwritten a ha).entries hruns hnames' hlanes⟩

end Sys2Proof.Machine
end

section
/-! A lane draws its buffers, makes its lock request, and enters READING: what it submits and what its read record holds (R101,
R111, R112, R115 to R117). -/

namespace Sys2Proof.Machine

/-! ## SBP serves its wait list (R112) -/

section Scan

variable {s : State}

theorem State.scanBuffers_of_large {r : BufRequest} {rest : List BufRequest} (h : s.sbp.waiting = r :: rest)
    (hlarge : s.sbp.free.length < r.size) : s.scanBuffers = s := by
  rw [State.scanBuffers, h]
  exact if_neg (Nat.not_le.2 hlarge)

/-- A head that fits is granted, and the scan goes on with the rest. -/
theorem State.scanBuffers_of_fits {r : BufRequest} {rest : List BufRequest} (h : s.sbp.waiting = r :: rest)
    (hfits : r.size ≤ s.sbp.free.length) :
    s.scanBuffers = ((s.updSbp fun p => { p with waiting := rest }).grantBuffers r).scanBuffers := by
  have hwait : ((s.updSbp fun p => { p with waiting := rest }).grantBuffers r).sbp.waiting = rest := by
    rw [State.grantBuffers_sbp]
    rfl
  rw [State.scanBuffers, State.scanBuffers, h, hwait]
  exact if_pos hfits

end Scan

/-! ## The lock request (R101, R115) -/

section LockRequest

variable {n : Fin 4} {s : State} {b : Batch}

theorem State.requestLaneLock_of_free (h : s.lanes[n].batch = some b)
    (hfree : MayBeGranted s.slk.held s.slk.waiting { owner := .lane n, first := b.first, count := b.length }) :
    s.requestLaneLock n =
      (s.updSlk fun k => { k with held := k.held ++ [{ owner := .lane n, first := b.first, count := b.length }] }).enterReading n := by
  rw [State.requestLaneLock, h]
  exact if_pos ((grantable_iff _ _ _).2 hfree)

theorem State.requestLaneLock_of_busy (h : s.lanes[n].batch = some b)
    (hfree : ¬MayBeGranted s.slk.held s.slk.waiting { owner := .lane n, first := b.first, count := b.length }) :
    s.requestLaneLock n =
      s.updSlk fun k => { k with waiting := k.waiting ++ [{ owner := .lane n, first := b.first, count := b.length }] } := by
  rw [State.requestLaneLock, h]
  exact if_neg (mt (grantable_iff _ _ _).1 hfree)

/-- A granted set is the lane's. -/
theorem State.grantSet_bufs (n : Fin 4) (bufs : List BufId) (s : State) : (s.grantSet (.lane n) bufs).lanes[n].bufs = bufs := by
  refine ((State.requestLaneLock_sets n _).bufs n).trans ?_
  rw [State.updLane_get_self]

end LockRequest

/-! ## Several submissions (R136) -/

/-- Requests submitted in order stand behind what their positions' queues held. -/
theorem State.submitAll_works {requests : List Request} (hwork : ∀ r ∈ requests, r.work = r) {s : State} {x : Nat}
    (hx : x < s.mru.positions.length) :
    ((s.submitAll requests).mru.pos x).works = (s.mru.pos x).works ++ requests.filter (·.position == x) := by
  induction requests generalizing s with
  | nil => exact (List.append_nil _).symm
  | cons r rest ih =>
    obtain ⟨-, -, hlength, hworks, -, hothers⟩ := State.submit_submitted r s
    have hrest := ih (fun r' h' => hwork r' (List.mem_cons_of_mem r h')) (s := s.submit r) (by rwa [hlength])
    refine hrest.trans ?_
    by_cases hr : r.position = x
    · subst hr
      rw [hworks hx, hwork r List.mem_cons_self]
      simp
    · rw [hothers x (Ne.symm hr)]
      simp [hr]

/-! ## The read record and the reads (R117) -/

section Reads

variable {s : State} {n : Fin 4} {b : Batch}

theorem State.isExcluded_iff (s : State) (x : Nat) :
    s.isExcluded x = true ↔ s.ses.failedPos = some x ∨ s.ses.faultedSurvivor = some x := by
  simp [State.isExcluded]

theorem State.firstCell_of_excluded {stripe x : Nat} (h : s.ses.failedPos = some x ∨ s.ses.faultedSurvivor = some x) :
    (s.firstCell stripe x).status = .excluded := by
  rw [State.firstCell, if_pos ((s.isExcluded_iff x).2 h)]

theorem State.firstCell_of_read {stripe x : Nat} (h : ¬(s.ses.failedPos = some x ∨ s.ses.faultedSurvivor = some x)) :
    (s.firstCell stripe x).status = .pending ∧ (s.firstCell stripe x).left = (s.extents stripe x).length := by
  rw [State.firstCell, if_neg (mt (s.isExcluded_iff x).1 h)]
  exact ⟨rfl, rfl⟩

theorem State.firstReads_shape (s : State) (b : Batch) :
    (s.firstReads b).length = b.length ∧ ∀ row ∈ s.firstReads b, row.length = s.profile.n := by
  refine ⟨by simp [State.firstReads, Batch.stripes], fun row hrow => ?_⟩
  obtain ⟨stripe, -, rfl⟩ := List.mem_map.1 hrow
  simp

/-- The cell of place i and position x is that of stripe i of the batch. -/
theorem State.firstReads_cell {i x : Nat} (hi : i < b.length) (hx : x < s.profile.n) :
    ((s.firstReads b)[i]?).bind (·[x]?) = some (s.firstCell (b.first + i) x) := by
  simp [State.firstReads, Batch.stripes, hi, hx]

theorem State.mem_readRequests {r : Request} : r ∈ s.readRequests n b ↔ ∃ i x, i < b.length ∧ x < s.profile.n ∧
    ¬(s.ses.failedPos = some x ∨ s.ses.faultedSurvivor = some x) ∧ ∃ e ∈ s.extents (b.first + i) x,
      r = newRequest .read x e (bufferAt s.lanes[n].bufs s.profile.n i x) (.lane n) := by
  rw [State.readRequests, List.mem_flatMap]
  constructor
  · rintro ⟨i, hi, hr⟩
    obtain ⟨x, hx, hr⟩ := List.mem_flatMap.1 hr
    obtain ⟨e, he, rfl⟩ := List.mem_map.1 hr
    obtain ⟨hx, hread⟩ := List.mem_filter.1 hx
    rw [Bool.not_eq_true', Bool.eq_false_iff, Ne, s.isExcluded_iff] at hread
    exact ⟨i, x, List.mem_range.1 hi, List.mem_range.1 hx, hread, e, he, rfl⟩
  · rintro ⟨i, x, hi, hx, hread, e, he, rfl⟩
    refine ⟨i, List.mem_range.2 hi, List.mem_flatMap.2 ⟨x, List.mem_filter.2 ⟨List.mem_range.2 hx, ?_⟩,
      List.mem_map.2 ⟨e, he, rfl⟩⟩⟩
    rwa [Bool.not_eq_true', Bool.eq_false_iff, Ne, s.isExcluded_iff]

/-- A read asks for what it was submitted with, at a position of the profile, for the lane. -/
theorem State.readRequests_plain {r : Request} (h : r ∈ s.readRequests n b) :
    r.work = r ∧ r.position < s.profile.n ∧ r.owner = some (.lane n) := by
  obtain ⟨i, x, -, hx, -, e, -, rfl⟩ := State.mem_readRequests.1 h
  exact ⟨rfl, hx, rfl⟩

theorem Request.sameWork_of_work {r r' : Request} (h : r'.work = r.work) : r'.SameWork r ∧ r'.owner = r.owner := by
  have hfield {α : Type} (f : Request → α) : f r'.work = f r.work := congrArg f h
  exact ⟨⟨hfield Request.position, hfield Request.kind, hfield Request.address, hfield Request.blocks, hfield Request.buf,
    hfield Request.firstBlock⟩, hfield Request.owner⟩

/-- The lane's record when it enters READING. -/
def State.laneReading (s : State) (n : Fin 4) (b : Batch) : Lane :=
  { s.lanes[n] with stage := .reading, reads := s.firstReads b, outstanding := (s.readRequests n b).length }

theorem State.enterReading_of_batch (h : s.lanes[n].batch = some b) :
    s.enterReading n = (s.updLane n fun _ => s.laneReading n b).submitAll (s.readRequests n b) := by
  rw [State.enterReading, h]
  rfl

theorem State.enterReading_lane (h : s.lanes[n].batch = some b) : (s.enterReading n).lanes[n] = s.laneReading n b := by
  rw [State.enterReading_of_batch h, State.submitAll_lanes, State.updLane_get_self]

theorem State.enterReading_works (h : s.lanes[n].batch = some b) {x : Nat} (hx : x < s.mru.positions.length) :
    ((s.enterReading n).mru.pos x).works = (s.mru.pos x).works ++ (s.readRequests n b).filter (·.position == x) := by
  rw [State.enterReading_of_batch h]
  exact State.submitAll_works (fun r hr => (State.readRequests_plain hr).1)
    (s := s.updLane n fun _ => s.laneReading n b) hx

/-- Every read stands at its position, queued or issued. -/
theorem State.enterReading_live (h : s.lanes[n].batch = some b) {r : Request} (hr : r ∈ s.readRequests n b)
    (hx : r.position < s.mru.positions.length) :
    ∃ r' ∈ ((s.enterReading n).mru.pos r.position).live, r'.SameWork r ∧ r'.owner = some (.lane n) := by
  obtain ⟨hwork, -, howner⟩ := State.readRequests_plain hr
  have hin : r.work ∈ ((s.enterReading n).mru.pos r.position).works := by
    rw [State.enterReading_works h hx, hwork]
    exact List.mem_append_right _ (List.mem_filter.2 ⟨hr, beq_self_eq_true _⟩)
  obtain ⟨r', hlive, hr'⟩ := PosState.exists_live hin
  obtain ⟨hsame, howner'⟩ := Request.sameWork_of_work hr'
  exact ⟨r', hlive, hsame, howner'.trans howner⟩

/-- Beyond MRU, the messages sent and the lane's record nothing changes. -/
theorem State.enterReading_frame (h : s.lanes[n].batch = some b) :
    ∃ m o, s.enterReading n = { s.updLane n (fun _ => s.laneReading n b) with mru := m, sent := o } := by
  rw [State.enterReading_of_batch h]
  exact State.submitAll_only _ _

end Reads

/-! ## The whole of it -/

/-- Settles O40: SBP's grants and its scan, the lane's lock request, the set it draws, and its entry into READING. -/
theorem laneDrawsBuffersAndReads : Obligations.LaneDrawsBuffersAndReads := by
  refine ⟨fun r s => ⟨State.requestBuffers_of_free, State.requestBuffers_of_busy⟩,
    fun s => ⟨State.scanBuffers_of_nil, fun r rest h => ⟨State.scanBuffers_of_large h, State.scanBuffers_of_fits h⟩⟩,
    fun n bufs s b hb => ?_, fun n size s hw hf => ?_, fun n s b hb hfits hpositions => ?_⟩
  · intro e locking
    have hlocking : locking.lanes[n].batch = some b := 
      (congrArg Lane.batch (State.updLane_get_self n (fun l => { l with bufs := bufs, stage := .locking }) s)).trans hb
    exact ⟨State.requestLaneLock_of_free (s := locking) hlocking, State.requestLaneLock_of_busy (s := locking) hlocking⟩
  · rw [State.requestBuffers_of_free (r := { owner := .lane n, size := size }) hw hf, State.grantBuffers_sbp]
    exact ⟨State.grantSet_bufs n _ _, rfl, hw⟩
  · intro skipped t
    obtain ⟨⟨-, hn⟩, -⟩ := hfits
    obtain ⟨hlength, hrows⟩ := s.firstReads_shape b
    have hlane : t.lanes[n] = s.laneReading n b := State.enterReading_lane hb
    obtain ⟨m, o, ht⟩ := State.enterReading_frame hb
    change t = _ at ht
    have hothers (x : Fin 4) (hx : x ≠ n) : t.lanes[x] = s.lanes[x] := by
      rw [ht]
      exact State.updLane_get_other (Ne.symm hx) (fun _ => s.laneReading n b) s
    rw [hlane]
    refine ⟨rfl, hb, rfl, rfl, ⟨hlength, hrows⟩, fun i x cell hi hx hcell => ?_, fun r => State.mem_readRequests,
      fun r hr => State.enterReading_live hb hr ?_, fun x hx => State.enterReading_works hb (hpositions ▸ hx), hothers,
      ?_, ?_, ?_, ?_⟩
    · obtain rfl := Option.some.inj ((State.firstReads_cell hi hx).symm.trans hcell)
      exact ⟨State.firstCell_of_excluded, State.firstCell_of_read⟩
    · obtain ⟨-, hx, -⟩ := State.readRequests_plain hr
      omega
    all_goals rw [ht]
    · exact ⟨rfl, rfl, rfl, rfl, rfl, rfl, rfl, rfl, rfl, rfl, rfl, rfl, rfl, rfl⟩
    · exact .of_mgp rfl
    · rfl
    · rfl

end Sys2Proof.Machine
end

section
/-! Offers: LRL takes the pending records of a lane in order while it has room, and what that leaves (R125, R127, R177, R179). -/

namespace Sys2Proof.Machine

/-! ## A record takes its place (R176) -/

section Insert

variable {r : Record} {records : List Record} (hnew : ∀ x ∈ records, x.stripe ≠ r.stripe)

include hnew

/-- A record of a new stripe joins the others, and none leaves. -/
theorem insertRecord_perm : (insertRecord r records).Perm (r :: records) := by
  induction records with
  | nil => exact .refl _
  | cons y rest ih =>
    obtain ⟨hy, hrest⟩ := List.forall_mem_cons.1 hnew
    rw [insertRecord, if_neg (Ne.symm hy)]
    split
    · exact .refl _
    · exact ((ih hrest).cons y).trans (.swap r y rest)

/-- The list stays in ascending order of stripe. -/
theorem insertRecord_pairwise (h : records.Pairwise fun a b => a.stripe < b.stripe) :
    (insertRecord r records).Pairwise fun a b => a.stripe < b.stripe := by
  induction records with
  | nil => exact List.pairwise_singleton _ _
  | cons y rest ih =>
    obtain ⟨hy, hrest⟩ := List.forall_mem_cons.1 hnew
    obtain ⟨hfirst, hsorted⟩ := List.pairwise_cons.1 h
    rw [insertRecord, if_neg (Ne.symm hy)]
    split
    · rename_i hlt
      exact List.pairwise_cons.2 ⟨List.forall_mem_cons.2 ⟨hlt, fun x hx => hlt.trans (hfirst x hx)⟩, h⟩
    · rename_i hlt
      refine List.pairwise_cons.2 ⟨fun x hx => ?_, ih hrest hsorted⟩
      rcases List.mem_cons.1 ((insertRecord_perm hrest).mem_iff.1 hx) with rfl | hx
      · omega
      · exact hfirst x hx

end Insert

/-! ## One offer (R177, R179) -/

/-- LRL has taken a record, and its region counts it (R65, R177). -/
def State.recorded (r : Record) (s : State) : State :=
  ((s.updLrl fun l => { l with records := insertRecord r l.records }).countRecord r.stripe).setEvent .recordAdded

theorem State.offer_of_room {s : State} (h : s.lrl.records.length < 256) (r : Record) : s.offer r = (s.recorded r, true) :=
  if_pos h

theorem State.offer_of_full {s : State} (h : 256 ≤ s.lrl.records.length) (r : Record) :
    s.offer r = (s.noting (Event.bit .listFull), false) := if_neg (Nat.not_lt.2 h)

/-! ## The offers of a lane (R125, R127) -/

/-- How many offers LRL has room for (R174). -/
def State.room (s : State) : Nat := 256 - s.lrl.records.length

/-- LRL has accepted the records of the stripes `taken` from lane n, whose pending offers are then `left`. -/
structure State.Accepted (n : Fin 4) (taken left : List Nat) (s v : State) : Prop where
  only : v = { s with
    lrl := v.lrl
    rgt := { s.rgt with regions := v.rgt.regions }
    lanes := s.lanes.set n { s.lanes[n] with offers := left }
    mgp := if taken = [] then s.mgp else s.mgp.withStatus (s.mgp.status ||| Event.bit .recordAdded) }
  ordered : v.lrl.records.Pairwise fun a b => a.stripe < b.stripe
  records : ∀ x, x ∈ v.lrl.records ↔ x ∈ s.lrl.records ∨ x ∈ taken.map s.lanes[n].recordOf
  regions : ∀ k : Nat, v.rgt.regions[k]? = s.rgt.regions[k]?.map fun (r : Region) =>
    ({ r with recordCount := r.recordCount + (taken.filter fun stripe => stripe / s.profile.rs == k).length } : Region)

section Accepted

variable {s v : State} {n : Fin 4}

theorem State.Accepted.nil (horder : s.lrl.records.Pairwise fun a b => a.stripe < b.stripe) :
    State.Accepted n [] s.lanes[n].offers s s := by
  refine ⟨?_, horder, fun x => by simp, fun k => by simp⟩
  have hlanes : s.lanes.set n s.lanes[n] = s.lanes := Vector.set_getElem_self _
  exact congrArg (fun lanes => ({ s with lanes := lanes } : State)) hlanes.symm

/-- The state in which a lane goes on to its next offer. -/
def State.offered (n : Fin 4) (stripe : Nat) (rest : List Nat) (s : State) : State :=
  (s.recorded (s.lanes[n].recordOf stripe)).updLane n fun l => { l with offers := rest }

theorem State.offered_lane (n : Fin 4) (stripe : Nat) (rest : List Nat) (s : State) :
    (s.offered n stripe rest).lanes[n] = { s.lanes[n] with offers := rest } := State.updLane_get_self n _ _

/-- RECORD_ADDED joins the status set once, however many records are added. -/
theorem Mgp.withStatus_twice (m : Mgp) (set : EventSet) :
    (m.withStatus (m.status ||| set)).withStatus ((m.withStatus (m.status ||| set)).status ||| set) =
      m.withStatus (m.status ||| set) := by
  simp [Mgp.withStatus, BitVec.or_assoc]

/-- A record is accepted, and then those of the stripes behind it. -/
theorem State.Accepted.cons {stripe : Nat} {rest taken left : List Nat} (hnew : ∀ x ∈ s.lrl.records, x.stripe ≠ stripe)
    (h : State.Accepted n taken left (s.offered n stripe rest) v) : State.Accepted n (stripe :: taken) left s v := by
  have hlane := s.offered_lane n stripe rest
  have hrecord : (s.offered n stripe rest).lanes[n].recordOf = s.lanes[n].recordOf := by
    rw [hlane]
    rfl
  have hinsert := insertRecord_perm (r := s.lanes[n].recordOf stripe) hnew
  refine ⟨?_, h.ordered, fun x => ?_, fun k => ?_⟩
  · have hlanes : (s.offered n stripe rest).lanes.set n { (s.offered n stripe rest).lanes[n] with offers := left } =
        s.lanes.set n { s.lanes[n] with offers := left } := by
      rw [hlane]
      exact Vector.set_set _ n.isLt
    have hmgp : (if taken = [] then (s.offered n stripe rest).mgp
        else (s.offered n stripe rest).mgp.withStatus ((s.offered n stripe rest).mgp.status ||| Event.bit .recordAdded)) =
        s.mgp.withStatus (s.mgp.status ||| Event.bit .recordAdded) := by
      split
      · rfl
      · exact s.mgp.withStatus_twice _
    have honly := h.only
    rw [hlanes, hmgp] at honly
    rw [if_neg (List.cons_ne_nil _ _)]
    exact honly
  · rw [h.records, hrecord]
    have hmem : x ∈ (s.offered n stripe rest).lrl.records ↔ x = s.lanes[n].recordOf stripe ∨ x ∈ s.lrl.records :=
      hinsert.mem_iff.trans List.mem_cons
    rw [hmem, List.map_cons, List.mem_cons]
    tauto
  · have hregion : (s.offered n stripe rest).rgt.regions[k]? = s.rgt.regions[k]?.map fun (r : Region) =>
        ({ r with recordCount := r.recordCount + if stripe / s.profile.rs = k then 1 else 0 } : Region) := by
      show (s.rgt.regions.modify (stripe / s.profile.rs) _)[k]? = _
      rw [List.getElem?_modify]
      split
      · rfl
      · simp
    rw [h.regions, hregion, Option.map_map]
    refine congrArg (Option.map · _) (funext fun r => ?_)
    show ({ r with recordCount := r.recordCount + _ + (taken.filter fun x => x / s.profile.rs == k).length } : Region) = _
    by_cases hk : stripe / s.profile.rs = k
    · simp [hk, Nat.add_assoc, Nat.add_comm 1]
    · simp [hk]

/-- A lane's offers are accepted in order while LRL has room; the first one turned away sets LIST_FULL and ends them. -/
theorem State.offerAll_accepted {l : List Nat} (hoffers : s.lanes[n].offers = l)
    (horder : s.lrl.records.Pairwise fun a b => a.stripe < b.stripe) (honce : l.Nodup)
    (hnew : ∀ x ∈ s.lrl.records, x.stripe ∉ l) :
    ∃ v, State.Accepted n (l.take s.room) (l.drop s.room) s v ∧
      State.offerAll n l s = if l.length ≤ s.room then (v, true) else (v.noting (Event.bit .listFull), false) := by
  induction l generalizing s with
  | nil =>
    have hnil := State.Accepted.nil (n := n) horder
    rw [hoffers] at hnil
    exact ⟨s, by simpa using hnil, rfl⟩
  | cons stripe rest ih =>
    simp only [State.offerAll]
    by_cases hfull : 256 ≤ s.lrl.records.length
    · have hroom : s.room = 0 := Nat.sub_eq_zero_of_le hfull
      have hnil := State.Accepted.nil (n := n) horder
      rw [hoffers] at hnil
      rw [State.offer_of_full hfull, hroom]
      exact ⟨s, hnil, rfl⟩
    · rw [Nat.not_le] at hfull
      obtain ⟨hstripe, hrest⟩ := List.nodup_cons.1 honce
      have hnew' : ∀ x ∈ s.lrl.records, x.stripe ≠ stripe := fun x hx h => hnew x hx (h ▸ List.mem_cons_self)
      have hinsert := insertRecord_perm (r := s.lanes[n].recordOf stripe) hnew'
      have hroom : s.room = (s.offered n stripe rest).room + 1 := by
        have hlength : (s.offered n stripe rest).lrl.records.length = s.lrl.records.length + 1 := hinsert.length_eq
        rw [State.room, State.room, hlength]
        omega
      obtain ⟨v, haccepted, hall⟩ := ih (s := s.offered n stripe rest) (by rw [State.offered_lane])
        (insertRecord_pairwise hnew' horder) hrest fun x hx => by
          rcases List.mem_cons.1 (hinsert.mem_iff.1 hx) with rfl | hx
          · exact hstripe
          · exact fun h => hnew x hx (List.mem_cons_of_mem _ h)
      rw [State.offer_of_room hfull, hroom]
      exact ⟨v, haccepted.cons hnew', hall.trans (if_congr Nat.succ_le_succ_iff.symm rfl rfl)⟩

theorem State.Accepted.offersTaken {b : Batch} (hb : s.lanes[n].batch = some b)
    (h : State.Accepted n (s.lanes[n].offers.take s.room) (s.lanes[n].offers.drop s.room) s v) : OffersTaken s v n b := by
  have hrecord : s.lanes[n].recordOf = fun stripe =>
      let r := s.lanes[n].results.getD (stripe - b.first) StripeResult.empty
      ({ stripe := stripe, lost := r.lost, suspect := r.suspect, contributors := r.contributors } : Record) := by
    funext stripe
    rw [Lane.recordOf, Lane.resultOf, hb]
  have hdrop : s.lanes[n].offers.drop (s.lanes[n].offers.take s.room).length = s.lanes[n].offers.drop s.room := by
    rw [List.length_take]
    rcases Nat.le_total s.room s.lanes[n].offers.length with hle | hle
    · rw [Nat.min_eq_left hle]
    · rw [Nat.min_eq_right hle, List.drop_length, List.drop_of_length_le hle]
  obtain ⟨only, hordered, hrecords, hregions⟩ := h
  rw [hrecord] at hrecords
  rw [← hdrop] at only
  have hrgt : v.rgt = { s.rgt with regions := v.rgt.regions } := congrArg State.rgt only
  rw [← hrgt] at only
  refine ⟨v.lrl.records, v.rgt, hordered, hrecords, hregions, ?_, only⟩
  rw [hrgt]

/-- What the offers of a lane come to, by whether LRL has room for all of them. -/
theorem State.offerAll_taken {b : Batch} (hb : s.lanes[n].batch = some b) (horder : s.RecordsInOrder)
    (honce : s.lanes[n].offers.Nodup) (hnew : ∀ x ∈ s.lrl.records, x.stripe ∉ s.lanes[n].offers) :
    ∃ v, OffersTaken s v n b ∧
      (s.lanes[n].offers.length ≤ 256 - s.lrl.records.length → State.offerAll n s.lanes[n].offers s = (v, true)) ∧
      (256 - s.lrl.records.length < s.lanes[n].offers.length →
        State.offerAll n s.lanes[n].offers s = (v.noting (Event.bit .listFull), false)) := by
  obtain ⟨v, haccepted, hall⟩ := State.offerAll_accepted rfl horder.1 honce hnew
  exact ⟨v, haccepted.offersTaken hb, fun h => hall.trans (if_pos h), fun h => hall.trans (if_neg (Nat.not_le.2 h))⟩

end Accepted

/-! ## The holders after a retirement (R127) -/

section Holders

variable {s v : State} {n : Fin 4} {rest : List (Fin 4)}

theorem State.afterRetirement_of_accepted (h : s.holdingOrder = n :: rest)
    (hall : State.offerAll n s.lanes[n].offers s = (v, true)) :
    s.afterRetirement = (({ v with holdingOrder := rest } : State).endBatch n).afterRetirement := by
  rw [State.afterRetirement, State.afterRetirement, State.endBatch_holdingOrder, h, State.serveHolders, hall]

theorem State.afterRetirement_of_refused (h : s.holdingOrder = n :: rest)
    (hall : State.offerAll n s.lanes[n].offers s = (v, false)) : s.afterRetirement = v := by
  rw [State.afterRetirement, h, State.serveHolders, hall]

end Holders

/-- Settles O43: the head's offers by whether LRL has room for all of them, and then the rest of the order or nobody. -/
theorem holdersServedInOrder : Obligations.HoldersServedInOrder := by
  refine ⟨fun s h => ?_, fun s n rest b hholding hb horder honce hnew => ?_⟩
  · rw [State.afterRetirement, h, State.serveHolders]
  · obtain ⟨v, htaken, hall, hpart⟩ := State.offerAll_taken hb horder honce hnew
    exact ⟨v, htaken, fun h => State.afterRetirement_of_accepted hholding (hall h),
      fun h => State.afterRetirement_of_refused hholding (hpart h)⟩

end Sys2Proof.Machine
end

section
/-! The work of a lane, outside MRU, goes by nothing that MRU holds but the quarantine: two states that differ in the rest of MRU and
in the messages sent alone still do so after it. -/

namespace Sys2Proof.Machine

/-! ## States alike outside MRU -/

/-- The state without what MRU holds, save the quarantine, and without the messages sent. -/
def State.bare (s : State) : State := { s with mru := { Mru.reset with quarantined := s.mru.quarantined }, sent := [] }

/-- Two states differ at most in MRU outside the quarantine, and in the messages sent. -/
def State.Alike (s t : State) : Prop := s.bare = t.bare

theorem State.Alike.trans {s t u : State} (h : s.Alike t) (h' : t.Alike u) : s.Alike u := Eq.trans h h'

theorem State.Alike.symm {s t : State} (h : s.Alike t) : t.Alike s := Eq.symm h

theorem State.alike_of_mru {s t : State} (h : MruOnly s t) (hq : t.mru.quarantined = s.mru.quarantined) : s.Alike t := by
  obtain ⟨m, o, rfl⟩ := h
  unfold State.Alike State.bare
  rw [hq]

/-- An update that reads nothing of MRU but the quarantine, and changes nothing of it, keeps states alike. -/
theorem State.Alike.update {s t : State} (h : s.Alike t) (f : State → State) (hf : ∀ u, (f u).bare = f u.bare) :
    (f s).Alike (f t) := by
  rw [State.Alike, hf, hf, show s.bare = t.bare from h]

section Alike

variable {s t : State} (h : s.Alike t)

include h

theorem State.Alike.ses : s.ses = t.ses := (congrArg State.ses h :)
theorem State.Alike.rgt : s.rgt = t.rgt := (congrArg State.rgt h :)
theorem State.Alike.slk : s.slk = t.slk := (congrArg State.slk h :)
theorem State.Alike.sbp : s.sbp = t.sbp := (congrArg State.sbp h :)
theorem State.Alike.lanes : s.lanes = t.lanes := (congrArg State.lanes h :)
theorem State.Alike.profile : s.profile = t.profile := (congrArg State.profile h :)
theorem State.Alike.quarantined : s.mru.quarantined = t.mru.quarantined := (congrArg (fun u => u.mru.quarantined) h :)

theorem State.Alike.named (buf : BufId) : s.mru.namesQuarantined buf = t.mru.namesQuarantined buf := by
  rw [Mru.namesQuarantined, Mru.namesQuarantined, h.quarantined]

theorem State.Alike.sameOutsideMru : SameOutsideMru s t :=
  (congrArg (fun u => ({ u with mru := t.mru, sent := t.sent } : State)) h :)

/-! ## Locks (R91, R101) -/

theorem State.Alike.submitAll (requests : List Request) : s.Alike (t.submitAll requests) :=
  h.trans (State.alike_of_mru (t.submitAll_only requests) (t.submitAll_lanesWorked requests).quarantined)

theorem State.Alike.enterReading (n : Fin 4) : (s.enterReading n).Alike (t.enterReading n) := by
  cases hb : t.lanes[n].batch with
  | none =>
    have hs : s.lanes[n].batch = none := by rw [h.lanes, hb]
    rw [State.enterReading, State.enterReading, hs, hb]
    exact h
  | some b =>
    have hs : s.lanes[n].batch = some b := by rw [h.lanes, hb]
    rw [State.enterReading_of_batch hs, State.enterReading_of_batch hb]
    have hread : (s.updLane n fun _ => s.laneReading n b).Alike (t.updLane n fun _ => t.laneReading n b) :=
      h.update (fun u => u.updLane n fun _ => u.laneReading n b) fun _ => rfl
    exact (hread.symm.submitAll _).symm.submitAll _

theorem State.Alike.grantWaiting (e : LockEntry) : (s.grantWaiting e).Alike (t.grantWaiting e) := by
  unfold State.grantWaiting
  cases e.owner with
  | lane n => exact h.enterReading n
  | claim tag => exact h.update (fun u => (u.answer (u.grantedAnswer tag e.first e.count)).dropReservation) fun _ => rfl

omit h in
theorem State.Alike.scanFrom {rest kept : List LockEntry} (h : s.Alike t) :
    (State.scanFrom rest kept s).Alike (State.scanFrom rest kept t) := by
  induction rest generalizing kept s t with
  | nil => exact h
  | cons e rest ih =>
    rw [State.scanFrom, State.scanFrom, h.slk]
    split
    · exact ih ((h.update (State.updSlk _) fun _ => rfl).grantWaiting e)
    · exact ih h

theorem State.Alike.scanLocks : s.scanLocks.Alike t.scanLocks := by
  rw [State.scanLocks, State.scanLocks, h.slk]
  exact h.scanFrom

theorem State.Alike.requestLaneLock (n : Fin 4) : (s.requestLaneLock n).Alike (t.requestLaneLock n) := by
  rw [State.requestLaneLock, State.requestLaneLock, h.lanes, h.slk]
  cases t.lanes[n].batch with
  | none => exact h
  | some b =>
    dsimp only
    split
    · exact (h.update (State.updSlk _) fun _ => rfl).enterReading n
    · exact h.update (State.updSlk _) fun _ => rfl

/-! ## Buffers (R111, R112, R23) -/

theorem State.Alike.beginAttempt (q : QualProgress) : (s.beginAttempt q).Alike (t.beginAttempt q) := by
  cases hnamed : t.mru.namesQuarantined t.ses.patternBuf with
  | true =>
    have hs : s.mru.namesQuarantined s.ses.patternBuf = true := by rw [h.named, h.ses, hnamed]
    rw [State.beginAttempt_of_named hs, State.beginAttempt_of_named hnamed]
    exact h.update (State.setProgress _) fun _ => rfl
  | false =>
    have hs : s.mru.namesQuarantined s.ses.patternBuf = false := by rw [h.named, h.ses, hnamed]
    have hsubmit {u : State} (hu : u.mru.namesQuarantined u.ses.patternBuf = false) :
        (u.patternFilled q).Alike (u.beginAttempt q) :=
      State.alike_of_mru (State.beginAttempt_submitted hu q).only (State.beginAttempt_submitted hu q).quarantined
    exact ((hsubmit hs).symm.trans (h.update (State.patternFilled q) fun _ => rfl)).trans (hsubmit hnamed)

theorem State.Alike.grantSet (owner : Owner) (bufs : List BufId) : (s.grantSet owner bufs).Alike (t.grantSet owner bufs) := by
  cases owner with
  | lane n => exact (h.update (State.updLane n _) fun _ => rfl).requestLaneLock n
  | qualification =>
    have hset : (s.updSes fun e => { e with qualSet := bufs }).Alike (t.updSes fun e => { e with qualSet := bufs }) :=
      h.update (State.updSes _) fun _ => rfl
    simp only [State.grantSet]
    rw [hset.ses]
    split
    · exact hset
    · exact hset.beginAttempt _

theorem State.Alike.grantBuffers (r : BufRequest) : (s.grantBuffers r).Alike (t.grantBuffers r) := by
  rw [State.grantBuffers, State.grantBuffers, h.sbp]
  exact (h.update (State.updSbp _) fun _ => rfl).grantSet _ _

theorem State.Alike.requestBuffers (r : BufRequest) : (s.requestBuffers r).Alike (t.requestBuffers r) := by
  rw [State.requestBuffers, State.requestBuffers, h.sbp]
  split
  · exact h.grantBuffers r
  · exact h.update (State.updSbp _) fun _ => rfl

omit h in
theorem State.Alike.scanBuffersFrom {l : List BufRequest} (h : s.Alike t) :
    (State.scanBuffersFrom l s).Alike (State.scanBuffersFrom l t) := by
  induction l generalizing s t with
  | nil => exact h
  | cons r rest ih =>
    rw [State.scanBuffersFrom, State.scanBuffersFrom, h.sbp]
    split
    · exact ih ((h.update (State.updSbp _) fun _ => rfl).grantBuffers r)
    · exact h

theorem State.Alike.scanBuffers : s.scanBuffers.Alike t.scanBuffers := by
  rw [State.scanBuffers, State.scanBuffers, h.sbp]
  exact h.scanBuffersFrom

/-! ## Assignment (R56 to R61) -/

omit h in
theorem State.Alike.passOver {l : List (Fin 4)} (h : s.Alike t) : (State.passOver l s).Alike (State.passOver l t) := by
  induction l generalizing s t with
  | nil => exact h
  | cons n rest ih =>
    have heligible : s.eligible n = t.eligible n := (congrArg (State.eligible n) h :)
    rw [State.passOver, State.passOver, heligible, State.serveLane, State.serveLane, h.rgt, h.profile, h.ses]
    split
    · cases t.rgt.nextBatch t.profile.rs (t.ses.batchSize.getD 0) with
      | none => exact h
      | some x =>
        have hassign : ((s.updRgt fun _ => x.2).assign n x.1).Alike ((t.updRgt fun _ => x.2).assign n x.1) := by
          rw [State.assign, State.assign]
          have hprofile : (s.updRgt fun _ => x.2).profile = (t.updRgt fun _ => x.2).profile := h.profile
          rw [hprofile]
          exact (h.update (fun u => (u.updRgt fun _ => x.2).updLane n _) fun _ => rfl).requestBuffers _
        exact ih hassign
    · exact ih h

theorem State.Alike.passAfterBatch (n : Fin 4) (returned : Bool) :
    (s.passAfterBatch n returned).Alike (t.passAfterBatch n returned) := by
  rw [State.passAfterBatch, State.passAfterBatch, h.ses]
  split
  · split
    · exact h.passOver
    · exact h.passOver
  · exact h

/-! ## The end of a batch (R129) -/

theorem State.Alike.laneCleared (n : Fin 4) : (s.laneCleared n).Alike (t.laneCleared n) := by
  have hlocks : (s.giveUpBatch n).scanLocks.Alike (t.giveUpBatch n).scanLocks :=
    (h.update (State.giveUpBatch n) fun _ => rfl).scanLocks
  have hbuffers := (hlocks.update (State.giveUpBuffers n) fun _ => rfl).scanBuffers
  exact hbuffers.update (State.clearLane n) fun _ => rfl

theorem State.Alike.batchReported (n : Fin 4) (b : Batch) : (s.batchReported n b).Alike (t.batchReported n b) := by
  rw [State.batchReported, State.batchReported, State.reportBatch_eq, State.reportBatch_eq]
  exact (h.laneCleared n).update (fun u => { u with rgt := u.rgt.counted (u.regionHeld b.region) b }) fun _ => rfl

end Alike

theorem State.completeOr_bare (st : SessionState) (s : State) : (s.completeOr st).bare = s.bare.completeOr st :=
  apply_ite State.bare _ _ _

theorem State.completionTest_bare (s : State) : s.completionTest.bare = s.bare.completionTest := by
  have hstate : s.bare.ses.state = s.ses.state := rfl
  rw [State.completionTest, State.completionTest, hstate]
  split
  · exact apply_ite State.bare _ _ _
  · exact (apply_ite State.bare _ _ _).trans (if_congr Iff.rfl (State.completeOr_bare _ _) rfl)
  · exact (apply_ite State.bare _ _ _).trans (if_congr Iff.rfl (State.completeOr_bare _ _) rfl)
  · rfl

theorem State.suspendedExit_bare (s : State) : s.suspendedExit.bare = s.bare.suspendedExit :=
  (apply_ite State.bare _ _ _).trans (if_congr Iff.rfl (apply_ite State.bare _ _ _) rfl)

theorem State.enterHolding_bare (n : Fin 4) (s : State) : (s.enterHolding n).bare = s.bare.enterHolding n :=
  apply_ite State.bare _ _ _

theorem State.offer_bare (r : Record) (s : State) : s.bare.offer r = ((s.offer r).1.bare, (s.offer r).2) := by
  by_cases h : s.lrl.records.length < 256
  · rw [State.offer_of_room h, State.offer_of_room (s := s.bare) h]
    rfl
  · rw [State.offer_of_full (Nat.not_lt.1 h), State.offer_of_full (s := s.bare) (Nat.not_lt.1 h)]
    rfl

theorem State.offerAll_bare (n : Fin 4) (l : List Nat) (s : State) :
    State.offerAll n l s.bare = ((State.offerAll n l s).1.bare, (State.offerAll n l s).2) := by
  induction l generalizing s with
  | nil => rfl
  | cons stripe rest ih =>
    have hrecord : s.bare.lanes[n].recordOf stripe = s.lanes[n].recordOf stripe := rfl
    simp only [State.offerAll]
    rw [hrecord, State.offer_bare]
    dsimp only
    split
    · exact ih ((s.offer (s.lanes[n].recordOf stripe)).1.updLane n fun l => { l with offers := rest })
    · rfl

section Settling

variable {s t : State} {n : Fin 4}

theorem State.Alike.endBatch (h : s.Alike t) : (s.endBatch n).Alike (t.endBatch n) := by
  cases hb : t.lanes[n].batch with
  | none =>
    have hs : s.lanes[n].batch = none := by rw [h.lanes, hb]
    rw [State.endBatch, State.endBatch, hs, hb]
    exact h
  | some b =>
    have hs : s.lanes[n].batch = some b := by rw [h.lanes, hb]
    have hexit : (s.batchReported n b).exitTests.Alike (t.batchReported n b).exitTests := by
      have hreported := h.batchReported n b
      unfold State.Alike at hreported ⊢
      rw [State.exitTests, State.exitTests, State.suspendedExit_bare, State.completionTest_bare, hreported,
        ← State.completionTest_bare, ← State.suspendedExit_bare]
    rw [State.endBatch_eq hs, State.endBatch_eq hb, h.ses]
    exact hexit.passAfterBatch n _

/-- A lane settles alike in states that are alike (R125). -/
theorem State.Alike.enterSettling (h : s.Alike t) : (s.enterSettling n).Alike (t.enterSettling n) := by
  have hsettling : (s.updLane n fun l => { l with stage := .settling, offers := s.lanes[n].firstOffers }).Alike
      (t.updLane n fun l => { l with stage := .settling, offers := s.lanes[n].firstOffers }) :=
    h.update (State.updLane n _) fun _ => rfl
  have hoffers := (State.offerAll_bare n s.lanes[n].firstOffers _).symm.trans
    ((congrArg (State.offerAll n s.lanes[n].firstOffers) hsettling).trans (State.offerAll_bare n _ _))
  rw [State.enterSettling, State.enterSettling, ← h.lanes]
  generalize State.offerAll n s.lanes[n].firstOffers (s.updLane n _) = x at hoffers ⊢
  generalize State.offerAll n s.lanes[n].firstOffers (t.updLane n _) = y at hoffers ⊢
  obtain ⟨u, a⟩ := x
  obtain ⟨v, a'⟩ := y
  obtain ⟨huv, rfl⟩ := Prod.ext_iff.1 hoffers
  cases a with
  | true => exact State.Alike.endBatch huv
  | false =>
    show (u.enterHolding n).bare = (v.enterHolding n).bare
    rw [State.enterHolding_bare, State.enterHolding_bare]
    exact congrArg (State.enterHolding n) huv

end Settling

/-! ## The quarantine -/

theorem State.offerAll_mru (n : Fin 4) (l : List Nat) (s : State) : (State.offerAll n l s).1.mru = s.mru := by
  induction l generalizing s with
  | nil => rfl
  | cons stripe rest ih =>
    have hoffer : (s.offer (s.lanes[n].recordOf stripe)).1.mru = s.mru := by
      by_cases h : s.lrl.records.length < 256
      · rw [State.offer_of_room h]
        rfl
      · rw [State.offer_of_full (Nat.not_lt.1 h)]
        rfl
    simp only [State.offerAll]
    split
    · exact (ih _).trans hoffer
    · exact hoffer

theorem State.endBatch_quarantined (n : Fin 4) (s : State) : (s.endBatch n).mru.quarantined = s.mru.quarantined := by
  cases hb : s.lanes[n].batch with
  | none => rw [State.endBatch, hb]
  | some b =>
    obtain ⟨st, m, hexit⟩ := (s.batchReported n b).exitTests_session
    have hreported : (s.batchReported n b).exitTests.mru = (s.batchReported n b).mru := by rw [hexit]
    obtain ⟨hpass, -⟩ := State.passAfterBatch_kept n (s.ses.state == .suspended) (s.batchReported n b).exitTests
    rw [State.endBatch_eq hb, hpass.quarantined, hreported]
    exact (s.batchReported_any n b).granted.quarantined

theorem State.enterHolding_mru (n : Fin 4) (s : State) : (s.enterHolding n).mru = s.mru := by
  rw [State.enterHolding]
  dsimp only
  split
  · rfl
  · rfl

/-! ## A lane settles (R125) -/

/-- A lane that has entered SETTLING, with the offers it is to make. -/
def State.settling (n : Fin 4) (s : State) : State :=
  s.updLane n fun l => { l with stage := .settling, offers := s.lanes[n].firstOffers }

section Settles

variable {s v : State} {n : Fin 4}

theorem State.enterSettling_of_accepted (h : State.offerAll n s.lanes[n].firstOffers (s.settling n) = (v, true)) :
    s.enterSettling n = v.endBatch n := by
  rw [State.settling] at h
  rw [State.enterSettling, h]

theorem State.enterSettling_of_refused (h : State.offerAll n s.lanes[n].firstOffers (s.settling n) = (v, false)) :
    s.enterSettling n = v.enterHolding n := by
  rw [State.settling] at h
  rw [State.enterSettling, h]

/-- No request enters or leaves quarantine while a lane settles. -/
theorem State.enterSettling_quarantined (n : Fin 4) (s : State) :
    (s.enterSettling n).mru.quarantined = s.mru.quarantined := by
  have hmru := State.offerAll_mru n s.lanes[n].firstOffers (s.settling n)
  obtain ⟨v, accepted, hall⟩ : ∃ v a, State.offerAll n s.lanes[n].firstOffers (s.settling n) = (v, a) := ⟨_, _, rfl⟩
  rw [hall] at hmru
  have hv : v.mru = s.mru := hmru
  cases accepted with
  | true => rw [State.enterSettling_of_accepted hall, State.endBatch_quarantined, hv]
  | false => rw [State.enterSettling_of_refused hall, State.enterHolding_mru, hv]

theorem Lane.firstOffers_of_batch {l : Lane} {b : Batch} (h : l.batch = some b) :
    l.firstOffers = (List.range' b.first b.length).filter fun stripe =>
      let r := l.results.getD (stripe - b.first) StripeResult.empty
      r.lost != 0 || r.suspect != 0 := by
  have hresult : l.resultOf = fun stripe => l.results.getD (stripe - b.first) StripeResult.empty := by
    funext stripe
    rw [Lane.resultOf, h]
  rw [Lane.firstOffers, h, hresult]
  rfl

theorem Lane.firstOffers_nodup (l : Lane) : l.firstOffers.Nodup := by
  unfold Lane.firstOffers
  split
  · exact List.nodup_nil
  · exact List.Nodup.filter _ List.nodup_range'

/-- The last write of a lane in WRITING takes it to SETTLING (R123). -/
theorem State.settleWrite_last (hstage : s.lanes[n].stage = .writing) (hleft : s.lanes[n].outstanding = 1) :
    s.settleWrite n = (s.updLane n fun l => { l with outstanding := 0 }).enterSettling n := by
  have hlane : (s.updLane n fun l => { l with outstanding := l.outstanding - 1 }) =
      s.updLane n fun l => { l with outstanding := 0 } := by
    rw [State.updLane, State.updLane, hleft]
  rw [State.settleWrite, if_pos hstage, hlane]
  exact if_pos (congrArg Lane.outstanding (State.updLane_get_self n _ s))

end Settles

/-- A write that has left MRU leaves everything outside MRU as it was, and the quarantine. -/
theorem State.RequestLeft.alike {r : Request} {data : List Byte} {s v : State} (h : State.RequestLeft r data s v)
    (hk : r.kind.isWrite = true) : s.Alike v := by
  refine State.alike_of_mru ?_ h.quarantined
  obtain ⟨m, hv⟩ := h.only
  rw [State.landData_of_write hk] at hv
  exact ⟨m, _, hv⟩

theorem State.settle_write {s : State} {r : Request} {n : Fin 4} (hk : r.kind.isWrite = true) (ho : r.owner = some (.lane n))
    (o : Settlement) : s.settle r o = s.settleWrite n := by
  simp [State.settle, hk, ho]

theorem State.Issued.alike {s t : State} (h : s.Issued t) : s.Alike t := State.alike_of_mru h.only h.quarantined

/-- Settles O42: the lane settles as it would with MRU untouched, and its offers decide by LRL's room what becomes of it. -/
theorem lastSpareWriteSettlesBatch : Obligations.LastSpareWriteSettlesBatch := by
  refine ⟨fun tag position mask data s r n hr hk ho hstage hleft => ?_, ?_⟩
  · have hwrite : r.kind.isWrite = true := by rw [hk]; rfl
    obtain ⟨v, hv, hissued⟩ :=
      State.takeCompletion_good (s := s.beginEvent) hr (BitVec.ofNat 64 (leNat (bytes64 mask))) data
    have hsv : s.Alike v := (State.alike_of_mru s.beginEvent_only rfl).trans (hv.alike hwrite)
    have hsettle : v.settle r .good = (v.updLane n fun l => { l with outstanding := 0 }).enterSettling n := by
      rw [State.settle_write hwrite ho]
      exact State.settleWrite_last (by rw [← hsv.lanes, hstage]) (by rw [← hsv.lanes, hleft])
    rw [hsettle] at hissued
    have hsettled : ((s.updLane n fun l => { l with outstanding := 0 }).enterSettling n).Alike
        ((v.updLane n fun l => { l with outstanding := 0 }).enterSettling n) :=
      (hsv.update (State.updLane n _) fun _ => rfl).enterSettling
    have halike := (hsettled.trans hissued.alike).symm
    exact ⟨_, exec_completion _ _ _ _ _ _, halike.sameOutsideMru,
      halike.quarantined.trans (State.enterSettling_quarantined n _)⟩
  · intro n s b hb horder offers settling hnew
    have hoffers : s.lanes[n].firstOffers = offers := Lane.firstOffers_of_batch hb
    have hsettling : s.settling n = settling := by rw [State.settling, hoffers]; rfl
    have hlane : settling.lanes[n] = { s.lanes[n] with stage := .settling, offers := offers } :=
      Vector.getElem_set_self _
    obtain ⟨v, htaken, hall, hpart⟩ := State.offerAll_taken (s := settling) (n := n) (b := b) (by rw [hlane, hb]) horder
      (by rw [hlane, ← hoffers]; exact Lane.firstOffers_nodup _) (by rw [hlane]; exact hnew)
    have hrun : State.offerAll n settling.lanes[n].offers settling = State.offerAll n s.lanes[n].firstOffers (s.settling n) := by
      rw [hlane, hsettling, hoffers]
    rw [hrun, hlane] at hall hpart
    refine ⟨v, htaken, fun h => State.enterSettling_of_accepted (hall h), fun h => ?_⟩
    rw [State.enterSettling_of_refused (hpart h)]
    obtain ⟨records, g, -, -, -, -, rfl⟩ := htaken
    rfl

end Sys2Proof.Machine
end

section
/-! The request records from one state to the next: a request that has left the outstanding set is gone with its tag, and issues do
no more than give tags to requests that had none (R135, R138, R142). -/

namespace Sys2Proof.Machine

/-! ## Requests that are given tags -/

/-- A request as it stands after issues: it asks for what it asked for, and a tag that it had it still has. -/
def Request.Given (q q' : Request) : Prop := q'.work = q.work ∧ (q.tag = none ∨ q'.tag = q.tag)

theorem Request.Given.refl (q : Request) : q.Given q := ⟨rfl, .inr rfl⟩

theorem Request.Given.trans {q q' q'' : Request} (h : q.Given q') (h' : q'.Given q'') : q.Given q'' := by
  refine ⟨h'.1.trans h.1, h.2.elim .inl fun ht => ?_⟩
  rw [← ht]
  exact h'.2

/-- The requests of a position after issues, in the order of `PosState.works`. -/
def PosState.Given (p p' : PosState) : Prop :=
  List.Forall₂ Request.Given (p.outstanding ++ p.queue) (p'.outstanding ++ p'.queue)

theorem PosState.Given.refl (p : PosState) : p.Given p := List.forall₂_same.2 fun q _ => .refl q

theorem forall₂_given_trans {a b c : List Request} (h : List.Forall₂ Request.Given a b)
    (h' : List.Forall₂ Request.Given b c) : List.Forall₂ Request.Given a c := by
  induction h generalizing c with
  | nil => exact h'
  | cons hq _ ih =>
    obtain ⟨q'', rest, hq', hrest, rfl⟩ := List.forall₂_cons_left_iff.1 h'
    exact .cons (hq.trans hq') (ih hrest)

theorem PosState.Given.trans {p p' p'' : PosState} (h : p.Given p') (h' : p'.Given p'') : p.Given p'' :=
  forall₂_given_trans h h'

theorem exists_of_forall₂ {α β : Type} {R : α → β → Prop} {l : List α} {l' : List β} (h : List.Forall₂ R l l') {a : α}
    (ha : a ∈ l) : ∃ b ∈ l', R a b := by
  induction h with
  | nil => exact absurd ha List.not_mem_nil
  | cons hab _ ih =>
    rcases List.mem_cons.1 ha with rfl | ha
    · exact ⟨_, List.mem_cons_self, hab⟩
    · obtain ⟨b, hb, hR⟩ := ih ha
      exact ⟨b, List.mem_cons_of_mem _ hb, hR⟩

theorem PosState.mem_live {p : PosState} {q : Request} : q ∈ p.live ↔ q ∈ p.outstanding ++ p.queue := by
  rw [PosState.live, List.mem_append, List.mem_append, or_comm]

/-- A request of the position is still there. -/
theorem PosState.Given.stays {p p' : PosState} (h : p.Given p') {q : Request} (hq : q ∈ p.live) :
    ∃ q' ∈ p'.live, q.Given q' := by
  simp only [PosState.mem_live] at hq ⊢
  exact exists_of_forall₂ h hq

/-- A request of the position comes from one that was there before. -/
theorem PosState.Given.origin {p p' : PosState} (h : p.Given p') {q' : Request} (hq : q' ∈ p'.live) :
    ∃ q ∈ p.live, q.Given q' := by
  simp only [PosState.mem_live] at hq ⊢
  exact exists_of_forall₂ (List.Forall₂.flip (R := flip Request.Given) h) hq

theorem PosState.Given.length_live {p p' : PosState} (h : p.Given p') : p'.live.length = p.live.length := by
  have := List.Forall₂.length_eq h
  simp only [PosState.live, List.length_append] at this ⊢
  omega

/-! ## What issues do to the requests (R138, R139) -/

/-- At every position requests may have been given tags. -/
def State.TagsGiven (s t : State) : Prop := ∀ y, (s.mru.pos y).Given (t.mru.pos y)

theorem State.TagsGiven.refl (s : State) : s.TagsGiven s := fun _ => .refl _

theorem State.TagsGiven.trans {s t u : State} (h : s.TagsGiven t) (h' : t.TagsGiven u) : s.TagsGiven u :=
  fun y => (h y).trans (h' y)

theorem State.TagsGiven.foldl {α : Type} {f : State → α → State} (h : ∀ s a, State.TagsGiven s (f s a)) (l : List α)
    (s : State) : s.TagsGiven (l.foldl f s) := by
  induction l generalizing s with
  | nil => exact .refl s
  | cons a l ih => exact (h s a).trans (ih _)

theorem State.tagsGiven_updPos {x : Nat} {f : PosState → PosState} {s : State} (h : (s.mru.pos x).Given (f (s.mru.pos x))) :
    s.TagsGiven (s.updPos x f) := by
  intro y
  show (s.mru.pos y).Given ((s.mru.updPos x f).pos y)
  rw [Mru.pos_updPos]
  split
  · rename_i hy
    rwa [hy.1]
  · exact .refl _

/-- The tag wait order and the messages sent hold no request. -/
theorem State.tagsGiven_order (s : State) (order : List Nat) (sent : List Output) :
    s.TagsGiven { s with mru := { s.mru with tagWait := order }, sent := sent } := .refl s

theorem State.leaveTagWait_given (x : Nat) (s : State) : s.TagsGiven (s.leaveTagWait x) := s.tagsGiven_order _ _

theorem State.joinTagWait_given (x : Nat) (s : State) : s.TagsGiven (s.joinTagWait x) := s.tagsGiven_order _ _

theorem State.setExpiry_given (x : Nat) (e : Option Nat) (s : State) : s.TagsGiven (s.setExpiry x e) :=
  State.tagsGiven_updPos (.refl (s.mru.pos x))

/-- The head is issued with its own tag, or with the tag it is given (R138). -/
theorem State.issueHead_given {x tag : Nat} {s : State}
    (h : ∀ r ∈ (s.mru.pos x).queue.head?, r.tag = none ∨ r.tag = some tag) : s.TagsGiven (s.issueHead x tag) := by
  unfold State.issueHead
  split
  · exact .refl s
  · rename_i r rest hq
    rw [hq] at h
    refine State.TagsGiven.trans (State.tagsGiven_updPos ?_) (State.tagsGiven_order _ _ _)
    unfold PosState.Given
    rw [hq, List.append_assoc]
    refine List.rel_append (List.forall₂_same.2 fun q _ => .refl q) (.cons ⟨rfl, ?_⟩ (List.forall₂_same.2 fun q _ => .refl q))
    exact (h r rfl).imp_right Eq.symm

theorem State.issueFuel_given (fuel x : Nat) (s : State) : s.TagsGiven (s.issueFuel fuel x) := by
  induction fuel generalizing s with
  | zero => exact .refl s
  | succ fuel ih =>
    simp only [State.issueFuel]
    split
    · exact (s.leaveTagWait_given x).trans (State.setExpiry_given x _ _)
    · rename_i r rest hq
      have hhead {tag : Nat} (hr : r.tag = none ∨ r.tag = some tag) : s.TagsGiven (s.issueHead x tag) :=
        State.issueHead_given fun r' hr' => by
          rw [hq, List.head?_cons, Option.mem_some_iff] at hr'
          rwa [← hr']
      split
      · exact s.leaveTagWait_given x
      · split
        · split
          · exact (s.leaveTagWait_given x).trans (State.setExpiry_given x _ _)
          · exact s.leaveTagWait_given x
        · split
          · rename_i tag htag
            exact (hhead (.inr htag)).trans (ih _)
          · rename_i htag
            split
            · exact (hhead (.inl htag)).trans (ih _)
            · exact s.joinTagWait_given x

theorem State.issueDecision_given (x : Nat) (s : State) : s.TagsGiven (s.issueDecision x) := s.issueFuel_given 5 x

theorem State.decideAll_given (s : State) : s.TagsGiven s.decideAll := by
  refine State.TagsGiven.foldl (fun s x => ?_) _ _
  split
  · exact .refl s
  · exact s.issueDecision_given x

theorem State.serveTagWaitFuel_given (fuel : Nat) (s : State) : s.TagsGiven (s.serveTagWaitFuel fuel) := by
  induction fuel generalizing s with
  | zero => exact .refl s
  | succ fuel ih =>
    simp only [State.serveTagWaitFuel]
    split
    · rename_i x _ tag _ _
      have hleft := s.leaveTagWait_given x
      split
      · exact hleft.trans (ih _)
      · split
        · exact hleft.trans (ih _)
        · rename_i hnone
          refine (hleft.trans (State.issueHead_given fun r hr => .inl ?_)).trans (ih _)
          have hr' : (s.mru.pos x).queue.head? = some r := hr
          simpa [hr'] using hnone
    · exact .refl s

theorem State.decideAfterFree_given (x : Nat) (s : State) : s.TagsGiven (s.decideAfterFree x) :=
  (s.issueDecision_given x).trans (State.decideAll_given _)

theorem State.endWith_given (x : Nat) (report : State → State) (s : State) : (report s).TagsGiven (s.endWith x report) :=
  (State.serveTagWaitFuel_given _ _).trans (State.decideAfterFree_given x _)

/-! ## The records of MRU (R134) -/

theorem Mru.pos_eq_getElem {m : Mru} {i : Nat} (h : i < m.positions.length) : m.pos i = m.positions[i] :=
  List.getD_eq_getElem _ _ h

theorem Mru.pos_eq_reset {m : Mru} {i : Nat} (h : m.positions.length ≤ i) : m.pos i = PosState.reset :=
  List.getD_eq_default _ _ h

/-- A record is that of a request at some position, or quarantined. -/
theorem Mru.mem_records {m : Mru} {q : Request} : q ∈ m.records ↔ (∃ y, q ∈ (m.pos y).live) ∨ q ∈ m.quarantined := by
  rw [Mru.records, List.mem_append, List.mem_flatMap]
  refine or_congr_left ⟨fun ⟨p, hp, hq⟩ => ?_, fun ⟨y, hq⟩ => ?_⟩
  · obtain ⟨i, hi, rfl⟩ := List.mem_iff_getElem.1 hp
    exact ⟨i, by rwa [Mru.pos_eq_getElem hi]⟩
  · by_cases hy : y < m.positions.length
    · exact ⟨m.pos y, by rw [Mru.pos_eq_getElem hy]; exact List.getElem_mem hy, hq⟩
    · rw [Mru.pos_eq_reset (Nat.not_lt.1 hy)] at hq
      exact absurd hq List.not_mem_nil

/-- The records issues leave: as many as before, each that of a request that was there, with a tag it had or was given. -/
theorem State.Issued.records {s t : State} (h : s.Issued t) (hgiven : s.TagsGiven t) :
    t.mru.records.length = s.mru.records.length ∧ ∀ q ∈ t.mru.records, ∃ q' ∈ s.mru.records, q'.Given q := by
  constructor
  · have hpositions : t.mru.positions.map (fun p => p.live.length) = s.mru.positions.map fun p => p.live.length := by
      refine List.ext_getElem (by simp [h.length]) fun i hi hi' => ?_
      rw [List.length_map] at hi hi'
      rw [List.getElem_map, List.getElem_map, ← Mru.pos_eq_getElem hi, ← Mru.pos_eq_getElem hi']
      exact (hgiven i).length_live
    have hlength (m : Mru) : m.records.length = (m.positions.map fun p => p.live.length).sum + m.quarantined.length := by
      rw [Mru.records, List.length_append, List.length_flatMap]
      rfl
    rw [hlength, hlength, hpositions, h.quarantined]
  · intro q hq
    rcases Mru.mem_records.1 hq with ⟨y, hq⟩ | hq
    · obtain ⟨q', hq', hg⟩ := (hgiven y).origin hq
      exact ⟨q', Mru.mem_records.2 (.inl ⟨y, hq'⟩), hg⟩
    · rw [h.quarantined] at hq
      exact ⟨q, Mru.mem_records.2 (.inr hq), .refl q⟩

/-! ## A request that leaves the outstanding set (R142) -/

/-- Requests that leave one position leave the records. -/
theorem Mru.records_updPos {m : Mru} {x : Nat} {f : PosState → PosState} {gone : List Request} (hx : x < m.positions.length)
    (h : (m.pos x).live.Perm (gone ++ (f (m.pos x)).live)) : m.records.Perm (gone ++ (m.updPos x f).records) := by
  obtain ⟨before, behind, hsplit, -, hset⟩ := List.exists_of_set (a' := f (m.pos x)) hx
  rw [← Mru.pos_eq_getElem hx] at hsplit
  have hflat (l : List PosState) : (l.flatMap fun p => p.queue ++ p.outstanding) = l.flatMap PosState.live := rfl
  rw [Mru.records, Mru.records, Mru.updPos, hset, hflat, hflat]
  conv_lhs => rw [hsplit]
  simp only [List.flatMap_append, List.flatMap_cons, List.append_assoc]
  refine ((h.append_right _).append_left _).trans ?_
  rw [List.append_assoc]
  exact List.perm_append_comm_assoc _ _ _

/-- Of requests with different tags, the one with the tag and the others. -/
theorem perm_cons_filter_tag {l : List Request} (honce : (l.filterMap (·.tag)).Nodup) {r : Request} {tag : Nat} (hr : r ∈ l)
    (htag : r.tag = some tag) : l.Perm (r :: l.filter fun q => q.tag != some tag) := by
  induction l with
  | nil => exact absurd hr List.not_mem_nil
  | cons q rest ih =>
    by_cases hq : q.tag = some tag
    · rw [List.filterMap_cons_some hq] at honce
      obtain ⟨hnew, -⟩ := List.nodup_cons.1 honce
      have hother : ∀ q' ∈ rest, q'.tag ≠ some tag := fun q' hq' h => hnew (List.mem_filterMap.2 ⟨q', hq', h⟩)
      have hfilter : (rest.filter fun q' => q'.tag != some tag) = rest :=
        List.filter_eq_self.2 fun q' hq' => bne_iff_ne.2 (hother q' hq')
      obtain rfl : r = q := (List.mem_cons.1 hr).resolve_right fun h => hother r h htag
      rw [List.filter_cons_of_neg (by simp [htag]), hfilter]
    · have hrest : r ∈ rest := (List.mem_cons.1 hr).resolve_left fun h => hq (h ▸ htag)
      rw [List.filter_cons_of_pos (by simpa using hq)]
      refine ((ih (honce.sublist ?_) hrest).cons q).trans (.swap r q _)
      exact (List.sublist_cons_self q rest).filterMap _

theorem Mru.mem_outstanding_of_find {m : Mru} {tag : Nat} {r : Request} (h : m.findOutstanding tag = some r) :
    r.tag = some tag ∧ ∃ y, y < m.positions.length ∧ r ∈ (m.pos y).outstanding := by
  obtain ⟨p, hp, hr⟩ := List.mem_flatMap.1 (List.mem_of_find?_eq_some h)
  obtain ⟨i, hi, rfl⟩ := List.mem_iff_getElem.1 hp
  refine ⟨by simpa using List.find?_some h, i, hi, ?_⟩
  rwa [Mru.pos_eq_getElem hi]

/-- An OUTSTANDING request that leaves takes its record and no other with it. -/
theorem State.leaveOutstanding_records {s : State} {tag : Nat} {r : Request} (h : s.TagsHeldOnce)
    (hr : s.mru.findOutstanding tag = some r) :
    s.mru.records.Perm (r :: (s.leaveOutstanding r.position tag).mru.records) := by
  obtain ⟨-, hnamed, honce⟩ := h
  obtain ⟨htag, y, hy, hmem⟩ := Mru.mem_outstanding_of_find hr
  obtain rfl : r.position = y := hnamed y r (List.mem_append_right _ hmem)
  have hsub : (s.mru.pos r.position).outstanding.Sublist s.mru.records := by
    have hin : s.mru.pos r.position ∈ s.mru.positions := by
      rw [Mru.pos_eq_getElem hy]
      exact List.getElem_mem hy
    have hflat := (List.singleton_sublist.2 hin).flatMap fun p => p.queue ++ p.outstanding
    rw [List.flatMap_singleton] at hflat
    exact ((List.sublist_append_right _ _).trans hflat).trans (List.sublist_append_left _ _)
  have hperm := perm_cons_filter_tag (honce.sublist (hsub.filterMap _)) hmem htag
  exact Mru.records_updPos (gone := [r]) hy ((hperm.append_left _).trans (List.perm_middle))

/-! ## A write that has left the outstanding set -/

/-- A write has left the outstanding set at the beginning of an event; its position's timeout count is `count`. -/
structure State.WriteLeft (r : Request) (tag count : Nat) (s v : State) : Prop where
  only : ∃ m, v = { s with mru := m, sent := [] }
  length : v.mru.positions.length = s.mru.positions.length
  quarantined : v.mru.quarantined = s.mru.quarantined
  outstanding : (v.mru.pos r.position).outstanding = (s.mru.pos r.position).outstanding.filter fun q => q.tag != some tag
  queue : (v.mru.pos r.position).queue = (s.mru.pos r.position).queue
  timeouts : (v.mru.pos r.position).timeouts = count
  records : s.TagsHeldOnce → s.mru.records.Perm (r :: v.mru.records)

theorem State.leaveOutstanding_writeLeft {s : State} {tag : Nat} {r : Request} (hr : s.mru.findOutstanding tag = some r)
    (hx : r.position < s.mru.positions.length) :
    State.WriteLeft r tag (s.mru.pos r.position).timeouts s (s.beginEvent.leaveOutstanding r.position tag) := by
  have hpos : (s.beginEvent.leaveOutstanding r.position tag).mru.pos r.position = _ :=
    Mru.pos_updPos_self (m := s.mru) hx fun p => { p with outstanding := p.outstanding.filter fun q => q.tag != some tag }
  refine ⟨⟨_, rfl⟩, Mru.length_updPos _ _ _, rfl, ?_, ?_, ?_, fun h => State.leaveOutstanding_records h hr⟩
  all_goals rw [hpos]

theorem State.WriteLeft.setTimeouts {r : Request} {tag count : Nat} {s v : State} (h : State.WriteLeft r tag count s v)
    (hx : r.position < s.mru.positions.length) (count' : Nat) :
    State.WriteLeft r tag count' s (v.setTimeouts r.position count') := by
  rw [← h.length] at hx
  have hpos : (v.setTimeouts r.position count').mru.pos r.position = _ :=
    Mru.pos_updPos_self (m := v.mru) hx fun p => { p with timeouts := count' }
  refine ⟨?_, (Mru.length_updPos _ _ _).trans h.length, h.quarantined, ?_, ?_, ?_, fun ht => (h.records ht).trans ?_⟩
  · obtain ⟨m, rfl⟩ := h.only
    exact ⟨_, rfl⟩
  · rw [hpos]
    exact h.outstanding
  · rw [hpos]
    exact h.queue
  · rw [hpos]
  · exact (Mru.records_updPos (gone := []) hx (.refl _)).cons r

section WriteLeft

variable {r : Request} {tag count : Nat} {s v t : State}

/-- No record that is left carries the tag of the request that has left. -/
theorem State.WriteLeft.tag_free (h : State.WriteLeft r tag count s v) (htag : r.tag = some tag) (ht : s.TagsHeldOnce) :
    ∀ q ∈ v.mru.records, q ∈ s.mru.records ∧ q.tag ≠ some tag := by
  have hperm := h.records ht
  obtain ⟨-, -, honce⟩ := ht
  have hnodup := (hperm.filterMap (·.tag)).nodup_iff.1 honce
  rw [List.filterMap_cons_some htag] at hnodup
  refine fun q hq => ⟨hperm.mem_iff.2 (List.mem_cons_of_mem _ hq), fun hqt => ?_⟩
  exact (List.nodup_cons.1 hnodup).1 (List.mem_filterMap.2 ⟨q, hq, hqt⟩)

/-- Whatever is issued once its settlement has been reported, the request is gone with its tag (R143). -/
theorem State.WriteLeft.requestEnded (h : State.WriteLeft r tag count s v) (htag : r.tag = some tag) {w : State}
    (hissued : w.Issued t) (hgiven : w.TagsGiven t) (hw : w.mru = v.mru) (ht : s.TagsHeldOnce) : RequestEnded s t tag := by
  obtain ⟨hlength, horigin⟩ := hissued.records hgiven
  rw [hw] at hlength horigin
  refine ⟨?_, fun q hq hqt => ?_⟩
  · rw [hlength, (h.records ht).length_eq, List.length_cons]
  · obtain ⟨q', hq', hwork, htag'⟩ := horigin q hq
    obtain ⟨hin, hne⟩ := h.tag_free htag ht q' hq'
    exact ⟨q', hin, htag'.resolve_right fun he => hne (he ▸ hqt), hwork.symm⟩

end WriteLeft

end Sys2Proof.Machine
end

section
/-! A write to the spare: completed, sent again, or the end of the session (R123, R143, R145, R146). -/

namespace Sys2Proof.Machine

section Outcomes

variable {r : Request} {tag count : Nat} {s v : State}

/-! ## Completed (R123, R143) -/

/-- A write of a lane in WRITING that is not its last is counted (R123). -/
theorem State.settleWrite_counted {n : Fin 4} (hstage : s.lanes[n].stage = .writing) (hleft : 2 ≤ s.lanes[n].outstanding) :
    s.settleWrite n = s.updLane n fun l => { l with outstanding := l.outstanding - 1 } := by
  rw [State.settleWrite, if_pos hstage]
  refine if_neg fun h => ?_
  rw [State.updLane_get_self] at h
  dsimp only at h
  omega

theorem State.WriteLeft.completed {n : Fin 4} (h : State.WriteLeft r tag 0 s v) (htag : r.tag = some tag)
    (hk : r.kind.isWrite = true) (ho : r.owner = some (.lane n)) (hstage : s.lanes[n].stage = .writing)
    (hleft : 2 ≤ s.lanes[n].outstanding) :
    let t := v.endWith r.position (State.settle r .good)
    BlocksKept s t ∧ EventsKept s t ∧ t.lanes[n] = { s.lanes[n] with outstanding := s.lanes[n].outstanding - 1 } ∧
      (∀ m : Fin 4, m ≠ n → t.lanes[m] = s.lanes[m]) ∧ t.mem = s.mem ∧ t.rcd = s.rcd ∧
      (t.mru.pos r.position).timeouts = 0 ∧ (s.TagsHeldOnce → RequestEnded s t tag) := by
  intro t
  have hlanes : v.lanes = s.lanes := by
    obtain ⟨m, rfl⟩ := h.only
    rfl
  have hsettle : v.settle r .good = v.updLane n fun l => { l with outstanding := l.outstanding - 1 } := by
    rw [State.settle_write hk ho, State.settleWrite_counted (by rw [hlanes, hstage]) (by rw [hlanes]; exact hleft)]
  have hissued : (v.settle r .good).Issued t := State.endWith_issued _ _ _
  have hgiven : (v.settle r .good).TagsGiven t := State.endWith_given _ _ _
  rw [hsettle] at hissued hgiven
  have hended := h.requestEnded htag hissued hgiven rfl
  have htimeouts : (t.mru.pos r.position).timeouts = 0 := (hissued.timeouts r.position).trans h.timeouts
  generalize t = t at hissued hended htimeouts
  obtain ⟨m, hv⟩ := h.only
  obtain ⟨m', o, ht⟩ := hissued.only
  have htlanes : t.lanes = (s.updLane n fun l => { l with outstanding := l.outstanding - 1 }).lanes := by
    rw [ht, hv]
    rfl
  refine ⟨?_, ?_, ?_, fun m hm => ?_, ?_, ?_, htimeouts, hended⟩
  · rw [ht, hv]
    exact ⟨rfl, rfl, rfl, rfl, rfl, rfl, rfl, rfl, rfl, rfl, rfl, rfl, rfl, rfl⟩
  · rw [ht, hv]
    exact .of_mgp rfl
  · rw [htlanes, State.updLane_get_self]
  · rw [htlanes, State.updLane_get_other (Ne.symm hm)]
  · rw [ht, hv]
    rfl
  · rw [ht, hv]
    rfl

/-! ## Sent again (R145, R146) -/

/-- A write put back at the head of its position's queue stands there or has been issued again, with its tag (R137). -/
theorem State.WriteLeft.resent (h : State.WriteLeft r tag count s v) (hx : r.position < s.mru.positions.length)
    {again : Request} (hposition : again.position = r.position) (htag : again.tag = some tag) :
    let t := (v.requeueHead again).issueDecision r.position
    RequestResent s t r again tag ∧ t.mem = s.mem ∧ t.mru.quarantined = s.mru.quarantined ∧
      (t.mru.pos r.position).timeouts = count := by
  intro t
  have hissued : (v.requeueHead again).Issued t := (State.issueDecision_issuedAt _ _).issued
  have hgiven : (v.requeueHead again).TagsGiven t := State.issueDecision_given _ _
  have hqueued : (v.requeueHead again).mru.pos r.position =
      { v.mru.pos r.position with queue := { again with deadline := none } :: (v.mru.pos r.position).queue } := by
    rw [← hposition] at hx ⊢
    rw [← h.length] at hx
    exact Mru.pos_updPos_self hx _
  obtain ⟨r', hlive, hwork', htag'⟩ := (hgiven r.position).stays (q := { again with deadline := none }) (by
    rw [hqueued]
    exact List.mem_append_left _ List.mem_cons_self)
  have htag'' : r'.tag = some tag := (htag'.resolve_left (by simp [htag])).trans htag
  have hworks := hissued.works r.position
  have htimeouts := hissued.timeouts r.position
  rw [hqueued] at hworks htimeouts
  have hquarantined : t.mru.quarantined = s.mru.quarantined := hissued.quarantined.trans h.quarantined
  have hframe : ∃ m o, t = { s with mru := m, sent := o } := by
    obtain ⟨m, rfl⟩ := h.only
    exact hissued.only
  refine ⟨⟨?_, ⟨r', hlive, hwork', htag''⟩, ?_⟩, ?_, hquarantined, htimeouts.trans h.timeouts⟩
  · rw [hworks, ← h.outstanding, ← h.queue, PosState.works, List.map_append, List.map_append]
    rfl
  · obtain ⟨m, o, ht⟩ := hframe
    rw [ht]
    exact ⟨⟨rfl, rfl, rfl, rfl, rfl, rfl, rfl, rfl, rfl, rfl, rfl, rfl, rfl, rfl⟩, .of_mgp rfl, rfl, rfl, rfl⟩
  · obtain ⟨m, o, ht⟩ := hframe
    rw [ht]

/-! ## The end of the session (R145, R146) -/

/-- The session has ended because the spare cannot be written, and the tag of the write is free (R40, R145, R146). -/
def SpareUnwritable (s t : State) (tag : Nat) : Prop :=
  t.ses.state = .failed ∧ t.ses.cause = .spareUnwritable ∧ Noted s t (Event.bit .stateChange) ∧ t.rgt = s.rgt ∧
    t.lrl = s.lrl ∧ t.mem = s.mem ∧ t.slk.held = [] ∧ t.slk.waiting = [] ∧ t.holdingOrder = [] ∧
    (s.TagsHeldOnce → TagFreed s t tag) ∧
    ∀ m : Fin 4, t.lanes[m] = if s.lanes[m].batch = none then s.lanes[m] else { Lane.reset with outcome := .abandoned }

/-- At the end of a session the records that are left are quarantined, each with the tag it had (R155). -/
theorem SessionEnded.origin {u e t : State} {new : SessionState} {cause : Cause} (h : SessionEnded u e new cause)
    (hissued : e.Issued t) : ∀ q ∈ t.mru.records, ∃ q' ∈ u.mru.records, q'.tag = q.tag := by
  obtain ⟨-, -, -, -, -, -, -, -, -, -, -, -, -, -, -, -, -, hpositions, -, hquarantined, -⟩ := h
  intro q hq
  rcases Mru.mem_records.1 hq with ⟨y, hq⟩ | hq
  · obtain ⟨hqueue, houtstanding, hexpiry, -⟩ := hpositions y
    rw [hissued.unqueued y hqueue hexpiry, PosState.live, hqueue, houtstanding] at hq
    exact absurd hq List.not_mem_nil
  · rw [hissued.quarantined, hquarantined, List.mem_append] at hq
    rcases hq with hq | hq
    · obtain ⟨q', hq', rfl⟩ := List.mem_map.1 hq
      exact ⟨q', Mru.mem_records.2 (.inr hq'), rfl⟩
    · obtain ⟨q', hq', rfl⟩ := List.mem_map.1 hq
      obtain ⟨p, hp, hin⟩ := List.mem_flatMap.1 hq'
      exact ⟨q', List.mem_append_left _ (List.mem_flatMap.2 ⟨p, hp, List.mem_append_right _ hin⟩), rfl⟩

theorem State.WriteLeft.failed (h : State.WriteLeft r tag count s v) (htag : r.tag = some tag) :
    SpareUnwritable s (v.endWith r.position (State.endSession .failed .spareUnwritable)) tag := by
  have hissued := State.endWith_issued r.position (State.endSession .failed .spareUnwritable) v
  have hended := v.endSession_ended .failed .spareUnwritable
  have hnoted := v.endSession_noted .failed .spareUnwritable
  generalize v.endWith r.position (State.endSession .failed .spareUnwritable) = t at *
  generalize v.endSession .failed .spareUnwritable = e at *
  have horigin := hended.origin hissued
  obtain ⟨hstate, hcause, -, -, hlanes, hholding, hheld, hwaiting, -, -, -, hrgt, hlrl, -, -, -, -, -, -, -, hmem, -⟩ := hended
  have hfreed : s.TagsHeldOnce → TagFreed s t tag := fun hs q hq hqt => by
    obtain ⟨q', hq', htag'⟩ := horigin q hq
    exact absurd (htag'.trans hqt) (h.tag_free htag hs q' hq').2
  have hevents : EventsKept s v := by
    obtain ⟨m, rfl⟩ := h.only
    exact .of_mgp rfl
  have hsame : v.rgt = s.rgt ∧ v.lrl = s.lrl ∧ v.mem = s.mem ∧ v.lanes = s.lanes := by
    obtain ⟨m, rfl⟩ := h.only
    exact ⟨rfl, rfl, rfl, rfl⟩
  obtain ⟨hvrgt, hvlrl, hvmem, hvlanes⟩ := hsame
  rw [hvlanes] at hlanes
  have hnoted' := (Noted.after hevents hnoted).before (.of_mgp hissued.mgp)
  obtain ⟨m, o, rfl⟩ := hissued.only
  exact ⟨hstate, hcause, hnoted', hrgt.trans hvrgt, hlrl.trans hvlrl, hmem.trans hvmem, hheld, hwaiting, hholding, hfreed, hlanes⟩

end Outcomes

/-! ## The completion of a write (R142 to R146) -/

section Completion

variable {s : State} {r : Request} {tag : Byte} (hr : s.mru.findOutstanding tag.toNat = some r)
  (hk : r.kind.isWrite = true) (hx : r.position < s.mru.positions.length) (position : Byte) (mask : Mask) (data : List Byte)

include hr hk hx

/-- GOOD reports the write to its owner (R143). -/
theorem exec_writeGood : ∃ v, State.WriteLeft r tag.toNat 0 s v ∧
    exec (.completion tag 1 position (bytes64 mask) data) s = .next (v.endWith r.position (State.settle r .good)) := by
  refine ⟨_, (State.leaveOutstanding_writeLeft hr hx).setTimeouts hx 0, ?_⟩
  rw [exec_completion, State.takeCompletion_of_outstanding (s := s.beginEvent) (st := .good) rfl hr,
    State.landData_of_write hk]
  rfl

/-- MEDIUM sends the write again, and fails the session at the second (R145). -/
theorem exec_writeMedium : ∃ v, State.WriteLeft r tag.toNat 0 s v ∧
    exec (.completion tag 2 position (bytes64 mask) data) s =
      .next (if r.rewritten then v.endWith r.position (State.endSession .failed .spareUnwritable)
        else (v.requeueHead { r with rewritten := true }).issueDecision r.position) := by
  refine ⟨_, (State.leaveOutstanding_writeLeft hr hx).setTimeouts hx 0, ?_⟩
  rw [exec_completion, State.takeCompletion_of_outstanding (s := s.beginEvent) (st := .medium) rfl hr,
    State.landData_of_write hk, State.completeRequest, State.completeMedium, hk]
  rfl

/-- DEFER sends the write again while retries are left, and fails the session otherwise (R146). -/
theorem exec_writeDefer : ∃ v, State.WriteLeft r tag.toNat (s.mru.pos r.position).timeouts s v ∧
    exec (.completion tag 3 position (bytes64 mask) data) s =
      .next (if r.defers < 7 then (v.requeueHead { r with defers := r.defers + 1 }).issueDecision r.position
        else v.endWith r.position (State.endSession .failed .spareUnwritable)) := by
  refine ⟨_, State.leaveOutstanding_writeLeft hr hx, ?_⟩
  rw [exec_completion, State.takeCompletion_of_outstanding (s := s.beginEvent) (st := .defer) rfl hr,
    State.landData_of_write hk, State.completeRequest, State.completeDefer, hk]
  rfl

end Completion

/-- Settles O45: by the status, with what GOOD, another try and the end of the session each leave of a write that has left MRU. -/
theorem spareWriteCompletesOrFails : Obligations.SpareWriteCompletesOrFails := by
  intro tag status position mask data s r n hr hkind hposition hlength done resent failed
  have hk : r.kind.isWrite = true := by
    rcases hkind with ⟨hk, -⟩ | ⟨hk, -⟩
    · rw [hk]
      rfl
    · rw [hk]
      rfl
  have hx : r.position < s.mru.positions.length := by rwa [hlength]
  have htag : r.tag = some tag.toNat := (Mru.mem_outstanding_of_find hr).1
  refine ⟨?_, ?_, ?_, ?_, ?_⟩
  · rintro rfl hwrite hstage hleft
    have ho : r.owner = some (.lane n) := by
      rcases hkind with ⟨-, ho⟩ | ⟨hk, -⟩
      · exact ho
      · rw [hwrite] at hk
        cases hk
    obtain ⟨v, hv, hexec⟩ := exec_writeGood hr hk hx position mask data
    exact ⟨_, hexec, hv.completed htag hk ho hstage hleft⟩
  · rintro rfl hfirst
    obtain ⟨v, hv, hexec⟩ := exec_writeMedium hr hk hx position mask data
    rw [if_neg (Bool.eq_false_iff.1 hfirst)] at hexec
    exact ⟨_, hexec, hv.resent hx rfl htag⟩
  · rintro rfl hsecond
    obtain ⟨v, hv, hexec⟩ := exec_writeMedium hr hk hx position mask data
    rw [if_pos hsecond] at hexec
    exact ⟨_, hexec, hv.failed htag⟩
  · rintro rfl hretries
    obtain ⟨v, hv, hexec⟩ := exec_writeDefer hr hk hx position mask data
    rw [if_pos hretries] at hexec
    exact ⟨_, hexec, hv.resent hx rfl htag⟩
  · rintro rfl hretries
    obtain ⟨v, hv, hexec⟩ := exec_writeDefer hr hk hx position mask data
    rw [if_neg (Nat.not_lt.2 hretries)] at hexec
    exact ⟨_, hexec, hv.failed htag⟩

end Sys2Proof.Machine
end
section
/-! What an issue decision and the service of the tag wait order can do, said once, without the fuel of the model (R135, R138 to
R140): what follows is proved by going through these cases. -/

namespace Sys2Proof.Machine

/-! ## One position -/

/-- A position whose queue is not empty is one of MRU's. -/
theorem Mru.lt_of_queue {m : Mru} {x : Nat} {r : Request} {rest : List Request} (h : (m.pos x).queue = r :: rest) :
    x < m.positions.length := by
  by_contra hx
  rw [Mru.pos_eq_reset (Nat.not_lt.1 hx)] at h
  cases h

/-- The head of a queue as it is issued with the tag (R138). -/
def State.issuedAs (s : State) (r : Request) (tag : Nat) : Request :=
  { r with tag := some tag, deadline := some (s.now + s.mru.timeout) }

/-- A position that has issued its head. -/
def PosState.issue (p : PosState) (issued : Request) (rest : List Request) (now : Nat) : PosState :=
  { p with
    queue := rest
    outstanding := p.outstanding ++ [issued]
    history := (now :: p.history).take 32
    expiry := if rest = [] then none else p.expiry }

theorem State.issueHead_of_cons {s : State} {x : Nat} {r : Request} {rest : List Request}
    (h : (s.mru.pos x).queue = r :: rest) (tag : Nat) :
    s.issueHead x tag = { s with
      mru := { s.mru with
        positions := s.mru.positions.set x ((s.mru.pos x).issue (s.issuedAs r tag) rest s.now)
        tagWait := s.mru.tagWait.erase x }
      sent := s.sent ++ [.memberRequest ((s.issuedAs r tag).bytes tag)] } := by
  have hempty : (if rest.isEmpty then none else (s.mru.pos x).expiry) = if rest = [] then none else (s.mru.pos x).expiry :=
    if_congr List.isEmpty_iff rfl rfl
  unfold State.issueHead
  rw [h]
  dsimp only [State.updPos, State.updMru, Mru.updPos, State.emit]
  rw [hempty]
  rfl

/-- The position that issues its head. -/
theorem State.issueHead_pos {s : State} {x : Nat} {r : Request} {rest : List Request}
    (h : (s.mru.pos x).queue = r :: rest) (tag : Nat) :
    (s.issueHead x tag).mru.pos x = (s.mru.pos x).issue (s.issuedAs r tag) rest s.now := by
  rw [State.issueHead_of_cons h]
  exact Mru.pos_updPos_self (Mru.lt_of_queue h) fun p => p.issue (s.issuedAs r tag) rest s.now

theorem State.issueHead_other {x y : Nat} (h : y ≠ x) (tag : Nat) (s : State) :
    (s.issueHead x tag).mru.pos y = s.mru.pos y := (s.issueHead_issuedAt x tag).others y h

/-! ## Conditions 1 and 2 of R138, and the tags on offer -/

theorem State.mayIssue_of_not {s : State} {x : Nat} (hroom : ¬(!s.mru.hasRoom x) = true)
    (hpace : ¬(!s.mru.inPace s.now x) = true) : s.MayIssue x := by
  rw [State.mayIssue_iff]
  simpa using And.intro hroom hpace

/-- A head that a decision may issue with the tag: its own, or one on offer (R135, R139). -/
def State.HeadTag (s : State) (r : Request) (tag : Nat) : Prop :=
  r.tag = some tag ∨ (r.tag = none ∧ s.mru.tagWait = [] ∧ s.LowestFree tag)

theorem Mru.offeredTag_eq_some {s : State} {k : Nat} : s.mru.offeredTag = some k ↔ s.mru.tagWait = [] ∧ s.LowestFree k := by
  by_cases h : s.mru.tagWait = []
  · rw [Mru.offeredTag_of_nil _ h, Mru.lowestFreeTag_eq_some]
    exact ⟨fun hk => ⟨h, hk⟩, fun hk => hk.2⟩
  · rw [Mru.offeredTag_of_waiting _ h]
    exact ⟨fun hk => absurd hk (by simp), fun hk => absurd hk.1 h⟩

theorem Mru.offeredTag_eq_none {s : State} : s.mru.offeredTag = none ↔ s.mru.tagWait ≠ [] ∨ s.NoTagFree := by
  by_cases h : s.mru.tagWait = []
  · rw [Mru.offeredTag_of_nil _ h, Mru.lowestFreeTag_eq_none]
    exact ⟨.inr, fun hk => hk.resolve_left (absurd h)⟩
  · rw [Mru.offeredTag_of_waiting _ h]
    exact ⟨fun _ => .inl h, fun _ => rfl⟩

/-- What a decision finds in `s`: a head held back by pacing gets a new expiry. -/
def State.paced (x : Nat) (s : State) : State := (s.leaveTagWait x).setExpiry x (some (s.mru.paceTime x))

/-- A head held back by pacing lacks nothing else: it has a tag, or one is on offer once the position has left the order (R140). -/
def State.TagAtHand (s : State) (x : Nat) (r : Request) : Prop :=
  r.tag ≠ none ∨ (s.mru.tagWait.erase x = [] ∧ ¬s.NoTagFree)

/-! ## An issue decision (R138 to R140) -/

/-- What an issue decision for x can make of `s`: heads are issued while they may be, and then the position has an empty queue, no
room, no pace, or no tag. -/
inductive State.Decided (x : Nat) : State → State → Prop
  | emptied {s : State} (hq : (s.mru.pos x).queue = []) : State.Decided x s ((s.leaveTagWait x).setExpiry x none)
  | full {s : State} {r : Request} {rest : List Request} (hq : (s.mru.pos x).queue = r :: rest)
      (hroom : 4 ≤ (s.mru.pos x).outstanding.length) : State.Decided x s (s.leaveTagWait x)
  | paced {s : State} {r : Request} {rest : List Request} (hq : (s.mru.pos x).queue = r :: rest)
      (hroom : (s.mru.pos x).outstanding.length < 4) (hpace : s.mru.paceLimit ≤ s.mru.recentIssues s.now x)
      (htag : s.TagAtHand x r) : State.Decided x s (s.paced x)
  | pacedTagless {s : State} {r : Request} {rest : List Request} (hq : (s.mru.pos x).queue = r :: rest)
      (hroom : (s.mru.pos x).outstanding.length < 4) (hpace : s.mru.paceLimit ≤ s.mru.recentIssues s.now x)
      (htag : ¬s.TagAtHand x r) : State.Decided x s (s.leaveTagWait x)
  | waits {s : State} {r : Request} {rest : List Request} (hq : (s.mru.pos x).queue = r :: rest) (hmay : s.MayIssue x)
      (htag : r.tag = none) (hnone : s.mru.tagWait ≠ [] ∨ s.NoTagFree) : State.Decided x s (s.joinTagWait x)
  | issues {s t : State} {r : Request} {rest : List Request} {tag : Nat} (hq : (s.mru.pos x).queue = r :: rest)
      (hmay : s.MayIssue x) (htag : s.HeadTag r tag) (h : State.Decided x (s.issueHead x tag) t) : State.Decided x s t

theorem State.tagAtHand_iff {s : State} {x : Nat} {r : Request} :
    (r.tag.isSome || (s.leaveTagWait x).mru.offeredTag.isSome) = true ↔ s.TagAtHand x r := by
  have hoffer : (s.leaveTagWait x).mru.offeredTag.isSome = true ↔ s.mru.tagWait.erase x = [] ∧ ¬s.NoTagFree := by
    rw [← not_iff_not, Bool.not_eq_true, Option.isSome_eq_false_iff, Option.isNone_iff_eq_none, Mru.offeredTag_eq_none,
      not_and_or, not_not]
    rfl
  rw [Bool.or_eq_true, hoffer, Option.isSome_iff_ne_none]
  rfl

/-- The fuel of a decision suffices: each issue takes one of the places that R138 leaves. -/
theorem State.issueFuel_decided {fuel x : Nat} {s : State} (h : 4 < fuel + (s.mru.pos x).outstanding.length) (h0 : 0 < fuel) :
    State.Decided x s (s.issueFuel fuel x) := by
  induction fuel generalizing s with
  | zero => exact absurd h0 (Nat.lt_irrefl 0)
  | succ fuel ih =>
    have issued {r : Request} {rest : List Request} {tag : Nat} (hq : (s.mru.pos x).queue = r :: rest) (hmay : s.MayIssue x)
        (htag : s.HeadTag r tag) : State.Decided x s ((s.issueHead x tag).issueFuel fuel x) := by
      refine .issues hq hmay htag (ih ?_ ?_)
      · rw [State.issueHead_pos hq]
        simp only [PosState.issue, List.length_append, List.length_singleton]
        omega
      · have := hmay.1
        omega
    simp only [State.issueFuel]
    split
    · rename_i hq
      exact .emptied hq
    · rename_i r rest hq
      split
      · rename_i hroom
        exact .full hq (by simpa [Mru.hasRoom] using hroom)
      · rename_i hroom
        have hlt : (s.mru.pos x).outstanding.length < 4 := by simpa [Mru.hasRoom] using hroom
        split
        · rename_i hpace
          have hle : s.mru.paceLimit ≤ s.mru.recentIssues s.now x := by simpa [Mru.inPace] using hpace
          split
          · rename_i htag
            exact .paced hq hlt hle (State.tagAtHand_iff.1 htag)
          · rename_i htag
            exact .pacedTagless hq hlt hle (mt State.tagAtHand_iff.2 htag)
        · rename_i hpace
          have hmay := State.mayIssue_of_not hroom hpace
          split
          · rename_i tag htag
            exact issued hq hmay (.inl htag)
          · rename_i htag
            split
            · rename_i tag hoffer
              exact issued hq hmay (.inr ⟨htag, Mru.offeredTag_eq_some.1 hoffer⟩)
            · rename_i hoffer
              exact .waits hq hmay htag (Mru.offeredTag_eq_none.1 hoffer)

theorem State.issueDecision_decided (x : Nat) (s : State) : State.Decided x s (s.issueDecision x) :=
  State.issueFuel_decided (by omega) (by omega)

/-! ## The tag wait order (R139) -/

/-- The head of x's queue may take a free tag: it has none, and conditions 1 and 2 of R138 are met. -/
def State.WantsTag (s : State) (x : Nat) : Prop := (∃ r rest, (s.mru.pos x).queue = r :: rest ∧ r.tag = none) ∧ s.MayIssue x

/-- What the service of the tag wait order can make of `s`: the oldest position issues its head or leaves the order, until no tag
is free or nobody waits. -/
inductive State.Served : State → State → Prop
  | done {s : State} (h : s.TagOrderServed) : State.Served s s
  | skips {s t : State} {x tag : Nat} {order : List Nat} (ho : s.mru.tagWait = x :: order) (hfree : s.LowestFree tag)
      (hwant : ¬s.WantsTag x) (h : State.Served (s.leaveTagWait x) t) : State.Served s t
  | issues {s t : State} {x tag : Nat} {order : List Nat} (ho : s.mru.tagWait = x :: order) (hfree : s.LowestFree tag)
      (hwant : s.WantsTag x) (h : State.Served ((s.leaveTagWait x).issueHead x tag) t) : State.Served s t

theorem State.issueHead_tagWait_length_le (x tag : Nat) (s : State) :
    (s.issueHead x tag).mru.tagWait.length ≤ s.mru.tagWait.length := by
  unfold State.issueHead
  split
  · exact Nat.le_refl _
  · exact List.length_erase_le

/-- The tests of the service decide whether the oldest position wants the tag. -/
theorem State.wantsTag_iff {s : State} {x : Nat} :
    s.WantsTag x ↔ ((s.mru.pos x).queue.isEmpty || !s.mru.hasRoom x || !s.mru.inPace s.now x) = false ∧
      ((s.mru.pos x).queue.head?.bind (·.tag)).isSome = false := by
  rw [State.WantsTag, State.mayIssue_iff]
  cases (s.mru.pos x).queue with
  | nil => simp
  | cons r rest =>
    simp only [List.cons.injEq, List.isEmpty_cons, Bool.false_or, Bool.or_eq_false_iff, Bool.not_eq_false', List.head?_cons,
      Option.bind_some, Option.isSome_eq_false_iff, Option.isNone_iff_eq_none]
    constructor
    · rintro ⟨⟨r', rest', ⟨rfl, -⟩, htag⟩, hmay⟩
      exact ⟨hmay, htag⟩
    · rintro ⟨hmay, htag⟩
      exact ⟨⟨r, rest, ⟨rfl, rfl⟩, htag⟩, hmay⟩

/-- The fuel of the service suffices: each turn takes the oldest position out of the order. -/
theorem State.serveTagWaitFuel_served {fuel : Nat} {s : State} (h : s.mru.tagWait.length ≤ fuel) :
    State.Served s (s.serveTagWaitFuel fuel) := by
  induction fuel generalizing s with
  | zero => exact .done (.inl (List.length_eq_zero_iff.1 (Nat.le_zero.1 h)))
  | succ fuel ih =>
    simp only [State.serveTagWaitFuel]
    split
    · rename_i x order tag ho hfree
      rw [Mru.lowestFreeTag_eq_some] at hfree
      have hleft : (s.leaveTagWait x).mru.tagWait.length ≤ fuel := by
        rw [ho] at h
        have : (s.leaveTagWait x).mru.tagWait = order := by simp [State.leaveTagWait, ho]
        rw [this]
        exact Nat.le_of_succ_le_succ h
      split
      · rename_i hno
        refine .skips ho hfree (fun hw => ?_) (ih hleft)
        rw [(State.wantsTag_iff.1 hw).1] at hno
        cases hno
      · rename_i hyes
        split
        · rename_i hno
          refine .skips ho hfree (fun hw => ?_) (ih hleft)
          rw [(State.wantsTag_iff.1 hw).2] at hno
          cases hno
        · rename_i hnone
          refine .issues ho hfree (State.wantsTag_iff.2 ⟨by simpa using hyes, by simpa using hnone⟩) (ih ?_)
          exact (State.issueHead_tagWait_length_le _ _ _).trans hleft
    · rename_i hno
      refine .done ?_
      cases ho : s.mru.tagWait with
      | nil => exact .inl ho
      | cons x order =>
        cases hfree : s.mru.lowestFreeTag with
        | none => exact .inr ((Mru.lowestFreeTag_eq_none s).1 hfree)
        | some tag => exact absurd hfree (hno x order tag ho)

theorem State.serveTagWait_served (s : State) : State.Served s s.serveTagWait := State.serveTagWaitFuel_served (Nat.le_refl _)

end Sys2Proof.Machine
end

section
/-! What lanes, claims and qualification make of MRU: submissions of requests that have no tag yet, one after another (R117, R123,
R136). -/

namespace Sys2Proof.Machine

/-! ## Submissions -/

/-- MRU is that of `s` after submissions of requests without a tag; the time is the same. -/
inductive State.Submits (s : State) : State → Prop
  | refl : s.Submits s
  | submit {u : State} {r : Request} (h : s.Submits u) (hr : r.tag = none) : s.Submits (u.submit r)
  | outside {u v : State} (h : s.Submits u) (hmru : v.mru = u.mru) (hnow : v.now = u.now) : s.Submits v

theorem State.submits_of_same {s t : State} (hmru : t.mru = s.mru) (hnow : t.now = s.now) : s.Submits t :=
  .outside .refl hmru hnow

theorem State.Submits.trans {s t u : State} (h : s.Submits t) (h' : t.Submits u) : s.Submits u := by
  induction h' with
  | refl => exact h
  | submit _ hr ih => exact ih.submit hr
  | outside _ hmru hnow ih => exact ih.outside hmru hnow

/-- A first step that touches neither MRU nor the time. -/
theorem State.Submits.behind {s v t : State} (h : v.Submits t) (hmru : v.mru = s.mru) (hnow : v.now = s.now) : s.Submits t :=
  (State.submits_of_same hmru hnow).trans h

/-- What every submission keeps, and whatever goes by MRU and the time alone keeps, is kept. -/
theorem State.Submits.keeps {P : State → Prop} (hsubmit : ∀ u r, r.tag = none → P u → P (u.submit r))
    (hsame : ∀ u v : State, v.mru = u.mru → v.now = u.now → P u → P v) {s t : State} (h : s.Submits t) (hs : P s) : P t := by
  induction h with
  | refl => exact hs
  | submit _ hr ih => exact hsubmit _ _ hr ih
  | outside _ hmru hnow ih => exact hsame _ _ hmru hnow ih

/-- No request enters or leaves quarantine, no timeout is counted, and no setting changes. -/
theorem State.Submits.kept {s t : State} (h : s.Submits t) :
    t.mru.quarantined = s.mru.quarantined ∧ t.now = s.now ∧ ∀ y, (t.mru.pos y).timeouts = (s.mru.pos y).timeouts := by
  refine h.keeps (P := fun t => t.mru.quarantined = s.mru.quarantined ∧ t.now = s.now ∧
    ∀ y, (t.mru.pos y).timeouts = (s.mru.pos y).timeouts) (fun u r _ ⟨hq, hn, ht⟩ => ?_) (fun u v hmru hnow hu => ?_)
    ⟨rfl, rfl, fun _ => rfl⟩
  · have hr := u.submit_submitted r
    obtain ⟨m, o, only⟩ := hr.only
    exact ⟨hr.quarantined.trans hq, (show (u.submit r).now = u.now by rw [only]).trans hn,
      fun y => (hr.timeouts y).trans (ht y)⟩
  · rwa [hmru, hnow]

theorem State.submitAll_submits {requests : List Request} (h : ∀ r ∈ requests, r.tag = none) (s : State) :
    s.Submits (s.submitAll requests) := by
  unfold State.submitAll
  induction requests generalizing s with
  | nil => exact .refl
  | cons r rest ih =>
    obtain ⟨hr, hrest⟩ := List.forall_mem_cons.1 h
    exact (State.Submits.refl.submit hr).trans (ih hrest _)

/-! ## Locks and lanes -/

theorem State.stripRequests_tag {s : State} {kind : RequestKind} {n : Fin 4} {buf : BufId} {stripe x : Nat} :
    ∀ r ∈ s.stripRequests kind n buf stripe x, r.tag = none := by
  intro r hr
  obtain ⟨e, -, rfl⟩ := List.mem_map.1 hr
  rfl

theorem State.readRequests_tag (s : State) (n : Fin 4) (b : Batch) : ∀ r ∈ s.readRequests n b, r.tag = none := by
  intro r hr
  obtain ⟨i, -, hr⟩ := List.mem_flatMap.1 hr
  obtain ⟨x, -, hr⟩ := List.mem_flatMap.1 hr
  exact State.stripRequests_tag r hr

theorem State.writeRequests_tag (s : State) (n : Fin 4) (b : Batch) : ∀ r ∈ s.writeRequests n b, r.tag = none := by
  intro r hr
  obtain ⟨i, -, hr⟩ := List.mem_flatMap.1 hr
  exact State.stripRequests_tag r hr

theorem State.enterReading_submits (n : Fin 4) (s : State) : s.Submits (s.enterReading n) := by
  unfold State.enterReading
  split
  · exact .refl
  · exact (State.submitAll_submits (s.readRequests_tag n _) _).behind rfl rfl

theorem State.enterWriting_submits (n : Fin 4) (results : List StripeResult) (s : State) :
    s.Submits (s.enterWriting n results) := by
  unfold State.enterWriting
  split
  · exact .refl
  · exact (State.submitAll_submits (s.writeRequests_tag n _) _).behind rfl rfl

theorem State.grantWaiting_submits (e : LockEntry) (s : State) : s.Submits (s.grantWaiting e) := by
  unfold State.grantWaiting
  split
  · exact s.enterReading_submits _
  · exact State.submits_of_same rfl rfl

theorem State.scanFrom_submits (rest kept : List LockEntry) (s : State) : s.Submits (State.scanFrom rest kept s) := by
  induction rest generalizing kept s with
  | nil => exact .refl
  | cons e rest ih =>
    simp only [State.scanFrom]
    split
    · refine State.Submits.trans ?_ (ih _ _)
      exact (State.grantWaiting_submits e _).behind rfl rfl
    · exact ih _ _

theorem State.scanLocks_submits (s : State) : s.Submits s.scanLocks := State.scanFrom_submits _ _ s

theorem State.requestLaneLock_submits (n : Fin 4) (s : State) : s.Submits (s.requestLaneLock n) := by
  unfold State.requestLaneLock
  split
  · exact .refl
  · simp only
    split
    · exact (State.enterReading_submits n _).behind rfl rfl
    · exact State.submits_of_same rfl rfl

/-! ## Buffers and qualification -/

theorem State.beginAttempt_submits (q : QualProgress) (s : State) : s.Submits (s.beginAttempt q) := by
  unfold State.beginAttempt
  split
  · exact State.submits_of_same rfl rfl
  · exact .submit (State.submits_of_same rfl rfl) rfl

theorem State.beginReadBack_submits (q : QualProgress) (s : State) : s.Submits (s.beginReadBack q) := by
  unfold State.beginReadBack
  split
  · exact State.submits_of_same rfl rfl
  · exact .submit (State.submits_of_same rfl rfl) rfl

theorem State.resumeHeldStep_submits (s : State) : s.Submits s.resumeHeldStep := by
  unfold State.resumeHeldStep
  split
  · exact .refl
  · split
    · exact .refl
    · exact s.beginAttempt_submits _
    · exact s.beginReadBack_submits _

theorem State.grantSet_submits (owner : Owner) (bufs : List BufId) (s : State) : s.Submits (s.grantSet owner bufs) := by
  cases owner with
  | lane n => exact (State.requestLaneLock_submits n _).behind rfl rfl
  | qualification =>
    unfold State.grantSet
    simp only
    split
    · exact State.submits_of_same rfl rfl
    · exact (State.beginAttempt_submits _ _).behind rfl rfl

theorem State.grantBuffers_submits (r : BufRequest) (s : State) : s.Submits (s.grantBuffers r) :=
  (State.grantSet_submits _ _ _).behind rfl rfl

theorem State.requestBuffers_submits (r : BufRequest) (s : State) : s.Submits (s.requestBuffers r) := by
  unfold State.requestBuffers
  split
  · exact s.grantBuffers_submits r
  · exact State.submits_of_same rfl rfl

theorem State.scanBuffersFrom_submits (l : List BufRequest) (s : State) : s.Submits (State.scanBuffersFrom l s) := by
  induction l generalizing s with
  | nil => exact .refl
  | cons r rest ih =>
    simp only [State.scanBuffersFrom]
    split
    · refine State.Submits.trans ?_ (ih _)
      exact (State.grantBuffers_submits r _).behind rfl rfl
    · exact .refl

theorem State.scanBuffers_submits (s : State) : s.Submits s.scanBuffers := State.scanBuffersFrom_submits _ s

theorem State.reportQuarantineEnd_submits (s : State) : s.Submits s.reportQuarantineEnd := by
  unfold State.reportQuarantineEnd
  exact ((State.scanBuffers_submits _).trans (State.resumeHeldStep_submits _)).behind rfl rfl

/-! ## Batches -/

theorem State.serveLane_submits {n : Fin 4} {s t : State} (h : s.serveLane n = some t) : s.Submits t := by
  unfold State.serveLane at h
  obtain ⟨x, -, rfl⟩ := Option.map_eq_some_iff.1 h
  exact (State.requestBuffers_submits _ _).behind rfl rfl

theorem State.passOver_submits (l : List (Fin 4)) (s : State) : s.Submits (State.passOver l s) := by
  induction l generalizing s with
  | nil => exact .refl
  | cons n rest ih =>
    simp only [State.passOver]
    split
    · split
      · exact .refl
      · rename_i h
        exact (State.serveLane_submits h).trans (ih _)
    · exact ih _

theorem State.stepPass_submits (s : State) : s.Submits s.stepPass := by
  unfold State.stepPass
  split
  · cases h : s.serveLane 0 with
    | none => exact .refl
    | some t => exact State.serveLane_submits h
  · exact .refl

theorem SessionOnly.submits {s t : State} (h : SessionOnly s t) : s.Submits t := by
  obtain ⟨st, m, rfl⟩ := h
  exact State.submits_of_same rfl rfl

theorem State.batchReported_submits (n : Fin 4) (b : Batch) (s : State) : s.Submits (s.batchReported n b) := by
  have locks : s.Submits (s.giveUpBatch n).scanLocks :=
    (State.scanLocks_submits _).behind rfl rfl
  have buffers (u : State) : u.Submits (u.giveUpBuffers n).scanBuffers :=
    (State.scanBuffers_submits _).behind rfl rfl
  rw [State.batchReported, State.reportBatch_eq]
  exact (locks.trans (buffers _)).outside rfl rfl

theorem State.passAfterBatch_submits (n : Fin 4) (returned : Bool) (s : State) :
    s.Submits (s.passAfterBatch n returned) := by
  unfold State.passAfterBatch
  split
  · split
    · exact State.passOver_submits _ s
    · exact State.passOver_submits _ s
  · exact .refl

theorem State.endBatch_submits (n : Fin 4) (s : State) : s.Submits (s.endBatch n) := by
  cases hb : s.lanes[n].batch with
  | none =>
    rw [State.endBatch, hb]
    exact .refl
  | some b =>
    rw [State.endBatch_eq hb]
    exact ((s.batchReported_submits n b).trans (State.exitTests_session _).submits).trans
      (State.passAfterBatch_submits _ _ _)

theorem State.offerAll_submits (n : Fin 4) (l : List Nat) (s : State) : s.Submits (State.offerAll n l s).1 :=
  State.submits_of_same (s.offerAll_mru n l) (s.offerAll_rebuild n l).2.1

theorem State.enterHolding_submits (n : Fin 4) (s : State) : s.Submits (s.enterHolding n) :=
  State.submits_of_same (s.enterHolding_mru n) (s.enterHolding_rebuild n).2.1

theorem State.enterSettling_submits (n : Fin 4) (s : State) : s.Submits (s.enterSettling n) := by
  have h := (State.submits_of_same (s := s) (t := s.settling n) rfl rfl).trans
    (State.offerAll_submits n s.lanes[n].firstOffers _)
  obtain ⟨v, accepted, hall⟩ : ∃ v a, State.offerAll n s.lanes[n].firstOffers (s.settling n) = (v, a) := ⟨_, _, rfl⟩
  rw [hall] at h
  cases accepted with
  | true =>
    rw [State.enterSettling_of_accepted hall]
    exact h.trans (State.endBatch_submits n _)
  | false =>
    rw [State.enterSettling_of_refused hall]
    exact h.trans (State.enterHolding_submits n _)

theorem State.serveHolders_submits (l : List (Fin 4)) (s : State) : s.Submits (State.serveHolders l s) := by
  induction l generalizing s with
  | nil => exact .refl
  | cons n rest ih =>
    have h := State.offerAll_submits n s.lanes[n].offers s
    simp only [State.serveHolders]
    split
    · rename_i heq
      rw [heq] at h
      refine State.Submits.trans (h.trans ?_) (ih _)
      exact (State.endBatch_submits n _).behind rfl rfl
    · rename_i heq
      rw [heq] at h
      exact h

theorem State.afterRetirement_submits (s : State) : s.Submits s.afterRetirement := State.serveHolders_submits _ s

/-! ## Settlements that do not end the session -/

theorem State.settleRead_submits (n : Fin 4) (r : Request) (o : Settlement) (s : State) :
    s.Submits (s.settleRead n r o) := by
  unfold State.settleRead
  split
  · simp only
    split
    · exact State.submits_of_same rfl rfl
    · exact State.submits_of_same rfl rfl
  · exact .refl

theorem State.settleWrite_submits (n : Fin 4) (s : State) : s.Submits (s.settleWrite n) := by
  unfold State.settleWrite
  split
  · simp only
    split
    · exact (State.enterSettling_submits n _).behind rfl rfl
    · exact State.submits_of_same rfl rfl
  · exact .refl

/-- A settlement reported to a lane (R118, R123). -/
theorem State.settle_submits {r : Request} {n : Fin 4} (h : r.owner = some (.lane n)) (o : Settlement) (s : State) :
    s.Submits (s.settle r o) := by
  unfold State.settle
  rw [h]
  dsimp only
  split
  · exact s.settleWrite_submits n
  · exact s.settleRead_submits n r o

theorem State.finishQualification_submits (s : State) : s.Submits s.finishQualification := by
  have returned : s.Submits ((s.returnSet s.ses.qualSet).updSes fun e => { e with qualSet := [], qualProgress := none }) :=
    State.submits_of_same rfl rfl
  exact (returned.trans (State.scanBuffers_submits _)).trans (State.submits_of_same rfl rfl)

theorem State.takeBlock_submits (n : Fin 4) (s : State) : s.Submits (s.takeBlock n) := by
  unfold State.takeBlock
  split
  · simp only
    split
    · exact State.submits_of_same rfl rfl
    · exact (State.enterWriting_submits n _ _).behind rfl rfl
  · exact .refl

end Sys2Proof.Machine
end

section
/-! The limits of Table 7-2 and the tags (R134, R135, R138, R139), kept by each of MRU's operations: the limits and the tags that
differ on one side, the order of those who wait for a tag on the other, each without the other. -/

namespace Sys2Proof.Machine

/-! ## The tags that request records carry -/

/-- The tags that the requests of a list carry. -/
def tagsOf (l : List Request) : List Nat := l.filterMap (·.tag)

@[simp] theorem tagsOf_append (l l' : List Request) : tagsOf (l ++ l') = tagsOf l ++ tagsOf l' := List.filterMap_append ..

theorem mem_tagsOf {l : List Request} {k : Nat} : k ∈ tagsOf l ↔ ∃ q ∈ l, q.tag = some k := List.mem_filterMap

/-- A change that leaves each tag leaves the list of tags. -/
theorem tagsOf_map {f : Request → Request} (hf : ∀ q, (f q).tag = q.tag) (l : List Request) : tagsOf (l.map f) = tagsOf l := by
  rw [tagsOf, List.filterMap_map]
  exact List.filterMap_congr fun q _ => hf q

theorem tagsOf_perm {l l' : List Request} (h : l.Perm l') : (tagsOf l).Perm (tagsOf l') := h.filterMap _

/-- The records without those of position x. -/
def Mru.others (m : Mru) (x : Nat) : List Request := (m.updPos x fun _ => PosState.reset).records

theorem Mru.records_perm {m : Mru} {x : Nat} (hx : x < m.positions.length) : m.records.Perm ((m.pos x).live ++ m.others x) :=
  Mru.records_updPos hx (by simp [PosState.live, PosState.reset])

theorem Mru.others_updPos (m : Mru) (x : Nat) (f : PosState → PosState) : (m.updPos x f).others x = m.others x := by
  simp [Mru.others, Mru.updPos, Mru.records, List.set_set]

/-- A place beyond MRU's positions is not changed. -/
theorem Mru.updPos_of_le {m : Mru} {x : Nat} (h : m.positions.length ≤ x) (f : PosState → PosState) : m.updPos x f = m := by
  rw [Mru.updPos, List.set_eq_of_length_le h]

/-! ## The limits (Table 7-2) -/

/-- The limits of Table 7-2 at position x, and its records name it. -/
structure PosState.Limited (x : Nat) (p : PosState) : Prop where
  outstanding : p.outstanding.length ≤ 4
  history : p.history.length ≤ 32
  timeouts : p.timeouts ≤ 3
  expiry : p.queue = [] → p.expiry = none
  named : ∀ r ∈ p.live, r.position = x

theorem PosState.limited_reset (x : Nat) : PosState.reset.Limited x :=
  ⟨Nat.zero_le _, Nat.zero_le _, Nat.zero_le _, fun _ => rfl, fun _ hr => absurd hr List.not_mem_nil⟩

/-- MRU keeps to the limits at every position, and no tag is held twice. -/
structure Mru.Limited (m : Mru) : Prop where
  length : m.positions.length = 16
  limited : ∀ x, (m.pos x).Limited x
  once : (tagsOf m.records).Nodup

/-- The limits of all positions, said of the list and said by place. -/
theorem State.limited_iff {s : State} : s.IssueLimits ∧ s.TagsHeldOnce ↔ s.mru.Limited := by
  constructor
  · rintro ⟨hlimits, hlength, hnamed, honce⟩
    refine ⟨hlength, fun x => ?_, honce⟩
    by_cases hx : x < s.mru.positions.length
    · obtain ⟨hout, hhist, htime, hexp⟩ := hlimits (s.mru.pos x) (by rw [Mru.pos_eq_getElem hx]; exact List.getElem_mem hx)
      exact ⟨hout, hhist, htime, hexp, hnamed x⟩
    · rw [Mru.pos_eq_reset (Nat.not_lt.1 hx)]
      exact PosState.limited_reset x
  · rintro ⟨hlength, hlimited, honce⟩
    refine ⟨fun p hp => ?_, hlength, fun x => (hlimited x).named, honce⟩
    obtain ⟨i, hi, rfl⟩ := List.mem_iff_getElem.1 hp
    rw [← Mru.pos_eq_getElem hi]
    exact ⟨(hlimited i).outstanding, (hlimited i).history, (hlimited i).timeouts, (hlimited i).expiry⟩

/-- The limits go by the positions and the quarantine. -/
theorem Mru.Limited.of_same {m m' : Mru} (h : m.Limited) (hpos : m'.positions = m.positions)
    (hq : m'.quarantined = m.quarantined) : m'.Limited := by
  obtain ⟨hlength, hlimited, honce⟩ := h
  exact ⟨by rw [hpos, hlength], fun x => by rw [Mru.pos, hpos]; exact hlimited x, by rwa [Mru.records, hpos, hq]⟩

/-- A position that takes up at most the tags of `new`, which no record carries, besides its own. -/
theorem Mru.Limited.updPos {m : Mru} (h : m.Limited) {x : Nat} {f : PosState → PosState} (new : List Nat)
    (hf : (f (m.pos x)).Limited x) (htags : (tagsOf (f (m.pos x)).live).Subperm (new ++ tagsOf (m.pos x).live))
    (hnew : (new ++ tagsOf m.records).Nodup) : (m.updPos x f).Limited := by
  by_cases hx : x < m.positions.length
  · refine ⟨(Mru.length_updPos x f m).trans h.length, fun y => ?_, ?_⟩
    · rw [Mru.pos_updPos]
      split
      · rename_i hy
        rw [hy.1]
        exact hf
      · exact h.limited y
    · have hbefore := tagsOf_perm (Mru.records_perm hx)
      have hafter := tagsOf_perm (Mru.records_perm (m := m.updPos x f) ((Mru.length_updPos x f m).symm ▸ hx))
      rw [Mru.pos_updPos_self hx, Mru.others_updPos, tagsOf_append] at hafter
      rw [tagsOf_append] at hbefore
      have hall := (hbefore.append_left new).nodup_iff.1 hnew
      rw [← List.append_assoc] at hall
      obtain ⟨l, hl, hsub⟩ := (List.subperm_append_right (tagsOf (m.others x))).2 htags
      exact hafter.nodup_iff.2 (hl.nodup_iff.1 (hall.sublist hsub))
  · rwa [Mru.updPos_of_le (Nat.not_lt.1 hx)]

/-- A position that takes up no tag. -/
theorem Mru.Limited.updPos_of_tags {m : Mru} (h : m.Limited) {x : Nat} {f : PosState → PosState} (hf : (f (m.pos x)).Limited x)
    (htags : (tagsOf (f (m.pos x)).live).Subperm (tagsOf (m.pos x).live)) : (m.updPos x f).Limited :=
  h.updPos [] hf htags h.once

/-! ## The tag wait order -/

/-- The tag wait order is served in `t` as it was in `s` if it has not come to be waited in, and no tag has become free. -/
theorem State.TagOrderServed.mono {s t : State} (h : s.TagOrderServed) (horder : s.mru.tagWait = [] → t.mru.tagWait = [])
    (htags : tagsOf s.mru.records ⊆ tagsOf t.mru.records) : t.TagOrderServed :=
  h.imp horder fun hno k hk => mem_tagsOf.1 (htags (mem_tagsOf.2 (hno k hk)))

theorem State.TagOrderServed.of_mru {s t : State} (h : s.TagOrderServed) (hmru : t.mru = s.mru) : t.TagOrderServed :=
  h.mono (fun ho => by rw [hmru, ho]) (by rw [hmru]; exact List.Subset.refl _)

/-- Issues leave every tag where it was (R138). -/
theorem State.TagsGiven.tags {s t : State} (h : s.TagsGiven t) (hq : t.mru.quarantined = s.mru.quarantined) :
    tagsOf s.mru.records ⊆ tagsOf t.mru.records := by
  intro k hk
  obtain ⟨q, hq', hk⟩ := mem_tagsOf.1 hk
  refine mem_tagsOf.2 ?_
  rcases Mru.mem_records.1 hq' with ⟨y, hy⟩ | hy
  · obtain ⟨q', hq', -, hnone | hsame⟩ := (h y).stays hy
    · rw [hnone] at hk
      cases hk
    · exact ⟨q', Mru.mem_records.2 (.inl ⟨y, hq'⟩), hsame.trans hk⟩
  · exact ⟨q, Mru.mem_records.2 (.inr (hq ▸ hy)), hk⟩

theorem Mru.mem_tags {m : Mru} {x k : Nat} (hx : x < m.positions.length) :
    k ∈ tagsOf m.records ↔ k ∈ tagsOf (m.pos x).live ∨ k ∈ tagsOf (m.others x) := by
  rw [(tagsOf_perm (Mru.records_perm hx)).mem_iff, tagsOf_append, List.mem_append]

theorem Mru.mem_tags_updPos {m : Mru} {x k : Nat} (hx : x < m.positions.length) (f : PosState → PosState) :
    k ∈ tagsOf (m.updPos x f).records ↔ k ∈ tagsOf (f (m.pos x)).live ∨ k ∈ tagsOf (m.others x) := by
  rw [Mru.mem_tags (x := x) ((Mru.length_updPos x f m).symm ▸ hx), Mru.pos_updPos_self hx, Mru.others_updPos]

/-- A tag that the position does not give up. -/
theorem Mru.tags_updPos {m : Mru} {x k : Nat} {f : PosState → PosState}
    (h : k ∈ tagsOf (m.pos x).live → k ∈ tagsOf (f (m.pos x)).live) (hk : k ∈ tagsOf m.records) :
    k ∈ tagsOf (m.updPos x f).records := by
  by_cases hx : x < m.positions.length
  · exact (Mru.mem_tags_updPos hx f).2 (((Mru.mem_tags hx).1 hk).imp_left h)
  · rwa [Mru.updPos_of_le (Nat.not_lt.1 hx)]

end Sys2Proof.Machine
end

section
/-! What each of MRU's operations keeps of the limits and of the service of the tag wait order (R135 to R139, R149 to R155). -/

namespace Sys2Proof.Machine

/-- From `s` to `t` the limits are kept, and so is the service of the tag wait order. -/
structure State.LimitsKept (s t : State) : Prop where
  limited : s.mru.Limited → t.mru.Limited
  order : s.TagOrderServed → t.TagOrderServed

theorem State.LimitsKept.of_mru {s t : State} (h : t.mru = s.mru) : s.LimitsKept t :=
  ⟨fun hs => by rwa [h], fun hs => hs.of_mru h⟩

theorem State.LimitsKept.refl (s : State) : s.LimitsKept s := .of_mru rfl

theorem State.LimitsKept.trans {s t u : State} (h : s.LimitsKept t) (h' : t.LimitsKept u) : s.LimitsKept u :=
  ⟨fun hs => h'.limited (h.limited hs), fun hs => h'.order (h.order hs)⟩

/-- A first step that does not touch MRU. -/
theorem State.LimitsKept.behind {s v t : State} (h : v.LimitsKept t) (hmru : v.mru = s.mru) : s.LimitsKept t :=
  (State.LimitsKept.of_mru hmru).trans h

theorem State.LimitsKept.foldl {α : Type} {f : State → α → State} (h : ∀ s a, State.LimitsKept s (f s a)) (l : List α)
    (s : State) : s.LimitsKept (l.foldl f s) := by
  induction l generalizing s with
  | nil => exact .refl s
  | cons a l ih => exact (h s a).trans (ih _)

/-! ## Issues (R138 to R140) -/

theorem State.leaveTagWait_limits (x : Nat) (s : State) : s.LimitsKept (s.leaveTagWait x) where
  limited h := h.of_same rfl rfl
  order h := h.mono (fun ho => by simp [State.leaveTagWait, ho]) (List.Subset.refl _)

/-- A change of one position that keeps its limits and its tags. -/
theorem State.updPos_limits {s : State} {x : Nat} (f : PosState → PosState)
    (hf : (s.mru.pos x).Limited x → (f (s.mru.pos x)).Limited x)
    (htags : tagsOf (f (s.mru.pos x)).live = tagsOf (s.mru.pos x).live) : s.LimitsKept (s.updPos x f) where
  limited hs := hs.updPos_of_tags (hf (hs.limited x)) (by rw [htags])
  order hs := hs.mono id fun k => Mru.tags_updPos (by rw [htags]; exact id)

/-- An expiry is set only while a request is queued. -/
theorem State.setExpiry_limits {s : State} {x : Nat} {e : Option Nat} (h : (s.mru.pos x).queue = [] → e = none) :
    s.LimitsKept (s.setExpiry x e) :=
  State.updPos_limits _ (fun hx => ⟨hx.outstanding, hx.history, hx.timeouts, h, hx.named⟩) rfl

theorem State.setTimeouts_limits {x count : Nat} (h : count ≤ 3) (s : State) : s.LimitsKept (s.setTimeouts x count) :=
  State.updPos_limits _ (fun hx => ⟨hx.outstanding, hx.history, h, hx.expiry, hx.named⟩) rfl

/-- The tags of a position that has issued its head. -/
theorem PosState.tags_issue {p : PosState} {s : State} {r : Request} {rest : List Request} (tag now : Nat) :
    (tagsOf (p.issue (s.issuedAs r tag) rest now).live).Perm (tag :: (tagsOf rest ++ tagsOf p.outstanding)) := by
  have h : tagsOf (p.issue (s.issuedAs r tag) rest now).live = tagsOf rest ++ tagsOf p.outstanding ++ [tag] := by
    simp [PosState.live, PosState.issue, State.issuedAs, tagsOf]
  rw [h]
  exact List.perm_append_singleton ..

/-- A head issued with its own tag or with a free one, where there is room (R135, R138). -/
theorem State.issueHead_limits {s : State} {x tag : Nat} {r : Request} {rest : List Request}
    (hq : (s.mru.pos x).queue = r :: rest) (hroom : (s.mru.pos x).outstanding.length < 4)
    (htag : r.tag = some tag ∨ (r.tag = none ∧ s.LowestFree tag)) : s.LimitsKept (s.issueHead x tag) := by
  have hissue := PosState.tags_issue (p := s.mru.pos x) (s := s) (r := r) (rest := rest) tag s.now
  have hlive : (s.mru.pos x).live = r :: (rest ++ (s.mru.pos x).outstanding) := by rw [PosState.live, hq]; rfl
  rw [State.issueHead_of_cons hq]
  constructor
  · intro hs
    have hx := hs.limited x
    have hlimited : ((s.mru.pos x).issue (s.issuedAs r tag) rest s.now).Limited x := by
      refine ⟨?_, ?_, hx.timeouts, fun h => if_pos h, fun q hq' => ?_⟩
      · simp only [PosState.issue, List.length_append, List.length_singleton]
        omega
      · exact (List.length_take_le _ _).trans (Nat.le_refl _)
      · simp only [PosState.live, PosState.issue, List.mem_append, List.mem_singleton] at hq'
        rcases hq' with hq' | hq' | rfl
        · exact hx.named q (by simp [hlive, hq'])
        · exact hx.named q (by simp [hlive, hq'])
        · exact hx.named r (by simp [hlive])
    refine Mru.Limited.of_same (m := s.mru.updPos x fun p => p.issue (s.issuedAs r tag) rest s.now) ?_ rfl rfl
    rcases htag with htag | ⟨htag, ⟨hk, hfree⟩, -⟩
    · refine hs.updPos_of_tags hlimited (hissue.subperm.trans (List.Perm.subperm (.of_eq ?_)))
      simp [hlive, tagsOf, htag]
    · refine hs.updPos [tag] hlimited (hissue.subperm.trans (List.Perm.subperm (.of_eq ?_))) ?_
      · simp [hlive, tagsOf, htag]
      · refine List.nodup_cons.2 ⟨fun hmem => ?_, hs.once⟩
        obtain ⟨q, hq', hqt⟩ := mem_tagsOf.1 hmem
        exact hfree q hq' hqt
  · intro hs
    refine hs.mono (fun ho => by simp [ho]) fun k => Mru.tags_updPos (f := fun p => p.issue (s.issuedAs r tag) rest s.now)
      (x := x) fun hk => hissue.mem_iff.2 ?_
    rw [hlive] at hk
    rcases htag with htag | ⟨htag, -⟩
    · simpa [tagsOf, htag] using hk
    · exact List.mem_cons_of_mem _ (by simpa [tagsOf, htag] using hk)

theorem State.HeadTag.ownOrFree {s : State} {r : Request} {tag : Nat} (h : s.HeadTag r tag) :
    r.tag = some tag ∨ (r.tag = none ∧ s.LowestFree tag) := h.imp_right fun ⟨hnone, _, hfree⟩ => ⟨hnone, hfree⟩

theorem State.Decided.limits {x : Nat} {s t : State} (h : State.Decided x s t) : s.LimitsKept t := by
  have absent {s : State} {r : Request} {rest : List Request} (hq : (s.mru.pos x).queue = r :: rest) {e : Option Nat} :
      (s.mru.pos x).queue = [] → e = none := fun he => by rw [hq] at he; cases he
  induction h with
  | emptied hq => exact (State.leaveTagWait_limits x _).trans (State.setExpiry_limits fun _ => rfl)
  | full hq hroom => exact State.leaveTagWait_limits x _
  | paced hq hroom hpace htag => exact (State.leaveTagWait_limits x _).trans (State.setExpiry_limits (absent hq))
  | pacedTagless hq hroom hpace htag => exact State.leaveTagWait_limits x _
  | waits hq hmay htag hnone =>
    exact ⟨fun hs => hs.of_same rfl rfl, fun hs => .inr (hnone.elim hs.resolve_left id)⟩
  | issues hq hmay htag h ih => exact (State.issueHead_limits hq hmay.1 htag.ownOrFree).trans ih

theorem State.issueDecision_limits (x : Nat) (s : State) : s.LimitsKept (s.issueDecision x) :=
  (s.issueDecision_decided x).limits

theorem State.decideAll_limits (s : State) : s.LimitsKept s.decideAll := by
  refine State.LimitsKept.foldl (fun s x => ?_) _ _
  split
  · exact .refl s
  · exact s.issueDecision_limits x

theorem State.decideAfterFree_limits (x : Nat) (s : State) : s.LimitsKept (s.decideAfterFree x) :=
  (s.issueDecision_limits x).trans (State.decideAll_limits _)

/-! ## The service of the tag wait order (R139) -/

/-- The service does not end while a tag is free and a position waits. -/
theorem State.Served.order {s t : State} (h : State.Served s t) : t.TagOrderServed := by
  induction h with
  | done h => exact h
  | skips _ _ _ _ ih => exact ih
  | issues _ _ _ _ ih => exact ih

theorem State.Served.limited {s t : State} (h : State.Served s t) (hs : s.mru.Limited) : t.mru.Limited := by
  induction h with
  | done h => exact hs
  | skips _ _ _ _ ih => exact ih (hs.of_same rfl rfl)
  | issues ho hfree hwant h ih =>
    obtain ⟨⟨r, rest, hq, htag⟩, hmay⟩ := hwant
    exact ih ((State.issueHead_limits (s := State.leaveTagWait _ _) hq hmay.1 (.inr ⟨htag, hfree⟩)).limited
      (hs.of_same rfl rfl))

/-- The service is of use to the order whatever its state, and keeps the limits. -/
theorem State.serveTagWait_limits {s t : State} (h : s.mru.Limited → t.mru.Limited) : s.LimitsKept t.serveTagWait :=
  ⟨fun hs => t.serveTagWait_served.limited (h hs), fun _ => t.serveTagWait_served.order⟩

/-! ## Submission (R136) -/

/-- A request without a tag joins its position's queue. -/
theorem State.submit_limits {r : Request} (hr : r.tag = none) (s : State) : s.LimitsKept (s.submit r) := by
  refine State.LimitsKept.trans (State.updPos_limits _ (fun hx => ?_) ?_) (State.issueDecision_limits r.position _)
  · refine ⟨hx.outstanding, hx.history, hx.timeouts, fun h => absurd h (List.append_ne_nil_of_right_ne_nil _ (by simp)), fun q hq => ?_⟩
    simp only [PosState.live, List.append_assoc, List.mem_append, List.mem_singleton] at hq
    rcases hq with hq | rfl | hq
    · exact hx.named q (by simp [PosState.live, hq])
    · rfl
    · exact hx.named q (by simp [PosState.live, hq])
  · simp [PosState.live, tagsOf, hr]

theorem State.Submits.limits {s t : State} (h : s.Submits t) : s.LimitsKept t := by
  induction h with
  | refl => exact .refl s
  | submit _ hr ih => exact ih.trans (State.submit_limits hr _)
  | outside _ hmru _ ih => exact ih.trans (.of_mru hmru)

/-! ## Requests that leave, and that come back (R137, R142, R150) -/

theorem State.leaveOutstanding_limited {s : State} (h : s.mru.Limited) (x tag : Nat) :
    (s.leaveOutstanding x tag).mru.Limited := by
  have hx := h.limited x
  have hsub : ((s.mru.pos x).outstanding.filter fun r => r.tag != some tag).Sublist (s.mru.pos x).outstanding :=
    List.filter_sublist
  refine Mru.Limited.updPos_of_tags (f := fun p => { p with outstanding := p.outstanding.filter fun r => r.tag != some tag }) h
    ⟨hsub.length_le.trans hx.outstanding, hx.history, hx.timeouts, hx.expiry, fun q hq => hx.named q ?_⟩ ?_
  · exact (hsub.append_left (s.mru.pos x).queue).subset hq
  · exact ((hsub.append_left (s.mru.pos x).queue).filterMap _).subperm

/-- The tags other than the one that has left. -/
theorem State.leaveOutstanding_tags {s : State} {x tag k : Nat} (hne : k ≠ tag) (hk : k ∈ tagsOf s.mru.records) :
    k ∈ tagsOf (s.leaveOutstanding x tag).mru.records := by
  refine Mru.tags_updPos (f := fun p => { p with outstanding := p.outstanding.filter fun r => r.tag != some tag })
    (fun hk => ?_) hk
  obtain ⟨q, hq, hqt⟩ := mem_tagsOf.1 hk
  have hkept : (q.tag != some tag) = true := by simp [hqt, hne]
  exact mem_tagsOf.2 ⟨q, by simpa [PosState.live, hkept] using hq, hqt⟩

/-- `v` is `s` without the OUTSTANDING request r with the tag, as far as tags and limits go. -/
structure State.TagLeft (r : Request) (tag : Nat) (s v : State) : Prop where
  limited : s.mru.Limited → v.mru.Limited ∧ tag ∉ tagsOf v.mru.records
  tags : ∀ k ∈ tagsOf s.mru.records, k ≠ tag → k ∈ tagsOf v.mru.records
  order : v.mru.tagWait = s.mru.tagWait
  nowhere : v.mru.positions.length ≤ r.position → v.mru = s.mru

theorem State.TagLeft.of_find {s : State} {r : Request} {tag : Nat} (h : s.mru.findOutstanding tag = some r) :
    State.TagLeft r tag s (s.leaveOutstanding r.position tag) := by
  refine ⟨fun hs => ⟨State.leaveOutstanding_limited hs _ _, ?_⟩, fun k hk hne => State.leaveOutstanding_tags hne hk, rfl,
    fun hx => Mru.updPos_of_le (m := s.mru) (f := fun p =>
      { p with outstanding := p.outstanding.filter fun q => q.tag != some tag }) ?_⟩
  · obtain ⟨-, honce⟩ := State.limited_iff.2 hs
    have hperm := tagsOf_perm (State.leaveOutstanding_records honce h)
    have hr : r.tag = some tag := (Mru.mem_outstanding_of_find h).1
    have hcons : tagsOf (r :: (s.leaveOutstanding r.position tag).mru.records) =
        tag :: tagsOf (s.leaveOutstanding r.position tag).mru.records := List.filterMap_cons_some hr
    rw [hcons] at hperm
    exact (List.nodup_cons.1 (hperm.nodup_iff.1 hs.once)).1
  · rwa [show (s.leaveOutstanding r.position tag).mru.positions.length = _ from Mru.length_updPos ..] at hx

/-- The request comes back to the head of its queue, with its tag (R137). -/
theorem State.TagLeft.requeueHead {r again : Request} {tag : Nat} {s v : State} (h : State.TagLeft r tag s v)
    (htag : again.tag = some tag) (hpos : again.position = r.position) : s.LimitsKept (v.requeueHead again) := by
  have htags (p : PosState) : tagsOf ({ p with queue := { again with deadline := none } :: p.queue } : PosState).live =
      tag :: tagsOf p.live := List.filterMap_cons_some htag
  constructor
  · intro hs
    obtain ⟨hv, hfree⟩ := h.limited hs
    have hx := hv.limited again.position
    refine hv.updPos (f := fun p => { p with queue := { again with deadline := none } :: p.queue }) [tag]
      ⟨hx.outstanding, hx.history, hx.timeouts, fun he => absurd he (List.cons_ne_nil _ _), fun q hq => ?_⟩ ?_
      (List.nodup_cons.2 ⟨hfree, hv.once⟩)
    · rcases List.mem_cons.1 hq with rfl | hq
      · rfl
      · exact hx.named q hq
    · rw [htags]
      exact .refl _
  · intro hs
    refine hs.mono (fun ho => h.order.trans ho) fun k hk => ?_
    by_cases hx : again.position < v.mru.positions.length
    · refine (Mru.mem_tags_updPos hx fun p => { p with queue := { again with deadline := none } :: p.queue }).2 ?_
      rw [htags, List.mem_cons, or_assoc, ← Mru.mem_tags hx]
      exact or_iff_not_imp_left.2 (h.tags k hk)
    · have hx := Nat.not_lt.1 hx
      have hsame : (v.requeueHead again).mru = v.mru :=
        Mru.updPos_of_le hx fun p => { p with queue := { again with deadline := none } :: p.queue }
      rw [hsame, h.nowhere (hpos ▸ hx)]
      exact hk

end Sys2Proof.Machine
end

section
/-! Quarantine, clearing and faults, completions and timeouts keep the limits and the service of the tag wait order. -/

namespace Sys2Proof.Machine

/-! ## Quarantine (R149, R154, R155) -/

/-- Requests that have left their positions join the quarantine. -/
def Mru.quarantining (m : Mru) (late : List Request) : Mru := { m with quarantined := m.quarantined ++ late }

theorem Mru.records_quarantining (m : Mru) (late : List Request) : (m.quarantining late).records = m.records ++ late :=
  (List.append_assoc ..).symm

theorem Mru.Limited.quarantining {m : Mru} (h : m.Limited) {late : List Request} (hlate : (tagsOf late).Nodup)
    (hnew : ∀ k ∈ tagsOf late, k ∉ tagsOf m.records) : (m.quarantining late).Limited := by
  refine ⟨h.length, h.limited, ?_⟩
  rw [Mru.records_quarantining, tagsOf_append, List.nodup_append]
  refine ⟨h.once, hlate, fun k hk k' hk' he => ?_⟩
  subst he
  exact hnew k hk' hk

theorem tagsOf_quarantine (until' : Nat) (l : List Request) : tagsOf (l.map (Request.quarantine until')) = tagsOf l :=
  tagsOf_map (f := Request.quarantine until') (fun _ => rfl) l

/-! ## Clearing (R154, R155) -/

theorem PosState.Limited.cleared {x : Nat} {p : PosState} (h : p.Limited x) : p.cleared.Limited x :=
  ⟨Nat.zero_le _, h.history, h.timeouts, fun _ => rfl, fun _ hr => absurd hr List.not_mem_nil⟩

theorem State.clearPosition_eq (x : Nat) (s : State) :
    s.clearPosition x = if (s.mru.pos x).queue.any (·.tag.isSome) then (s.cleared x).serveTagWait.decideAll
      else s.cleared x := rfl

theorem State.cleared_limited (x : Nat) {s : State} (hs : s.mru.Limited) : (s.cleared x).mru.Limited := by
  have hcleared : (s.mru.updPos x PosState.cleared).Limited :=
    hs.updPos_of_tags (hs.limited x).cleared List.nil_subperm
  refine Mru.Limited.of_same (m := (s.mru.updPos x PosState.cleared).quarantining _) (hcleared.quarantining ?_ ?_) rfl rfl
  · rw [tagsOf_quarantine]
    by_cases hx : x < s.mru.positions.length
    · have hall := (tagsOf_perm (Mru.records_perm hx)).nodup_iff.1 hs.once
      refine hall.sublist (List.Sublist.filterMap _ ?_)
      exact (List.sublist_append_right _ _).trans (List.sublist_append_left _ _)
    · rw [Mru.pos_eq_reset (Nat.not_lt.1 hx)]
      exact List.nodup_nil
  · rw [tagsOf_quarantine]
    by_cases hx : x < s.mru.positions.length
    · intro k hk hmem
      have hall := (tagsOf_perm (Mru.records_perm hx)).nodup_iff.1 hs.once
      rw [tagsOf_append, List.nodup_append] at hall
      obtain ⟨-, -, hapart⟩ := hall
      refine hapart k ?_ k (((Mru.mem_tags_updPos hx _).1 hmem).resolve_left List.not_mem_nil) rfl
      rw [PosState.live, tagsOf_append]
      exact List.mem_append_right _ hk
    · rw [Mru.pos_eq_reset (Nat.not_lt.1 hx)]
      exact fun k hk => absurd hk List.not_mem_nil

/-- A clearing that drops no request with a tag frees none. -/
theorem State.cleared_order {x : Nat} {s : State} (hno : ∀ q ∈ (s.mru.pos x).queue, q.tag = none)
    (hs : s.TagOrderServed) : (s.cleared x).TagOrderServed := by
  refine hs.mono (fun ho => by simp [State.cleared, State.updPos, Mru.updPos, ho]) fun k hk => ?_
  have hrecords : (s.cleared x).mru.records = _ := Mru.records_quarantining (s.mru.updPos x PosState.cleared) _
  rw [hrecords, tagsOf_append, tagsOf_quarantine, List.mem_append]
  by_cases hx : x < s.mru.positions.length
  · rw [Mru.mem_tags_updPos hx]
    rcases (Mru.mem_tags hx).1 hk with hk | hk
    · obtain ⟨q, hq, hqt⟩ := mem_tagsOf.1 hk
      refine .inr (mem_tagsOf.2 ⟨q, (List.mem_append.1 hq).resolve_left fun hq => ?_, hqt⟩)
      rw [hno q hq] at hqt
      cases hqt
    · exact .inl (.inr hk)
  · rw [Mru.updPos_of_le (Nat.not_lt.1 hx)]
    exact .inl hk

theorem State.clearPosition_limits (x : Nat) (s : State) : s.LimitsKept (s.clearPosition x) := by
  rw [State.clearPosition_eq]
  split
  · exact (State.serveTagWait_limits (State.cleared_limited x)).trans (State.decideAll_limits _)
  · rename_i hno
    refine ⟨State.cleared_limited x, State.cleared_order fun q hq => ?_⟩
    simpa using mt (fun h => List.any_eq_true.2 ⟨q, hq, h⟩) hno

/-- Every position is cleared: nobody waits for a tag, and the outstanding requests keep theirs. -/
theorem State.clearAll_limits (s : State) : s.LimitsKept s.clearAll where
  order _ := .inl rfl
  limited hs := by
    refine ⟨(List.length_map _).trans hs.length, fun x => ?_, ?_⟩
    · rw [State.clearAll_pos]
      exact (hs.limited x).cleared
    · have hempty : ((s.mru.positions.map PosState.cleared).flatMap fun p => p.queue ++ p.outstanding) = [] := by
        simp [PosState.cleared]
      have hrecords : s.clearAll.mru.records = [] ++ s.clearAll.mru.quarantined := congrArg (· ++ _) hempty
      have howner : tagsOf (s.mru.quarantined.map fun r => { r with owner := none }) = tagsOf s.mru.quarantined :=
        tagsOf_map (f := fun r => { r with owner := none }) (fun _ => rfl) _
      have hcut (l : List Request) : tagsOf (l.map (Request.cutOff (s.now + s.mru.timeout))) = tagsOf l :=
        tagsOf_map (f := Request.cutOff (s.now + s.mru.timeout)) (fun _ => rfl) l
      rw [hrecords, List.nil_append, State.clearAll_quarantined, tagsOf_append, howner, hcut, ← tagsOf_append]
      refine (tagsOf_perm List.perm_append_comm).nodup_iff.1 (hs.once.sublist (List.Sublist.filterMap _ ?_))
      exact List.Sublist.append_right (List.Sublist.flatMap_right _ fun p _ => List.sublist_append_right _ _) _

theorem State.zeroTimeouts_limits (s : State) : s.LimitsKept s.zeroTimeouts := by
  have hpos (x : Nat) : s.zeroTimeouts.mru.pos x = { s.mru.pos x with timeouts := 0 } := by
    simp only [State.zeroTimeouts, State.updMru, Mru.pos, List.getD_eq_getElem?_getD, List.getElem?_map]
    cases s.mru.positions[x]? with
    | none => rfl
    | some p => rfl
  have hrecords : s.zeroTimeouts.mru.records = s.mru.records := by
    simp [State.zeroTimeouts, State.updMru, Mru.records, List.flatMap_map]
  refine ⟨fun hs => ⟨(List.length_map _).trans hs.length, fun x => ?_, by rw [hrecords]; exact hs.once⟩,
    fun hs => hs.mono id (by rw [hrecords]; exact List.Subset.refl _)⟩
  have hx := hs.limited x
  rw [hpos]
  exact ⟨hx.outstanding, hx.history, Nat.zero_le _, hx.expiry, hx.named⟩

/-! ## The end of the session, and faults (R36 to R40) -/

theorem State.abandonAll_mru (s : State) : s.abandonAll.mru = s.clearAll.mru := by
  rw [s.abandonAll_abandoned.only]

theorem State.abandonAll_limits (s : State) : s.LimitsKept s.abandonAll := s.clearAll_limits.trans (.of_mru s.abandonAll_mru)

/-- MRU after the end of a session is MRU cleared. -/
theorem State.endSession_mru (new : SessionState) (cause : Cause) (s : State) :
    (s.endSession new cause).mru = s.clearAll.mru := by
  rw [← s.abandonAll_mru, State.endSession]
  generalize s.abandonAll = t
  rfl

theorem State.endSession_limits (new : SessionState) (cause : Cause) (s : State) : s.LimitsKept (s.endSession new cause) :=
  s.clearAll_limits.trans (.of_mru (s.endSession_mru new cause))

theorem State.takeFault_limits (x : Nat) (s : State) : s.LimitsKept (s.takeFault x) := by
  unfold State.takeFault
  split
  · exact .refl s
  · split
    · exact .refl s
    · exact .refl s
    · exact s.endSession_limits _ _
    · split
      · have hmarked : s.LimitsKept (s.firstMarked x) := .of_mru rfl
        exact (hmarked.trans (State.clearPosition_limits x _)).trans (.of_mru (s.firstFault_faulted x).mru)
      · have hmarked : s.LimitsKept (s.markFaulted x) := .of_mru rfl
        exact hmarked.trans (State.endSession_limits _ _ _)

end Sys2Proof.Machine
end

section
/-! Settlements, completions and timeouts keep the limits and the service of the tag wait order (R142 to R152). -/

namespace Sys2Proof.Machine

/-! ## Settlements (R25 to R27, R118, R123) -/

theorem State.attemptOutcome_limits (q : QualProgress) (passed : Bool) (s : State) :
    s.LimitsKept (s.attemptOutcome q passed) := by
  unfold State.attemptOutcome
  split
  · split
    · exact (s.beginAttempt_submits _).limits
    · exact s.finishQualification_submits.limits
  · split
    · exact (s.beginAttempt_submits _).limits
    · exact s.endSession_limits _ _

theorem State.settleQualification_limits (o : Settlement) (s : State) : s.LimitsKept (s.settleQualification o) := by
  unfold State.settleQualification
  split
  · exact .refl s
  · split
    · exact .refl s
    · exact (s.beginReadBack_submits _).limits
    · exact s.attemptOutcome_limits _ _

theorem State.settle_limits (r : Request) (o : Settlement) (s : State) : s.LimitsKept (s.settle r o) := by
  cases ho : r.owner with
  | none =>
    rw [State.settle, ho]
    exact .refl s
  | some owner =>
    cases owner with
    | lane n => exact (s.settle_submits ho o).limits
    | qualification =>
      rw [State.settle, ho]
      exact s.settleQualification_limits o

/-! ## Completions of an OUTSTANDING request (R143 to R147) -/

/-- The count of a position falls to 0 when its request has left (R150). -/
theorem State.TagLeft.setTimeouts {r : Request} {tag count : Nat} {s v : State} (h : State.TagLeft r tag s v) (hc : count ≤ 3) :
    State.TagLeft r tag s (v.setTimeouts r.position count) := by
  refine ⟨fun hs => ?_, fun k hk hne => ?_, h.order, fun hx => ?_⟩
  · obtain ⟨hv, hfree⟩ := h.limited hs
    refine ⟨(State.setTimeouts_limits hc v).limited hv, fun hmem => hfree ?_⟩
    by_cases hx : r.position < v.mru.positions.length
    · exact (Mru.mem_tags hx).2 ((Mru.mem_tags_updPos hx fun p => { p with timeouts := count }).1 hmem)
    · have hsame : (v.setTimeouts r.position count).mru = v.mru :=
        Mru.updPos_of_le (Nat.not_lt.1 hx) fun p => { p with timeouts := count }
      rwa [hsame] at hmem
  · exact Mru.tags_updPos (f := fun p => { p with timeouts := count }) id (h.tags k hk hne)
  · have hx : v.mru.positions.length ≤ r.position := (Mru.length_updPos ..).symm.trans_le hx
    have hsame : (v.setTimeouts r.position count).mru = v.mru := Mru.updPos_of_le hx fun p => { p with timeouts := count }
    exact hsame.trans (h.nowhere hx)

/-- Once the freed tag has gone to the tag wait order, nobody waits for a free one (R139). -/
theorem State.TagLeft.endWith {r : Request} {tag x : Nat} {s v : State} (h : State.TagLeft r tag s v) {report : State → State}
    (hreport : v.LimitsKept (report v)) : s.LimitsKept (v.endWith x report) :=
  (State.serveTagWait_limits fun hs => hreport.limited (h.limited hs).1).trans (State.decideAfterFree_limits x _)

section Completions

variable {r : Request} {tag : Nat} {s v : State} (h : State.TagLeft r tag s v) (htag : r.tag = some tag)

include h

theorem State.TagLeft.completeGood : s.LimitsKept (v.completeGood r) :=
  (h.setTimeouts (Nat.zero_le _)).endWith (State.settle_limits r .good _)

include htag in
theorem State.TagLeft.completeMedium (mask : Mask) : s.LimitsKept (v.completeMedium r mask) := by
  have h := h.setTimeouts (Nat.zero_le 3)
  unfold State.completeMedium
  dsimp only
  split
  · exact h.endWith (State.settle_limits r _ _)
  · split
    · exact h.endWith (State.endSession_limits _ _ _)
    · exact (h.requeueHead (again := { r with rewritten := true }) htag rfl).trans (State.issueDecision_limits _ _)

include htag in
theorem State.TagLeft.completeDefer : s.LimitsKept (v.completeDefer r) := by
  unfold State.completeDefer
  split
  · exact (h.requeueHead (again := { r with defers := r.defers + 1 }) htag rfl).trans (State.issueDecision_limits _ _)
  · split
    · exact h.endWith (State.endSession_limits _ _ _)
    · exact h.endWith (State.settle_limits r _ _)

theorem State.TagLeft.completeLost : s.LimitsKept (v.completeLost r) :=
  ((State.serveTagWait_limits fun hs => (h.limited hs).1).trans (State.takeFault_limits r.position _)).trans
    (State.decideAfterFree_limits r.position _)

include htag in
theorem State.TagLeft.completeRequest (status : CompletionStatus) (mask : Mask) :
    s.LimitsKept (v.completeRequest r status mask) := by
  cases status with
  | good => exact h.completeGood
  | medium => exact h.completeMedium htag mask
  | defer => exact h.completeDefer htag
  | lost => exact h.completeLost

end Completions

/-! ## The end of a quarantine (R152) -/

theorem State.removeQuarantined_limited {s : State} (h : s.mru.Limited) (tag : Nat) :
    (s.removeQuarantined tag).mru.Limited := by
  refine ⟨h.length, h.limited, h.once.sublist (List.Sublist.filterMap _ ?_)⟩
  exact List.Sublist.append_left List.filter_sublist _

theorem State.endQuarantine_limits (tag : Nat) (s : State) : s.LimitsKept (s.endQuarantine tag) := by
  refine (State.serveTagWait_limits fun hs => ?_).trans (State.decideAll_limits _)
  exact (State.reportQuarantineEnd_submits _).limits.limited (State.removeQuarantined_limited hs tag)

theorem State.landData_mru (r : Request) (data : List Byte) (s : State) : (s.landData r data).mru = s.mru := by
  unfold State.landData
  split <;> rfl

theorem State.takeCompletion_limits (tag : Nat) (status : Byte) (mask : Mask) (data : List Byte) (s : State) :
    s.LimitsKept (s.takeCompletion tag status mask data) := by
  have landed (r : Request) : s.LimitsKept (s.landData r data) := .of_mru (s.landData_mru r data)
  unfold State.takeCompletion
  split
  · exact .refl s
  · split
    · rename_i r hr
      refine (landed r).trans (State.TagLeft.completeRequest (.of_find ?_) (Mru.mem_outstanding_of_find hr).1 _ _)
      rw [State.landData_mru, hr]
    · split
      · rename_i r hr
        exact (landed r).trans (State.endQuarantine_limits tag _)
      · exact .refl s

/-! ## Timeouts (R149, R150) -/

/-- A request that times out keeps its tag in quarantine (R149). -/
theorem State.TagLeft.quarantined {r : Request} {tag until' : Nat} {s v : State} (h : State.TagLeft r tag s v)
    (htag : r.tag = some tag) : s.LimitsKept (v.updMru fun m => m.quarantining [r.quarantine until']) := by
  have hlate : tagsOf [r.quarantine until'] = [tag] := List.filterMap_cons_some htag
  have hrecords : (v.updMru fun m => m.quarantining [r.quarantine until']).mru.records = _ := Mru.records_quarantining v.mru _
  refine ⟨fun hs => ?_, fun hs => hs.mono (fun ho => h.order.trans ho) fun k hk => ?_⟩
  · obtain ⟨hv, hfree⟩ := h.limited hs
    refine hv.quarantining ?_ ?_
    · rw [hlate]
      exact List.nodup_singleton tag
    · rw [hlate]
      exact fun k hk => List.mem_singleton.1 hk ▸ hfree
  · rw [hrecords, tagsOf_append, hlate, List.mem_append, List.mem_singleton]
    exact or_iff_not_imp_right.2 (h.tags k hk)

/-- The successor of a write has no tag yet (R149). -/
theorem State.requeueSuccessor_limits (r : Request) (s : State) : s.LimitsKept (s.requeueHead r.successor) := by
  refine State.updPos_limits _ (fun hx => ⟨hx.outstanding, hx.history, hx.timeouts, fun he => ?_, fun q hq => ?_⟩) ?_
  · cases he
  · rcases List.mem_cons.1 hq with rfl | hq
    · rfl
    · exact hx.named q hq
  · rfl

theorem State.serveTimedOut_limits (r : Request) (s : State) : s.LimitsKept (s.serveTimedOut r) := by
  unfold State.serveTimedOut
  split
  · exact s.requeueSuccessor_limits r
  · exact s.settle_limits r .missing

theorem State.timedOut_limits {s : State} {r : Request} {tag : Nat} (h : s.mru.findOutstanding tag = some r) :
    s.LimitsKept (s.timedOut r tag) := by
  have hquarantined := (State.TagLeft.of_find h).quarantined (until' := s.now + s.mru.timeout) (Mru.mem_outstanding_of_find h).1
  have hnoted (u : State) : u.LimitsKept (u.setEvent .memberTimeout) := .of_mru rfl
  exact (hquarantined.trans (hnoted _)).trans (State.setTimeouts_limits (Nat.min_le_left 3 _) _)

theorem State.timeOut_eq (r : Request) (tag : Nat) (s : State) :
    s.timeOut r tag = (if min 3 ((s.mru.pos r.position).timeouts + 1) < 3 then (s.timedOut r tag).serveTimedOut r
      else (s.timedOut r tag).takeFault r.position).issueDecision r.position := rfl

theorem State.timeOut_limits {s : State} {r : Request} {tag : Nat} (h : s.mru.findOutstanding tag = some r) :
    s.LimitsKept (s.timeOut r tag) := by
  refine (State.timedOut_limits h).trans ?_
  rw [State.timeOut_eq]
  refine State.LimitsKept.trans ?_ (State.issueDecision_limits r.position _)
  split
  · exact State.serveTimedOut_limits r _
  · exact State.takeFault_limits r.position _

theorem State.runTimeEvent_limits (e : TimeEvent) (s : State) : s.LimitsKept (s.runTimeEvent e) := by
  cases e with
  | timeout tag =>
    simp only [State.runTimeEvent]
    split
    · exact .refl s
    · rename_i r hr
      exact State.timeOut_limits hr
  | quarantineEnd tag => exact s.endQuarantine_limits tag
  | pacing x => exact (State.setExpiry_limits fun _ => rfl).trans (State.issueDecision_limits x _)

theorem State.takeTimeEvent_limits (e : TimeEvent) (s : State) : s.LimitsKept (s.takeTimeEvent e) := by
  unfold State.takeTimeEvent
  split
  · exact .of_mru rfl
  · rename_i d _
    have reached : s.LimitsKept (s.beginEvent.reachTime d) := .of_mru rfl
    exact reached.trans (State.runTimeEvent_limits e _)

end Sys2Proof.Machine
end

section
/-! Commands, route requests and the step keep the limits and the service of the tag wait order. -/

namespace Sys2Proof.Machine

/-! ## Commands (Table 10-2) -/

theorem State.passOver_limits (l : List (Fin 4)) (s : State) : s.LimitsKept (State.passOver l s) :=
  (s.passOver_submits l).limits

theorem takeOpenSession_limits (f b lanes fill start aq kq skipQual : Nat) (s : State) :
    s.LimitsKept (takeOpenSession f b lanes fill start aq kq skipQual s).1 := by
  unfold takeOpenSession
  split
  · exact .refl s
  · split
    · exact .refl s
    · exact .refl s
    · split
      · exact .refl s
      · simp only
        split
        · exact .refl s
        · have hopened (v : State) (hmru : v.mru = s.mru) : s.LimitsKept v.zeroTimeouts :=
            (State.zeroTimeouts_limits v).behind hmru
          split
          · refine (hopened _ ?_).trans (.of_mru rfl)
            rfl
          · refine State.LimitsKept.trans ?_ (State.requestBuffers_submits _ _).limits
            refine (hopened _ ?_).trans (.of_mru rfl)
            rfl

/-- A change of MRU's settings. -/
theorem State.settings_limits {s t : State} (hpos : t.mru.positions = s.mru.positions)
    (hq : t.mru.quarantined = s.mru.quarantined) (ho : t.mru.tagWait = s.mru.tagWait) : s.LimitsKept t where
  limited hs := hs.of_same hpos hq
  order hs := by
    have hrecords : t.mru.records = s.mru.records := by rw [Mru.records, Mru.records, hpos, hq]
    exact hs.mono (fun h => ho.trans h) (by rw [hrecords]; exact List.Subset.refl _)

theorem takeSetPace_limits (w window : Nat) (s : State) : s.LimitsKept (takeSetPace w window s).1 := by
  have hset : s.LimitsKept (s.updMru fun m => { m with paceLimit := clampTo 1 32 w, paceWindow := clampTo 1 1000 window }) :=
    State.settings_limits rfl rfl rfl
  simp only [takeSetPace]
  exact hset.trans (State.decideAll_limits _)

theorem takeSetTimeout_limits (ms : Nat) (s : State) : s.LimitsKept (takeSetTimeout ms s).1 :=
  State.settings_limits rfl rfl rfl

theorem State.retire_mru (stripe : Nat) (s : State) : (s.retire stripe).1.mru = s.mru := by
  unfold State.retire
  split <;> rfl

theorem takeForgive_limits (stripe : Nat) (s : State) : s.LimitsKept (takeForgive stripe s).1 := by
  unfold takeForgive
  split
  · exact .refl s
  · split
    · exact .refl s
    · split
      · exact .refl s
      · split
        · exact .refl s
        · exact (State.afterRetirement_submits _).limits.behind (s.retire_mru stripe)

theorem takeResetEngine_limits (s : State) : s.LimitsKept (takeResetEngine s).1 :=
  (s.abandonAll_limits.trans (State.zeroTimeouts_limits _)).trans (.of_mru rfl)

/-- Every command of Table 10-2 keeps the limits and the service of the order. -/
theorem runCommand_limits (c : HostCommand) (s : State) : s.LimitsKept (runCommand c s).1 := by
  have changed (st : SessionState) : s.LimitsKept (s.changeState st) := .of_mru rfl
  cases c with
  | setGeometry n l t rs k =>
    simp only [runCommand, takeSetGeometry]
    repeat' split
    all_goals exact .of_mru rfl
  | setSegments position first elements =>
    simp only [runCommand, takeSetSegments]
    repeat' split
    all_goals exact .of_mru rfl
  | openSession f b lanes fill startRegion aq kq skipQual =>
    exact takeOpenSession_limits f b lanes fill startRegion aq kq skipQual s
  | start =>
    simp only [runCommand, takeStart]
    split
    · exact (changed _).trans (State.passOver_limits _ _)
    · exact .refl s
  | pause =>
    simp only [runCommand, takePause]
    split
    · exact (changed _).trans (State.drainingExit_session _).submits.limits
    · exact .refl s
  | resume =>
    simp only [runCommand, takeResume]
    split
    · exact (changed _).trans (State.passOver_limits _ _)
    · exact .refl s
  | step =>
    simp only [runCommand, takeStep]
    split
    · exact ((changed _).trans (State.stepPass_submits _).limits).trans (State.steppingExit_session _).submits.limits
    · exact .refl s
  | abort =>
    simp only [runCommand, takeAbort]
    split
    · exact s.endSession_limits _ _
    · exact .refl s
  | closeSession =>
    simp only [runCommand, takeCloseSession]
    split
    · exact .of_mru rfl
    · exact .refl s
  | promote region =>
    simp only [runCommand, takePromote]
    split
    · exact .refl s
    · exact .of_mru rfl
  | demote region =>
    simp only [runCommand, takeDemote]
    split
    · exact .refl s
    · exact .of_mru rfl
  | memberDown position =>
    simp only [runCommand, takeMemberDown]
    split
    · exact .refl s
    · split
      · exact .refl s
      · exact s.takeFault_limits _
  | setPace w window => exact takeSetPace_limits w window s
  | setTimeout ms => exact takeSetTimeout_limits ms s
  | setHeat h => exact .of_mru rfl
  | setLanes count =>
    simp only [runCommand, takeSetLanes]
    split
    · exact (State.passOver_limits _ _).behind rfl
    · exact .of_mru rfl
  | setCheck setting =>
    simp only [runCommand, takeSetCheck]
    split
    · exact .refl s
    · split
      · exact .refl s
      · exact .of_mru rfl
  | setEventEnables events => exact .of_mru rfl
  | ackEvents events => exact .of_mru rfl
  | getStatus => exact .refl s
  | getRegion region =>
    simp only [runCommand, takeGetRegion]
    split
    · exact .refl s
    · split <;> exact .refl s
  | listRecords first maxCount =>
    simp only [runCommand, takeListRecords]
    split
    · exact .refl s
    · split <;> exact .refl s
  | forgive stripe => exact takeForgive_limits stripe s
  | resetEngine => exact takeResetEngine_limits s

/-! ## The ports (R191 to R194, R70 to R72) -/

theorem State.takeMessage_limits (m : CommandMessage) (s : State) : s.LimitsKept (s.takeMessage m) := by
  have hrun : s.LimitsKept (runDecoded (decodeCommand m.opcode m.params) s).1 := by
    cases decodeCommand m.opcode m.params with
    | unknown => exact .refl s
    | badLength => exact .refl s
    | command c => exact runCommand_limits c s
  exact hrun.trans (.of_mru rfl)

theorem State.takeCommandsFuel_limits (fuel : Nat) (s : State) : s.LimitsKept (s.takeCommandsFuel fuel) := by
  induction fuel generalizing s with
  | zero => exact .refl s
  | succ fuel ih =>
    simp only [State.takeCommandsFuel]
    split
    · exact .refl s
    · split
      · have dropped : s.LimitsKept (s.updMgp Mgp.dropHead) := .of_mru rfl
        exact (dropped.trans (State.takeMessage_limits _ _)).trans (ih _)
      · exact .refl s

theorem State.commandArrives_limits (m : CommandMessage) (s : State) : s.LimitsKept (s.commandArrives m) := by
  refine State.LimitsKept.trans (.of_mru ?_) (State.takeCommandsFuel_limits _ _)
  unfold State.queueCommand
  split <;> rfl

theorem State.readResponse_limits (s : State) : s.LimitsKept s.readResponse := by
  unfold State.readResponse
  split
  · exact .of_mru rfl
  · exact (State.takeCommandsFuel_limits _ _).behind rfl

theorem State.retireAll_mru (l : List Nat) (s : State) : (State.retireAll l s).1.mru = s.mru := by
  induction l generalizing s with
  | nil => rfl
  | cons stripe rest ih => exact (ih _).trans (s.retire_mru stripe)

theorem State.takeRelease_limits (tag : Byte) (listed : List Nat) (s : State) : s.LimitsKept (s.takeRelease tag listed) := by
  unfold State.takeRelease
  split
  · exact .of_mru rfl
  · split
    · exact .of_mru rfl
    · split
      · rename_i e _
        have retired : s.LimitsKept (State.retireAll (e.overwritten listed) s).1 := .of_mru (s.retireAll_mru _)
        unfold State.releaseHeld
        dsimp only
        generalize State.retireAll (e.overwritten listed) s = x at retired ⊢
        have scanned := retired.trans ((State.scanLocks_submits
          ((x.1.dropHeld (.claim tag)).answer (releasedAnswer tag x.2))).limits.behind (s := x.1) rfl)
        split
        · exact scanned
        · exact scanned.trans (State.afterRetirement_submits _).limits
      · split
        · exact (State.scanLocks_submits _).limits.behind rfl
        · exact .of_mru rfl

theorem State.takeRequest_limits (r : RouteRequest) (s : State) : s.LimitsKept (s.takeRequest r) := by
  unfold State.takeRequest
  split
  · unfold State.takeQuery
    split <;> exact .of_mru rfl
  · split
    · unfold State.takeClaim
      dsimp only
      repeat' split
      all_goals exact .of_mru rfl
    · split
      · exact s.takeRelease_limits _ _
      · exact .of_mru rfl

theorem State.takeRequestsFuel_limits (fuel : Nat) (s : State) : s.LimitsKept (s.takeRequestsFuel fuel) := by
  induction fuel generalizing s with
  | zero => exact .refl s
  | succ fuel ih =>
    simp only [State.takeRequestsFuel]
    split
    · exact .refl s
    · split
      · have dropped : s.LimitsKept (s.updRtu Rtu.dropHead) := .of_mru rfl
        exact (dropped.trans (State.takeRequest_limits _ _)).trans (ih _)
      · exact .refl s

theorem State.requestArrives_limits (r : RouteRequest) (s : State) : s.LimitsKept (s.requestArrives r) := by
  refine State.LimitsKept.trans (.of_mru ?_) (State.takeRequestsFuel_limits _ _)
  unfold State.queueRequest
  split <;> rfl

theorem State.readAnswer_limits (s : State) : s.LimitsKept s.readAnswer := by
  unfold State.readAnswer
  split
  · exact .of_mru rfl
  · exact (State.takeRequestsFuel_limits _ _).behind rfl

/-! ## The step -/

theorem Mru.limited_reset : State.reset.mru.Limited := by
  refine ⟨rfl, fun x => ?_, by decide⟩
  have hreset : State.reset.mru.pos x = PosState.reset := by
    by_cases hx : x < State.reset.mru.positions.length
    · rw [Mru.pos_eq_getElem hx]
      exact List.getElem_replicate ..
    · exact Mru.pos_eq_reset (Nat.not_lt.1 hx)
  rw [hreset]
  exact PosState.limited_reset x

theorem State.Occurs.limits {s t : State} (h : s.Occurs t) : s.LimitsKept t := by
  have begun : s.LimitsKept s.beginEvent := .of_mru rfl
  cases h with
  | reset => exact ⟨fun _ => Mru.limited_reset, fun _ => .inl rfl⟩
  | nothing => exact begun
  | tick => exact .of_mru rfl
  | commandArrives m => exact s.commandArrives_limits m
  | readResponse => exact begun.trans (State.readResponse_limits _)
  | requestArrives r => exact s.requestArrives_limits r
  | readAnswer => exact begun.trans (State.readAnswer_limits _)
  | takeCompletion tag status mask data => exact begun.trans (State.takeCompletion_limits tag status mask data _)
  | takeBlock n => exact begun.trans (State.takeBlock_submits n _).limits
  | takeTimeEvent e => exact s.takeTimeEvent_limits e

/-- Settles O59: whatever occurs at a step keeps the limits and the service of the tag wait order. -/
theorem memberRequestsKeepLimits : Obligations.MemberRequestsKeepLimits := by
  intro s t h
  obtain ⟨k, hk⟩ := step_occurs h
  obtain ⟨hlimited, horder⟩ := hk.limits
  exact ⟨fun hs => State.limited_iff.2 (hlimited (State.limited_iff.1 hs)), horder⟩

end Sys2Proof.Machine
end

section
/-! Every command answers, and leaves the commands that wait; with none waiting, time passes or an event set for the earliest time
is taken. -/

namespace Sys2Proof.Machine

/-! ## The commands that wait -/

theorem State.takeCommandsFuel_pending (fuel : Nat) (s : State) : (s.takeCommandsFuel fuel).pending = s.pending := by
  induction fuel generalizing s with
  | zero => rfl
  | succ fuel ih =>
    simp only [State.takeCommandsFuel]
    split
    · rfl
    · rename_i m _ _
      split
      · have hrun : ((s.updMgp Mgp.dropHead).takeMessage m).pending = s.pending := by
          obtain ⟨-, -, hpending, -⟩ := runDecoded_only (decodeCommand m.opcode m.params) (s.updMgp Mgp.dropHead)
          exact hpending
        exact (ih _).trans hrun
      · rfl

theorem State.takeRequestsFuel_pending (fuel : Nat) (s : State) : (s.takeRequestsFuel fuel).pending = s.pending := by
  induction fuel generalizing s with
  | zero => rfl
  | succ fuel ih =>
    simp only [State.takeRequestsFuel]
    split
    · rfl
    · rename_i r _ _
      split
      · obtain ⟨hpending, -⟩ := (s.updRtu Rtu.dropHead).takeRequest_only r
        exact (ih _).trans hpending
      · rfl

theorem State.runTimeEvent_pending (e : TimeEvent) (s : State) : (s.runTimeEvent e).pending = s.pending := by
  have kept {t : State} (h : RebuildOnly s t) : t.pending = s.pending := by
    obtain ⟨-, -, -, hpending, -⟩ := h
    exact hpending
  cases e with
  | timeout tag =>
    simp only [State.runTimeEvent]
    split
    · rfl
    · exact kept (s.timeOut_rebuild _ tag)
  | quarantineEnd tag => exact kept (s.endQuarantine_rebuild tag)
  | pacing x => exact kept ((s.setExpiry_only x none).trans (State.issueDecision_only x _)).rebuild

/-- Whatever occurs, no command that waits is taken or joins. -/
theorem State.Occurs.pending {s t : State} (h : s.Occurs t) : t.pending = s.pending := by
  have kept {u : State} (h : RebuildOnly s.beginEvent u) : u.pending = s.pending := by
    obtain ⟨-, -, -, hpending, -⟩ := h
    exact hpending
  cases h with
  | reset => rfl
  | nothing => rfl
  | tick => rfl
  | commandArrives m =>
    refine (State.takeCommandsFuel_pending _ _).trans ?_
    unfold State.queueCommand
    split <;> rfl
  | readResponse =>
    unfold State.readResponse
    split
    · rfl
    · exact State.takeCommandsFuel_pending _ _
  | requestArrives r =>
    refine (State.takeRequestsFuel_pending _ _).trans ?_
    unfold State.queueRequest
    split <;> rfl
  | readAnswer =>
    unfold State.readAnswer
    split
    · rfl
    · exact State.takeRequestsFuel_pending _ _
  | takeCompletion tag status mask data => exact kept (State.takeCompletion_rebuild tag status mask data _)
  | takeBlock n => exact kept (State.takeBlock_rebuild n _)
  | takeTimeEvent e =>
    unfold State.takeTimeEvent
    split
    · rfl
    · exact State.runTimeEvent_pending e _

/-- No command stops the part. -/
theorem exec_answers (c : Instr) (s : State) : ∃ t, exec c s = .next t := by
  cases c with
  | commandArrival message =>
    cases hm : CommandMessage.read message with
    | none => exact ⟨_, execCommandArrival_of_none hm s⟩
    | some m => exact ⟨_, execCommandArrival_of_read hm s⟩
  | routeRequestArrival message =>
    cases hm : RouteRequest.read message with
    | none => exact ⟨_, execRouteRequestArrival_of_none hm s⟩
    | some r => exact ⟨_, execRouteRequestArrival_of_read hm s⟩
  | completion tag status position mask data =>
    by_cases hm : mask.length = 8
    · exact ⟨_, execCompletion_of_mask hm tag status position data s⟩
    · exact ⟨_, execCompletion_of_broken hm tag status position data s⟩
  | _ => exact ⟨_, rfl⟩

/-! ## Time (R152; logs 2 and 4) -/

theorem earliest_eq_none {l : List (Nat × TimeEvent)} (h : earliest l = none) : l = [] := by
  cases l with
  | nil => rfl
  | cons x rest =>
    obtain ⟨d, e⟩ := x
    simp only [earliest] at h
    split at h <;> cases h

/-- The earliest time is that of an event of the list, and no other is set for an earlier one. -/
theorem earliest_eq_some {l : List (Nat × TimeEvent)} {d : Nat} (h : earliest l = some d) :
    (∃ e, (d, e) ∈ l) ∧ ∀ x ∈ l, d ≤ x.1 := by
  induction l generalizing d with
  | nil => cases h
  | cons x rest ih =>
    obtain ⟨a, e⟩ := x
    simp only [earliest] at h
    split at h
    · rename_i hnone
      obtain rfl := Option.some.inj h
      rw [earliest_eq_none hnone]
      exact ⟨⟨e, List.mem_singleton.2 rfl⟩, fun x hx => by rw [List.mem_singleton.1 hx]⟩
    · rename_i b hsome
      obtain rfl := Option.some.inj h
      obtain ⟨⟨e', he'⟩, hle⟩ := ih hsome
      refine ⟨?_, List.forall_mem_cons.2 ⟨Nat.min_le_left a b, fun x hx => (Nat.min_le_right a b).trans (hle x hx)⟩⟩
      rcases Nat.le_total a b with hab | hab
      · exact ⟨e, by rw [Nat.min_eq_left hab]; exact List.mem_cons_self⟩
      · exact ⟨e', by rw [Nat.min_eq_right hab]; exact List.mem_cons_of_mem _ he'⟩

theorem Mru.mem_dueFirst {m : Mru} {d : Nat} (h : earliest m.timeEvents = some d) {e : TimeEvent} (he : e ∈ m.dueFirst) :
    (d, e) ∈ m.timeEvents := by
  obtain ⟨⟨a, e'⟩, hmem, rfl⟩ := List.mem_map.1 he
  obtain ⟨hmem, hd⟩ := List.mem_filter.1 hmem
  rw [h] at hd
  obtain rfl : d = a := by simpa using hd
  exact hmem

/-- One of the events is taken, whichever the free choice names (log 4). -/
theorem State.takeOneOf_mem {events : List TimeEvent} (h : events ≠ []) (s : State) :
    ∃ e ∈ events, ∃ k, s.takeOneOf events = ({ s with freeCount := k } : State).takeTimeEvent e := by
  match events with
  | [] => exact absurd rfl h
  | [e] => exact ⟨e, List.mem_singleton.2 rfl, s.freeCount, rfl⟩
  | e :: e' :: rest =>
    have hlt : Config.tieChoice s.freeCount % ((e' :: rest).length + 1) < (e :: e' :: rest).length :=
      Nat.mod_lt _ (Nat.succ_pos _)
    refine ⟨_, ?_, s.freeCount + 1, rfl⟩
    rw [List.getD_eq_getElem _ _ hlt]
    exact List.getElem_mem hlt

theorem State.idle_of_later {s : State} (h : ∀ e ∈ s.mru.timeEvents, s.now < e.1) :
    s.idle = { s with now := s.now + 1, sent := [] } := by
  unfold State.idle
  split
  · rename_i d hd
    obtain ⟨⟨e, he⟩, -⟩ := earliest_eq_some hd
    rw [if_neg (Nat.not_le.2 (h _ he))]
    rfl
  · rfl

theorem State.idle_of_due {s : State} (h : ∃ e ∈ s.mru.timeEvents, e.1 ≤ s.now) :
    ∃ e ∈ s.mru.timeEvents, (∀ x ∈ s.mru.timeEvents, e.1 ≤ x.1) ∧
      ∃ k, s.idle = ({ s with freeCount := k } : State).takeTimeEvent e.2 := by
  obtain ⟨e, he, hdue⟩ := h
  cases hd : earliest s.mru.timeEvents with
  | none =>
    rw [earliest_eq_none hd] at he
    exact absurd he List.not_mem_nil
  | some d =>
    obtain ⟨⟨first, hfirst⟩, hle⟩ := earliest_eq_some hd
    have hne : s.mru.dueFirst ≠ [] := by
      refine List.ne_nil_of_mem (a := first) (List.mem_map.2 ⟨(d, first), List.mem_filter.2 ⟨hfirst, ?_⟩, rfl⟩)
      simp [hd]
    obtain ⟨e', he', k, hk⟩ := State.takeOneOf_mem hne s
    refine ⟨(d, e'), Mru.mem_dueFirst hd he', hle, k, ?_⟩
    rw [State.idle, hd, ← hk]
    exact if_pos ((hle e he).trans hdue)

/-- Settles O2: no command stops, what occurs leaves the commands that wait, and the earliest time decides what an idle step does. -/
theorem everyStepAnswers : Obligations.EveryStepAnswers := by
  refine ⟨fun c s => ?_, fun s hp => ?_⟩
  · obtain ⟨t, ht⟩ := exec_answers c s
    exact ⟨t, ht, (exec_occurs ht).pending⟩
  · have hstep : step s = .next s.idle := by rw [step, hp]
    rw [hstep]
    refine ⟨fun hlater => congrArg _ (State.idle_of_later hlater), fun hdue => ?_⟩
    obtain ⟨e, he, hfirst, k, hk⟩ := State.idle_of_due hdue
    exact ⟨e, he, hfirst, k, congrArg _ hk⟩

end Sys2Proof.Machine
end

section
/-! An issue decision in full (R135, R138 to R140): what it issues, whoever else waits, and what it leaves of the head, where nobody
waits for a tag while one is free. -/

namespace Sys2Proof.Machine

/-! ## Tags that are free -/

/-- The lowest free tag goes by the tags that are carried. -/
theorem lowestFreeOf_iff {l : List Request} {k : Nat} :
    LowestFreeOf l k ↔ (k < 256 ∧ k ∉ tagsOf l) ∧ ∀ j, j < k → j ∈ tagsOf l := by
  simp only [LowestFreeOf, mem_tagsOf, not_exists, not_and, ne_eq]

theorem lowestFreeOf_congr {l l' : List Request} (h : ∀ j, j ∈ tagsOf l ↔ j ∈ tagsOf l') (k : Nat) :
    LowestFreeOf l k ↔ LowestFreeOf l' k := by
  simp only [lowestFreeOf_iff, h]

theorem LowestFreeOf.unique {l : List Request} {k k' : Nat} (h : LowestFreeOf l k) (h' : LowestFreeOf l k') : k = k' := by
  rw [lowestFreeOf_iff] at h h'
  obtain ⟨⟨-, hk⟩, hbelow⟩ := h
  obtain ⟨⟨-, hk'⟩, hbelow'⟩ := h'
  by_contra hne
  rcases Nat.lt_or_gt_of_ne hne with hlt | hlt
  · exact hk (hbelow' k hlt)
  · exact hk' (hbelow k' hlt)

/-- The tags carried once a head is issued: those carried before, and its own. -/
theorem State.mem_tags_issueHead {s : State} {x tag k : Nat} {r : Request} {rest : List Request}
    (hq : (s.mru.pos x).queue = r :: rest) (htag : r.tag = some tag ∨ r.tag = none) :
    k ∈ tagsOf (s.issueHead x tag).mru.records ↔ k ∈ tagsOf s.mru.records ∨ k = tag := by
  have hx := Mru.lt_of_queue hq
  have hrecords : (s.issueHead x tag).mru.records =
      (s.mru.updPos x fun p => p.issue (s.issuedAs r tag) rest s.now).records := by
    rw [State.issueHead_of_cons hq]
    rfl
  rw [hrecords, Mru.mem_tags_updPos hx, Mru.mem_tags hx, (PosState.tags_issue tag s.now).mem_iff, PosState.live, hq]
  rcases htag with htag | htag
  · simp only [tagsOf, List.cons_append, List.filterMap_cons_some htag, List.filterMap_append, List.mem_cons, List.mem_append]
    tauto
  · simp only [tagsOf, List.cons_append, List.filterMap_cons_none htag, List.filterMap_append, List.mem_cons, List.mem_append]
    tauto

theorem State.HeadTag.own_or_none {s : State} {r : Request} {tag : Nat} (h : s.HeadTag r tag) :
    r.tag = some tag ∨ r.tag = none := h.imp_right (·.1)

/-! ## What a decision issues -/

/-- A decision for x issues `issued` on the way from `s` to `t`, and touches nothing but the position and its place in the tag wait
order. -/
structure State.DecisionIssues (x : Nat) (s t : State) (issued : List Request) : Prop where
  order : IssuesInOrder s x issued
  outstanding : (t.mru.pos x).outstanding = (s.mru.pos x).outstanding ++ issued
  queue : (t.mru.pos x).queue = (s.mru.pos x).queue.drop issued.length
  history : (t.mru.pos x).history = if issued = [] then (s.mru.pos x).history
    else (List.replicate issued.length s.now ++ (s.mru.pos x).history).take 32
  sent : t.sent = s.sent ++ issued.map fun q => .memberRequest (q.bytes (q.tag.getD 0))
  room : issued ≠ [] → s.MayIssue x ∧ (t.mru.pos x).outstanding.length ≤ 4 ∧
    ((t.mru.pos x).history.countP fun i => decide (s.now < i + s.mru.paceWindow)) ≤ s.mru.paceLimit
  timeouts : (t.mru.pos x).timeouts = (s.mru.pos x).timeouts
  emptied : (t.mru.pos x).queue = [] → (t.mru.pos x).expiry = none
  others : t.mru.tagWait.filter (· != x) = s.mru.tagWait.filter (· != x)
  frame : t = { s with
    mru := { s.mru with positions := s.mru.positions.set x (t.mru.pos x), tagWait := t.mru.tagWait }, sent := t.sent }

theorem filter_ne_erase (l : List Nat) (x : Nat) : (l.erase x).filter (· != x) = l.filter (· != x) := by
  induction l with
  | nil => rfl
  | cons y rest ih =>
    by_cases hy : y = x
    · subst hy
      simp
    · rw [List.erase_cons_tail (by simpa using hy), List.filter_cons, List.filter_cons, ih]

theorem Mru.set_pos (m : Mru) (x : Nat) : m.positions.set x (m.pos x) = m.positions := by
  by_cases hx : x < m.positions.length
  · rw [Mru.pos_eq_getElem hx, List.set_getElem_self]
  · exact List.set_eq_of_length_le (Nat.not_lt.1 hx)

/-- The front of a history, with the issues before it. -/
theorem take_append_take (a b : List Nat) (n : Nat) : (a ++ b.take n).take n = (a ++ b).take n := by
  rw [List.take_append, List.take_append, List.take_take, Nat.min_eq_left (Nat.sub_le n a.length)]

/-- Nothing is issued: at most the expiry of x and the tag wait order change. -/
def State.unissued (x : Nat) (e : Option Nat) (order : List Nat) (s : State) : State :=
  { s with mru := { s.mru with positions := s.mru.positions.set x { s.mru.pos x with expiry := e }, tagWait := order } }

theorem State.unissued_self (x : Nat) (order : List Nat) (s : State) :
    s.unissued x (s.mru.pos x).expiry order = { s with mru := { s.mru with tagWait := order } } := by
  rw [State.unissued, show ({ s.mru.pos x with expiry := (s.mru.pos x).expiry } : PosState) = s.mru.pos x from rfl, Mru.set_pos]

theorem State.leaveTagWait_eq (x : Nat) (s : State) :
    s.leaveTagWait x = s.unissued x (s.mru.pos x).expiry (s.mru.tagWait.erase x) := (s.unissued_self x _).symm

theorem State.joinTagWait_eq (x : Nat) (s : State) :
    s.joinTagWait x = s.unissued x (s.mru.pos x).expiry
      (if x ∈ s.mru.tagWait then s.mru.tagWait else s.mru.tagWait ++ [x]) := by
  rw [State.unissued_self]
  simp [State.joinTagWait, State.updMru]

theorem State.unissued_pos {x : Nat} {e : Option Nat} {order : List Nat} {s : State}
    (he : (s.mru.pos x).queue = [] → e = none) : (s.unissued x e order).mru.pos x = { s.mru.pos x with expiry := e } := by
  have hpos : (s.unissued x e order).mru.pos x = (s.mru.updPos x fun p => { p with expiry := e }).pos x := rfl
  rw [hpos, Mru.pos_updPos]
  split
  · rfl
  · rename_i hx
    have hreset : s.mru.pos x = PosState.reset := Mru.pos_eq_reset (Nat.not_lt.1 fun hlt => hx ⟨rfl, hlt⟩)
    rw [hreset] at he ⊢
    rw [he rfl]
    rfl

theorem State.mem_tags_setExpiry {x k : Nat} {e : Option Nat} {s : State} :
    k ∈ tagsOf (s.setExpiry x e).mru.records ↔ k ∈ tagsOf s.mru.records := by
  show k ∈ tagsOf (s.mru.updPos x fun p => { p with expiry := e }).records ↔ _
  by_cases hx : x < s.mru.positions.length
  · rw [Mru.mem_tags_updPos hx, Mru.mem_tags hx]
    rfl
  · rw [Mru.updPos_of_le (Nat.not_lt.1 hx)]

theorem State.unissued_noTagFree {x : Nat} {e : Option Nat} {order : List Nat} {s : State}
    (h : (s.unissued x e order).NoTagFree) : s.NoTagFree :=
  fun k hk => mem_tagsOf.1 (State.mem_tags_setExpiry.1 (mem_tagsOf.2 (h k hk)))

theorem State.unissued_issues {x : Nat} {e : Option Nat} {order : List Nat} {s : State}
    (he : (s.mru.pos x).queue = [] → e = none) (ho : order.filter (· != x) = s.mru.tagWait.filter (· != x)) :
    State.DecisionIssues x s (s.unissued x e order) [] := by
  have hpos := State.unissued_pos (order := order) he
  refine ⟨⟨Nat.zero_le _, fun i q r hq => by cases hq⟩, ?_, ?_, ?_, (List.append_nil _).symm, fun h => absurd rfl h, ?_, ?_, ho,
    ?_⟩
  all_goals rw [hpos]
  · exact (List.append_nil _).symm
  · rfl
  · rfl
  · exact he
  · rfl

/-- The head of x is issued, and then what stands behind it. -/
theorem State.DecisionIssues.cons {x tag : Nat} {s t : State} {r : Request} {rest issued : List Request}
    (hq : (s.mru.pos x).queue = r :: rest) (hmay : s.MayIssue x) (htag : s.HeadTag r tag)
    (h : State.DecisionIssues x (s.issueHead x tag) t issued) :
    State.DecisionIssues x s t (s.issuedAs r tag :: issued) := by
  have hpos := State.issueHead_pos hq tag
  have heq := State.issueHead_of_cons hq tag
  have hcarried (k : Nat) := State.mem_tags_issueHead (k := k) hq htag.own_or_none
  obtain ⟨order, outstanding, queue, history, sent, room, timeouts, emptied, others, frame⟩ := h
  rw [hpos] at outstanding queue history timeouts
  refine ⟨⟨?_, ?_⟩, ?_, ?_, ?_, ?_, fun _ => ⟨hmay, ?_, ?_⟩, timeouts, emptied, ?_, ?_⟩
  · have hlength := order.1
    rw [hpos] at hlength
    rw [hq]
    exact Nat.succ_le_succ hlength
  · intro i q r' hi hr'
    rw [hq] at hr'
    cases i with
    | zero =>
      obtain rfl := Option.some.inj hi
      obtain rfl := Option.some.inj hr'
      rw [List.take_zero, List.append_nil]
      exact ⟨tag, htag.ownOrFree, rfl⟩
    | succ i =>
      obtain ⟨k, hk, hissued⟩ := order.2 i q r' hi (by rw [hpos]; exact hr')
      rw [heq] at hissued
      refine ⟨k, hk.imp_right fun hk => ⟨hk.1, (lowestFreeOf_congr (fun j => ?_) k).1 hk.2⟩, hissued⟩
      have hhead : tagsOf (s.issuedAs r tag :: issued.take i) = tag :: tagsOf (issued.take i) := rfl
      rw [List.take_succ_cons, tagsOf_append, tagsOf_append, hhead, List.mem_append, List.mem_append, hcarried,
        List.mem_cons, or_assoc]
  · rw [outstanding]
    simp [PosState.issue]
  · rw [queue, hq]
    rfl
  · rw [history, if_neg (List.cons_ne_nil _ _), heq]
    cases issued with
    | nil => rfl
    | cons q issued =>
      rw [if_neg (List.cons_ne_nil _ _), List.length_cons (a := s.issuedAs r tag), List.replicate_succ', List.append_assoc]
      exact take_append_take _ _ 32
  · rw [sent, heq, List.append_assoc]
    rfl
  · cases issued with
    | nil =>
      rw [outstanding]
      simp only [PosState.issue, List.append_nil, List.length_append, List.length_singleton]
      exact hmay.1
    | cons q issued => exact (room (List.cons_ne_nil _ _)).2.1
  · cases issued with
    | nil =>
      rw [history, if_pos rfl]
      refine (List.Sublist.countP_le (List.take_sublist ..)).trans ?_
      refine (List.countP_cons (l := (s.mru.pos x).history)).trans_le ?_
      have := hmay.2
      split <;> omega
    | cons q issued =>
      obtain ⟨-, -, hrecent⟩ := room (List.cons_ne_nil _ _)
      rw [heq] at hrecent
      exact hrecent
  · rw [others, heq]
    exact filter_ne_erase _ x
  · rw [heq] at frame
    refine frame.trans ?_
    simp only [List.set_set]

theorem State.Decided.exists_issued {x : Nat} {s t : State} (h : State.Decided x s t) :
    ∃ issued, State.DecisionIssues x s t issued := by
  have absent {s : State} {r : Request} {rest : List Request} (hq : (s.mru.pos x).queue = r :: rest) {e : Option Nat} :
      (s.mru.pos x).queue = [] → e = none := fun he => by rw [hq] at he; cases he
  induction h with
  | emptied hq => exact ⟨[], State.unissued_issues (fun _ => rfl) (filter_ne_erase _ x)⟩
  | full hq hroom =>
    rw [State.leaveTagWait_eq]
    exact ⟨[], State.unissued_issues (absent hq) (filter_ne_erase _ x)⟩
  | paced hq hroom hpace htag => exact ⟨[], State.unissued_issues (absent hq) (filter_ne_erase _ x)⟩
  | pacedTagless hq hroom hpace htag =>
    rw [State.leaveTagWait_eq]
    exact ⟨[], State.unissued_issues (absent hq) (filter_ne_erase _ x)⟩
  | waits hq hmay htag hnone =>
    rw [State.joinTagWait_eq]
    refine ⟨[], State.unissued_issues (absent hq) ?_⟩
    split
    · rfl
    · simp
  | issues hq hmay htag h ih =>
    obtain ⟨issued, hissued⟩ := ih
    exact ⟨_, hissued.cons hq hmay htag⟩

/-! ## What a decision leaves of the head -/

/-- The head that is left has no tag, and none is free. -/
def State.HeadWantsTag (t : State) (x : Nat) : Prop :=
  ∃ r rest, (t.mru.pos x).queue = r :: rest ∧ r.tag = none ∧ t.NoTagFree

/-- Pacing alone holds the head that is left back (R140). -/
def State.HeldByPace (t : State) (x : Nat) : Prop :=
  (t.mru.pos x).queue ≠ [] ∧ (t.mru.pos x).outstanding.length < 4 ∧
    t.mru.paceLimit ≤ ((t.mru.pos x).history.countP fun i => decide (t.now < i + t.mru.paceWindow)) ∧ ¬t.HeadWantsTag x

/-- What a decision leaves of the head: it is not one that could be issued, it has a new expiry if pacing alone holds it back and the
old one otherwise, and one that could be issued with a tag waits for one. -/
structure State.DecisionEnds (x : Nat) (s t : State) : Prop where
  stuck : (t.mru.pos x).queue = [] ∨ ¬t.MayIssue x ∨ t.HeadWantsTag x
  paced : t.HeldByPace x →
    (t.mru.pos x).expiry = some ((t.mru.pos x).history.getD (t.mru.paceLimit - 1) 0 + t.mru.paceWindow)
  unpaced : (t.mru.pos x).queue ≠ [] → ¬t.HeldByPace x → (t.mru.pos x).expiry = (s.mru.pos x).expiry
  waits : t.MayIssue x → (t.mru.pos x).queue ≠ [] → x ∈ t.mru.tagWait

theorem State.Decided.ends {x : Nat} {s t : State} (h : State.Decided x s t) (hs : s.TagOrderServed) :
    State.DecisionEnds x s t := by
  induction h with
  | @emptied s hq =>
    have hempty : (((s.leaveTagWait x).setExpiry x none).mru.pos x).queue = [] := by
      rw [show ((s.leaveTagWait x).setExpiry x none).mru.pos x = _ from
        State.unissued_pos (order := s.mru.tagWait.erase x) (e := none) fun _ => rfl]
      exact hq
    exact ⟨.inl hempty, fun h => absurd hempty h.1, fun h => absurd hempty h, fun _ h => absurd hempty h⟩
  | full hq hroom =>
    have hstuck := fun (h : State.MayIssue _ x) => Nat.not_lt.2 hroom h.1
    exact ⟨.inr (.inl hstuck), fun h => absurd h.2.1 (Nat.not_lt.2 hroom), fun _ _ => rfl, fun h => absurd h hstuck⟩
  | @paced s r rest hq hroom hpace htag =>
    have hpos : (s.paced x).mru.pos x = { s.mru.pos x with expiry := some (s.mru.paceTime x) } :=
      State.unissued_pos (s := s) (order := s.mru.tagWait.erase x) fun he => by rw [hq] at he; cases he
    have hstuck : ¬(s.paced x).MayIssue x := by
      intro h
      have := h.2
      rw [hpos] at this
      exact absurd this (Nat.not_lt.2 hpace)
    have hnone : ¬(s.paced x).HeadWantsTag x := by
      rintro ⟨r', rest', hq', htag', hno⟩
      rw [hpos] at hq'
      obtain ⟨rfl, -⟩ := List.cons.inj (hq.symm.trans hq')
      rcases htag with htag | ⟨-, hfree⟩
      · exact htag htag'
      · exact hfree (State.unissued_noTagFree hno)
    have hheld : (s.paced x).HeldByPace x := by
      refine ⟨?_, ?_, ?_, hnone⟩
      all_goals rw [hpos]
      · rw [hq]
        exact List.cons_ne_nil _ _
      · exact hroom
      · exact hpace
    refine ⟨.inr (.inl hstuck), fun _ => ?_, fun _ h => absurd hheld h, fun h => absurd h hstuck⟩
    rw [hpos]
    rfl
  | @pacedTagless s r rest hq hroom hpace htag =>
    have hstuck := fun (h : State.MayIssue (s.leaveTagWait x) x) => Nat.not_lt.2 hpace h.2
    rw [State.TagAtHand, not_or, not_not, not_and_or, not_not] at htag
    obtain ⟨htag, hnone⟩ := htag
    have hno : s.NoTagFree := hnone.elim (fun ho => hs.resolve_left fun h => ho (by rw [h]; rfl)) id
    exact ⟨.inr (.inl hstuck), fun h => absurd ⟨r, rest, hq, htag, hno⟩ h.2.2.2, fun _ _ => rfl, fun h => absurd h hstuck⟩
  | @waits s r rest hq hmay htag hnone =>
    have hwants : (s.joinTagWait x).HeadWantsTag x := ⟨r, rest, hq, htag, hnone.elim hs.resolve_left id⟩
    refine ⟨.inr (.inr hwants), fun h => absurd hwants h.2.2.2, fun _ _ => rfl, fun _ _ => ?_⟩
    simp only [State.joinTagWait, State.updMru]
    split <;> simp_all
  | @issues s t r rest tag hq hmay htag h ih =>
    obtain ⟨stuck, paced, unpaced, waits⟩ := ih ((State.issueHead_limits hq hmay.1 htag.ownOrFree).order hs)
    obtain ⟨issued, hissued⟩ := h.exists_issued
    refine ⟨stuck, paced, fun hne hheld => (unpaced hne hheld).trans ?_, waits⟩
    have hqueue := hissued.queue
    rw [State.issueHead_pos hq] at hqueue ⊢
    have hrest : rest ≠ [] := fun he => hne (by rw [hqueue]; simp [PosState.issue, he])
    exact if_neg hrest

/-! ## The decision (R138 to R140) -/

theorem State.Decided.made {x : Nat} {s t : State} (h : State.Decided x s t) (hs : s.TagOrderServed) : DecisionMade s t x := by
  obtain ⟨stuck, paced, unpaced, waits⟩ := h.ends hs
  obtain ⟨issued, order, outstanding, queue, history, sent, room, timeouts, emptied, others, frame⟩ := h.exists_issued
  have hnow : t.now = s.now := by rw [frame]
  have hlimit : t.mru.paceLimit = s.mru.paceLimit := by rw [frame]
  have hwindow : t.mru.paceWindow = s.mru.paceWindow := by rw [frame]
  rw [State.HeldByPace, hnow, hlimit, hwindow] at paced unpaced
  exact ⟨⟨issued, order, outstanding, queue, history, sent, room⟩, stuck, timeouts, emptied, paced, unpaced, waits, others,
    frame⟩

theorem State.issueDecision_made {x : Nat} {s : State} (hs : s.TagOrderServed) : DecisionMade s (s.issueDecision x) x :=
  (s.issueDecision_decided x).made hs

/-- A head that may go, with its own tag or the lowest free one, goes first. -/
theorem State.Decided.issues_head {x k : Nat} {s t : State} {r : Request} {rest : List Request} (h : State.Decided x s t)
    (hs : s.TagOrderServed) (hq : (s.mru.pos x).queue = r :: rest) (hmay : s.MayIssue x)
    (htag : r.tag = some k ∨ (r.tag = none ∧ s.LowestFree k)) :
    ∃ more, (t.mru.pos x).outstanding = (s.mru.pos x).outstanding ++ s.issuedAs r k :: more := by
  cases h with
  | emptied hq' => rw [hq] at hq'; cases hq'
  | full _ hroom => exact absurd hmay.1 (Nat.not_lt.2 hroom)
  | paced _ _ hpace _ => exact absurd hmay.2 (Nat.not_lt.2 hpace)
  | pacedTagless _ _ hpace _ => exact absurd hmay.2 (Nat.not_lt.2 hpace)
  | waits hq' _ hnone hno =>
    obtain ⟨rfl, rfl⟩ := List.cons.inj (hq.symm.trans hq')
    rcases htag with htag | ⟨-, ⟨hk, hfree⟩, -⟩
    · rw [hnone] at htag
      cases htag
    · obtain ⟨q, hq, hqt⟩ := (hno.elim hs.resolve_left id : s.NoTagFree) k hk
      exact absurd hqt (hfree q hq)
  | @issues _ _ _ _ tag hq' _ htag' h =>
    obtain ⟨rfl, rfl⟩ := List.cons.inj (hq.symm.trans hq')
    have hk : tag = k := by
      rcases htag with htag | ⟨hnone, hfree⟩
      · rcases htag' with htag' | ⟨hnone', -⟩
        · exact Option.some.inj (htag'.symm.trans htag)
        · rw [hnone'] at htag
          cases htag
      · rcases htag' with htag' | ⟨-, -, hfree'⟩
        · rw [hnone] at htag'
          cases htag'
        · exact hfree'.unique hfree
    subst hk
    obtain ⟨issued, hissued⟩ := h.exists_issued
    exact ⟨issued, (hissued.cons hq' hmay htag').outstanding⟩

/-- Settles O50: the decision, and what it makes of the head where the expiry has been cancelled. -/
theorem pacingExpiryIssuesHead : Obligations.PacingExpiryIssuesHead := by
  refine ⟨fun s x hs => State.issueDecision_made hs, ?_⟩
  intro x s d hd hs expired
  have hexec : exec (.pacingExpiry x) s = .next (expired.issueDecision x.val) :=
    congrArg _ (State.takeTimeEvent_of_standing hd)
  have hserved : expired.TagOrderServed := (State.setExpiry_limits (s := { s with now := max s.now d, sent := [] })
    fun _ => rfl).order hs
  have hdecided := expired.issueDecision_decided x.val
  have hissued := expired.issueDecision_issuedAt x.val
  have hpos : expired.mru.pos x.val = { s.mru.pos x.val with expiry := none } :=
    Mru.pos_updPos_of_reset (m := s.mru) (f := fun p => { p with expiry := none }) rfl x.val
  refine ⟨_, hexec, hdecided.made hserved, ?_⟩
  generalize expired.issueDecision x.val = t at hdecided hissued
  obtain ⟨⟨⟨m, o, only⟩, hquarantined, -⟩, hothers⟩ := hissued
  refine ⟨by rw [only]; rfl, ?_, ?_, by rw [only]; rfl, by rw [only]; rfl, by rw [only]; rfl, hquarantined, fun y hy => ?_,
    fun r rest k hq hmay htag => ?_⟩
  · rw [only]
    exact ⟨rfl, rfl, rfl, rfl, rfl, rfl, rfl, rfl, rfl, rfl, rfl, rfl, rfl, rfl⟩
  · rw [only]
    exact ⟨rfl, rfl, rfl⟩
  · exact (hothers y hy).trans (Mru.pos_updPos_other hy _ s.mru)
  · have hfree : r.tag = some k ∨ (r.tag = none ∧ expired.LowestFree k) := htag.imp_right fun ⟨hnone, hfree⟩ =>
      ⟨hnone, (lowestFreeOf_congr (fun j => State.mem_tags_setExpiry.symm) k).1 hfree⟩
    have hgo := hdecided.issues_head hserved (by rw [hpos]; exact hq) hmay hfree
    rw [hpos] at hgo
    exact hgo

end Sys2Proof.Machine
end

section
/-! The tag wait order (R139): who joins it and leaves it, and that a tag that becomes free goes to the first who may take it. -/

namespace Sys2Proof.Machine

/-! ## Who joins and who leaves -/

/-- A head that lacks nothing but a tag waits for one, and nothing else happens. -/
theorem State.Decided.of_waiting {x : Nat} {s t : State} {r : Request} {rest : List Request} (h : State.Decided x s t)
    (hq : (s.mru.pos x).queue = r :: rest) (htag : r.tag = none) (hmay : s.MayIssue x)
    (hnone : s.mru.tagWait ≠ [] ∨ s.NoTagFree) : t = s.joinTagWait x := by
  cases h with
  | emptied hq' => rw [hq] at hq'; cases hq'
  | full _ hroom => exact absurd hmay.1 (Nat.not_lt.2 hroom)
  | paced _ _ hpace _ => exact absurd hmay.2 (Nat.not_lt.2 hpace)
  | pacedTagless _ _ hpace _ => exact absurd hmay.2 (Nat.not_lt.2 hpace)
  | waits _ _ _ _ => rfl
  | issues hq' _ htag' h =>
    obtain ⟨rfl, rfl⟩ := List.cons.inj (hq.symm.trans hq')
    rcases htag' with htag' | ⟨-, ho, ⟨hk, hfree⟩, -⟩
    · rw [htag] at htag'
      cases htag'
    · obtain ⟨q, hq, hqt⟩ := hnone.resolve_left (not_not_intro ho) _ hk
      exact absurd hqt (hfree q hq)

theorem State.joinTagWait_eq_record (x : Nat) (s : State) :
    s.joinTagWait x = { s with mru := { s.mru with
      tagWait := if x ∈ s.mru.tagWait then s.mru.tagWait else s.mru.tagWait ++ [x] } } := by
  rw [State.joinTagWait_eq, State.unissued_self]

/-- A position that may not issue, or has nothing to issue, leaves the order. -/
theorem State.Decided.leaves {x : Nat} {s t : State} (h : State.Decided x s t) (honce : s.mru.tagWait.Nodup)
    (hno : (s.mru.pos x).queue = [] ∨ ¬s.MayIssue x) : x ∉ t.mru.tagWait := by
  have left : x ∉ s.mru.tagWait.erase x := honce.not_mem_erase
  have absurd' {r : Request} {rest : List Request} (hq : (s.mru.pos x).queue = r :: rest) (hmay : s.MayIssue x) : False :=
    hno.elim (fun he => by rw [hq] at he; cases he) (fun h => h hmay)
  cases h with
  | emptied _ => exact left
  | full _ _ => exact left
  | paced _ _ _ _ => exact left
  | pacedTagless _ _ _ _ => exact left
  | waits hq hmay _ _ => exact (absurd' hq hmay).elim
  | issues hq hmay _ _ => exact (absurd' hq hmay).elim

/-! ## Who is served -/

theorem State.TagOrderServed.not_free {s : State} {x tag : Nat} {order : List Nat} (h : s.TagOrderServed)
    (ho : s.mru.tagWait = x :: order) (hfree : s.LowestFree tag) : False := by
  obtain ⟨⟨hk, hfree⟩, -⟩ := hfree
  rcases h with h | h
  · rw [h] at ho
    cases ho
  · obtain ⟨q, hq, hqt⟩ := h tag hk
    exact hfree q hq hqt

/-- The service has one outcome. -/
theorem State.Served.unique {s t t' : State} (h : State.Served s t) (h' : State.Served s t') : t = t' := by
  induction h with
  | done hs =>
    cases h' with
    | done _ => rfl
    | skips ho hfree _ _ => exact (hs.not_free ho hfree).elim
    | issues ho hfree _ _ => exact (hs.not_free ho hfree).elim
  | skips ho hfree hwant _ ih =>
    cases h' with
    | done hs => exact (hs.not_free ho hfree).elim
    | skips ho' _ _ h' =>
      obtain ⟨rfl, -⟩ := List.cons.inj (ho.symm.trans ho')
      exact ih h'
    | issues ho' _ hwant' _ =>
      obtain ⟨rfl, -⟩ := List.cons.inj (ho.symm.trans ho')
      exact absurd hwant' hwant
  | issues ho hfree hwant _ ih =>
    cases h' with
    | done hs => exact (hs.not_free ho hfree).elim
    | skips ho' _ hwant' _ =>
      obtain ⟨rfl, -⟩ := List.cons.inj (ho.symm.trans ho')
      exact absurd hwant hwant'
    | issues ho' hfree' _ h' =>
      obtain ⟨rfl, -⟩ := List.cons.inj (ho.symm.trans ho')
      obtain rfl := hfree.unique hfree'
      exact ih h'

/-- Where nobody waits, or no tag is free, the service does nothing. -/
theorem State.serveTagWait_of_served {s : State} (h : s.TagOrderServed) : s.serveTagWait = s :=
  s.serveTagWait_served.unique (.done h)

section Oldest

variable {s : State} {x k : Nat} {order : List Nat} (ho : s.mru.tagWait = x :: order) (hfree : s.LowestFree k)

include ho

theorem State.leaveTagWait_oldest : s.leaveTagWait x = { s with mru := { s.mru with tagWait := order } } := by
  simp [State.leaveTagWait, State.updMru, ho]

include hfree

/-- The oldest position takes the tag if its head may, and the others are served after it. -/
theorem State.serveTagWait_issues (hnew : x ∉ order) {r : Request} {rest : List Request}
    (hq : (s.mru.pos x).queue = r :: rest) (htag : r.tag = none) (hmay : s.MayIssue x) :
    s.serveTagWait = State.serveTagWait { s with
      mru := { s.mru with
        tagWait := order
        positions := s.mru.positions.set x ((s.mru.pos x).issue (s.issuedAs r k) rest s.now) }
      sent := s.sent ++ [.memberRequest ((s.issuedAs r k).bytes k)] } := by
  have hissued : (s.leaveTagWait x).issueHead x k = _ := State.issueHead_of_cons (s := s.leaveTagWait x) hq k
  rw [State.leaveTagWait_oldest ho] at hissued
  have hstep := s.serveTagWait_served.unique (.issues ho hfree ⟨⟨r, rest, hq, htag⟩, hmay⟩ (State.serveTagWait_served _))
  rw [hstep, State.leaveTagWait_oldest ho, hissued]
  dsimp only
  rw [List.erase_of_not_mem hnew]
  rfl

/-- The oldest position leaves the order if its head may not take the tag. -/
theorem State.serveTagWait_skips (hno : ¬s.WantsTag x) :
    s.serveTagWait = State.serveTagWait { s with mru := { s.mru with tagWait := order } } := by
  rw [s.serveTagWait_served.unique (.skips ho hfree hno (State.serveTagWait_served _)), State.leaveTagWait_oldest ho]

end Oldest

/-! ## What was issued stays issued -/

/-- At every position the requests that were outstanding still are. -/
def State.StaysOut (s t : State) : Prop := ∀ y, ∀ q ∈ (s.mru.pos y).outstanding, q ∈ (t.mru.pos y).outstanding

theorem State.StaysOut.trans {s t u : State} (h : s.StaysOut t) (h' : t.StaysOut u) : s.StaysOut u :=
  fun y q hq => h' y q (h y q hq)

theorem State.issueHead_staysOut (x tag : Nat) (s : State) : s.StaysOut (s.issueHead x tag) := by
  intro y q hq
  by_cases hy : y = x
  · subst hy
    cases hqueue : (s.mru.pos y).queue with
    | nil =>
      rw [State.issueHead, hqueue]
      exact hq
    | cons r rest =>
      rw [State.issueHead_pos hqueue]
      exact List.mem_append_left _ hq
  · rw [State.issueHead_other hy]
    exact hq

theorem State.issueDecision_staysOut (x : Nat) (s : State) : s.StaysOut (s.issueDecision x) := by
  intro y q hq
  by_cases hy : y = x
  · subst hy
    obtain ⟨issued, hissued⟩ := (s.issueDecision_decided y).exists_issued
    rw [hissued.outstanding]
    exact List.mem_append_left _ hq
  · rw [(s.issueDecision_issuedAt x).others y hy]
    exact hq

theorem State.decideAll_staysOut (s : State) : s.StaysOut s.decideAll := by
  unfold State.decideAll
  induction List.range 16 generalizing s with
  | nil => exact fun _ _ => id
  | cons x rest ih =>
    refine State.StaysOut.trans ?_ (ih _)
    dsimp only
    split
    · exact fun _ _ => id
    · exact s.issueDecision_staysOut x

theorem State.Served.staysOut {s t : State} (h : State.Served s t) : s.StaysOut t := by
  induction h with
  | done _ => exact fun _ _ => id
  | skips _ _ _ _ ih => exact ih
  | issues _ _ _ _ ih => exact (State.issueHead_staysOut _ _ (State.leaveTagWait _ _)).trans ih

/-! ## A tag that is waited for -/

/-- The tag is the only free one, and r, at the head of its queue at x, is the first that may take it. -/
structure State.TagAwaited (x tag : Nat) (r : Request) (u : State) : Prop where
  first : ∃ order, u.mru.tagWait = x :: order
  head : ∃ rest, (u.mru.pos x).queue = r :: rest
  may : u.MayIssue x
  free : ∀ k, k < 256 → (k ∈ tagsOf u.mru.records ↔ k ≠ tag)

section Awaited

variable {x tag : Nat} {r : Request} (htag : r.tag = none)

theorem State.TagAwaited.waiting {u : State} (h : State.TagAwaited x tag r u) : u.mru.tagWait ≠ [] := by
  obtain ⟨order, ho⟩ := h.first
  rw [ho]
  exact List.cons_ne_nil _ _

/-- Another position leaves the order, or joins it behind. -/
theorem State.TagAwaited.of_others {u v : State} (h : State.TagAwaited x tag r u) (hnow : v.now = u.now)
    (hpos : v.mru.pos x = u.mru.pos x) (hlimit : v.mru.paceLimit = u.mru.paceLimit)
    (hwindow : v.mru.paceWindow = u.mru.paceWindow) (hfirst : ∃ order, v.mru.tagWait = x :: order)
    (htags : ∀ k, k ∈ tagsOf v.mru.records ↔ k ∈ tagsOf u.mru.records) : State.TagAwaited x tag r v := by
  obtain ⟨-, head, may, free⟩ := h
  refine ⟨hfirst, by rwa [hpos], ?_, fun k hk => (htags k).trans (free k hk)⟩
  rw [State.MayIssue, hpos, hnow, hlimit, hwindow]
  exact may

/-- Another position's decision takes no free tag (R139). -/
theorem State.TagAwaited.decided {y : Nat} (hy : y ≠ x) {u t : State} (hd : State.Decided y u t)
    (h : State.TagAwaited x tag r u) : State.TagAwaited x tag r t := by
  have left {u : State} (h : State.TagAwaited x tag r u) : ∃ order, u.mru.tagWait.erase y = x :: order := by
    obtain ⟨order, ho⟩ := h.first
    rw [ho]
    exact ⟨order.erase y, List.erase_cons_tail (by simpa using hy.symm)⟩
  have expiry {u : State} (h : State.TagAwaited x tag r u) (e : Option Nat) :
      State.TagAwaited x tag r ((u.leaveTagWait y).setExpiry y e) :=
    h.of_others rfl (Mru.pos_updPos_other hy.symm _ _) rfl rfl (left h) fun k => State.mem_tags_setExpiry
  induction hd with
  | emptied _ => exact expiry h none
  | full _ _ => exact h.of_others rfl rfl rfl rfl (left h) fun _ => .rfl
  | paced _ _ _ _ => exact expiry h _
  | pacedTagless _ _ _ _ => exact h.of_others rfl rfl rfl rfl (left h) fun _ => .rfl
  | waits _ _ _ _ =>
    refine h.of_others rfl rfl rfl rfl ?_ fun _ => .rfl
    obtain ⟨order, ho⟩ := h.first
    rw [State.joinTagWait_eq_record]
    dsimp only
    split
    · exact ⟨order, ho⟩
    · exact ⟨order ++ [y], by rw [ho]; rfl⟩
  | @issues u t q rest tag' hq hmay htag' _ ih =>
    refine ih ?_
    rcases htag' with hown | ⟨-, ho, -⟩
    · have hcarried : tag' ∈ tagsOf u.mru.records := mem_tagsOf.2 ⟨q, Mru.mem_records.2 (.inl ⟨y, by
        rw [PosState.live, hq]
        exact List.mem_cons_self⟩), hown⟩
      refine h.of_others ?_ (State.issueHead_other hy.symm tag' u) ?_ ?_ ?_ fun k => ?_
      · rw [State.issueHead_of_cons hq]
      · rw [State.issueHead_of_cons hq]
      · rw [State.issueHead_of_cons hq]
      · rw [State.issueHead_of_cons hq]
        exact left h
      · rw [State.mem_tags_issueHead hq (.inl hown)]
        exact ⟨fun hk => hk.elim id fun hk => hk ▸ hcarried, .inl⟩
    · exact absurd ho h.waiting

include htag

/-- What is submitted meanwhile, at x itself or elsewhere, does not take the tag (log 26). -/
theorem State.TagAwaited.submit {u : State} (h : State.TagAwaited x tag r u) {q : Request} (hq : q.tag = none) :
    State.TagAwaited x tag r (u.submit q) := by
  have htags (k : Nat) : k ∈ tagsOf (u.mru.updPos q.position fun p => { p with queue := p.queue ++ [q] }).records ↔
      k ∈ tagsOf u.mru.records := by
    have hlive (p : PosState) : tagsOf ({ p with queue := p.queue ++ [q] } : PosState).live = tagsOf p.live := by
      simp [PosState.live, tagsOf, hq]
    by_cases hx : q.position < u.mru.positions.length
    · rw [Mru.mem_tags_updPos hx, Mru.mem_tags hx, hlive]
    · rw [Mru.updPos_of_le (Nat.not_lt.1 hx)]
  have hdecided := State.issueDecision_decided q.position (u.updPos q.position fun p => { p with queue := p.queue ++ [q] })
  by_cases hx : q.position = x
  · subst hx
    obtain ⟨first, ⟨rest, hhead⟩, may, free⟩ := h
    have hpos := Mru.pos_updPos_self (Mru.lt_of_queue hhead) fun p => { p with queue := p.queue ++ [q] }
    have hjoined : State.TagAwaited q.position tag r (u.updPos q.position fun p => { p with queue := p.queue ++ [q] }) := by
      refine ⟨first, ⟨rest ++ [q], ?_⟩, ?_, fun k hk => (htags k).trans (free k hk)⟩
      · exact (congrArg PosState.queue hpos).trans (by rw [hhead]; rfl)
      · unfold State.MayIssue
        rw [show (u.updPos q.position fun p => { p with queue := p.queue ++ [q] }).mru.pos q.position = _ from hpos]
        exact may
    obtain ⟨rest', hhead'⟩ := hjoined.head
    have hstays := hdecided.of_waiting hhead' htag hjoined.may (.inl hjoined.waiting)
    obtain ⟨order, ho⟩ := first
    have hfirst : (u.updPos q.position fun p => { p with queue := p.queue ++ [q] }).mru.tagWait = q.position :: order := ho
    rw [State.joinTagWait_eq_record, hfirst, if_pos List.mem_cons_self, ← hfirst] at hstays
    rw [State.submit, hstays]
    exact hjoined
  · refine State.TagAwaited.decided hx hdecided (h.of_others rfl ?_ rfl rfl h.first htags)
    exact Mru.pos_updPos_other (Ne.symm hx) _ _

theorem State.TagAwaited.submits {u t : State} (h : State.TagAwaited x tag r u) (hs : u.Submits t) : State.TagAwaited x tag r t :=
  hs.keeps (fun _ _ hq hu => hu.submit htag hq)
    (fun u v hmru hnow hu => hu.of_others hnow (by rw [hmru]) (by rw [hmru]) (by rw [hmru]) (by rw [hmru]; exact hu.first)
      fun _ => by rw [hmru]) h

omit htag in
theorem State.TagAwaited.lowestFree {u : State} (h : State.TagAwaited x tag r u) (hk : tag < 256) : u.LowestFree tag := by
  refine lowestFreeOf_iff.2 ⟨⟨hk, fun hmem => (h.free tag hk).1 hmem rfl⟩, fun j hj => ?_⟩
  exact (h.free j (hj.trans hk)).2 (Nat.ne_of_lt hj)

/-- The service gives the tag to r. -/
theorem State.TagAwaited.served {u : State} (h : State.TagAwaited x tag r u) (hk : tag < 256) :
    u.issuedAs r tag ∈ (u.serveTagWait.mru.pos x).outstanding := by
  have hfree := h.lowestFree hk
  obtain ⟨⟨order, ho⟩, ⟨rest, hq⟩, hmay, -⟩ := h
  rw [u.serveTagWait_served.unique (.issues ho hfree ⟨⟨r, rest, hq, htag⟩, hmay⟩ (State.serveTagWait_served _))]
  refine (State.serveTagWait_served _).staysOut x _ ?_
  rw [State.issueHead_pos (s := u.leaveTagWait x) hq]
  exact List.mem_append_right _ (List.mem_singleton.2 rfl)

omit htag in
/-- No submission changes a setting. -/
theorem State.Submits.timeout {s t : State} (h : s.Submits t) : t.mru.timeout = s.mru.timeout :=
  h.keeps (P := fun t => t.mru.timeout = s.mru.timeout)
    (fun u q _ hu => (State.issueDecision_issuedAt q.position _).issued.timeout.trans hu) (fun _ _ hmru _ hu => by rw [hmru, hu]) rfl

/-- Once its owner has been told, and has submitted what it may, r has the tag, and keeps it through what follows. -/
theorem State.TagAwaited.issued {u v t : State} (h : State.TagAwaited x tag r u) (hk : tag < 256) (hsubmits : u.Submits v)
    (hstays : v.serveTagWait.StaysOut t) : u.issuedAs r tag ∈ (t.mru.pos x).outstanding := by
  obtain ⟨-, hnow, -⟩ := hsubmits.kept
  have hsame : v.issuedAs r tag = u.issuedAs r tag := by rw [State.issuedAs, hnow, hsubmits.timeout]; rfl
  rw [← hsame]
  exact hstays x _ ((h.submits htag hsubmits).served htag hk)

end Awaited

/-! ## The two ways in which the tag becomes free (R139) -/

/-- Of tags that differ, one that has left is free, and the others are carried as before. -/
theorem free_of_perm {l l' : List Request} {q : Request} {tag : Nat} (honce : (l.filterMap (·.tag)).Nodup) (hq : q.tag = some tag)
    (hperm : l.Perm (q :: l')) (hall : ∀ k < 256, ∃ q ∈ l, q.tag = some k) (k : Nat) (hk : k < 256) : k ∈ tagsOf l' ↔ k ≠ tag := by
  have htags := tagsOf_perm hperm
  rw [show tagsOf (q :: l') = tag :: tagsOf l' from List.filterMap_cons_some hq] at htags
  obtain ⟨hnew, -⟩ := List.nodup_cons.1 (htags.nodup_iff.1 honce)
  refine ⟨fun hmem he => hnew (he ▸ hmem), fun hne => ?_⟩
  exact (List.mem_cons.1 (htags.mem_iff.1 (mem_tagsOf.2 (hall k hk)))).resolve_left hne

section Frees

variable {s : State} {x tag : Nat} {order : List Nat} {r : Request} {rest : List Request} (honce : s.TagsHeldOnce)
  (hall : s.NoTagFree) (ho : s.mru.tagWait = x :: order) (hq : (s.mru.pos x).queue = r :: rest) (hmay : s.MayIssue x)

include honce hall ho hq hmay

theorem State.tagAwaited_of_completed {q : Request} (hfind : s.mru.findOutstanding tag = some q) (count : Nat) :
    State.TagAwaited x tag r ((s.leaveOutstanding q.position tag).setTimeouts q.position count) := by
  have hperm := State.leaveOutstanding_records honce hfind
  have hleft := free_of_perm honce.2.2 (Mru.mem_outstanding_of_find hfind).1 hperm hall
  have htags (k : Nat) : k ∈ tagsOf ((s.leaveOutstanding q.position tag).setTimeouts q.position count).mru.records ↔
      k ∈ tagsOf (s.leaveOutstanding q.position tag).mru.records := by
    generalize s.leaveOutstanding q.position tag = v
    show k ∈ tagsOf (v.mru.updPos q.position fun p => { p with timeouts := count }).records ↔ _
    by_cases hx : q.position < v.mru.positions.length
    · rw [Mru.mem_tags_updPos hx, Mru.mem_tags hx]
      rfl
    · rw [Mru.updPos_of_le (Nat.not_lt.1 hx)]
  have hpos : ∃ out c, (((s.leaveOutstanding q.position tag).setTimeouts q.position count).mru.pos x) =
      { s.mru.pos x with outstanding := out, timeouts := c } ∧ out.length ≤ (s.mru.pos x).outstanding.length := by
    by_cases hx : x = q.position
    · subst hx
      have hlt := Mru.lt_of_queue hq
      have hleft := Mru.pos_updPos_self hlt fun p => { p with outstanding := p.outstanding.filter fun q => q.tag != some tag }
      refine ⟨_, _, (Mru.pos_updPos_self ((Mru.length_updPos ..).symm ▸ hlt) fun p => { p with timeouts := count }).trans
        (congrArg (fun p : PosState => { p with timeouts := count }) hleft), List.length_filter_le _ _⟩
    · exact ⟨_, _, (Mru.pos_updPos_other hx _ _).trans (Mru.pos_updPos_other hx _ _), Nat.le_refl _⟩
  obtain ⟨out, c, hpos, hlen⟩ := hpos
  refine ⟨⟨order, ho⟩, ⟨rest, by rw [hpos, ← hq]⟩, ?_, fun k hk => (htags k).trans (hleft k hk)⟩
  unfold State.MayIssue
  rw [hpos]
  exact ⟨Nat.lt_of_le_of_lt hlen hmay.1, hmay.2⟩

theorem State.tagAwaited_of_removed {q : Request} (hquar : q ∈ s.mru.quarantined) (hqt : q.tag = some tag) :
    State.TagAwaited x tag r (s.removeQuarantined tag) := by
  obtain ⟨-, -, honce⟩ := honce
  have hsub : (s.mru.quarantined.filterMap (·.tag)).Nodup := honce.sublist ((List.sublist_append_right _ _).filterMap _)
  have hperm : s.mru.records.Perm (q :: (s.removeQuarantined tag).mru.records) :=
    ((perm_cons_filter_tag hsub hquar hqt).append_left _).trans List.perm_middle
  exact ⟨⟨order, ho⟩, ⟨rest, hq⟩, hmay, free_of_perm honce hqt hperm hall⟩

/-- A completion that frees the only free tag gives it to the first that waits. -/
theorem State.takeCompletion_issues (htag : r.tag = none) (hk : tag < 256) {q : Request} {n : Fin 4}
    (hfind : s.mru.findOutstanding tag = some q) (howner : q.owner = some (.lane n)) (mask : Mask) (data : List Byte) :
    s.issuedAs r tag ∈ ((s.takeCompletion tag 1 mask data).mru.pos x).outstanding := by
  have hland := s.landData_eq q data
  rw [State.takeCompletion_of_outstanding (st := .good) rfl hfind, hland]
  have hawaited := State.tagAwaited_of_completed (s := { s with mem := (s.landData q data).mem }) honce hall ho hq hmay hfind 0
  exact hawaited.issued htag hk (State.settle_submits howner .good _)
    ((State.issueDecision_staysOut q.position _).trans (State.decideAll_staysOut _))

/-- The end of a quarantine that frees the only free tag gives it to the first that waits. -/
theorem State.endQuarantine_issues (htag : r.tag = none) (hk : tag < 256) (hquar : ∃ q ∈ s.mru.quarantined, q.tag = some tag) :
    s.issuedAs r tag ∈ ((s.endQuarantine tag).mru.pos x).outstanding := by
  obtain ⟨q, hmem, hqt⟩ := hquar
  exact (State.tagAwaited_of_removed honce hall ho hq hmay hmem hqt).issued htag hk (State.reportQuarantineEnd_submits _)
    (State.decideAll_staysOut _)

end Frees

/-- A quarantine whose end stands is that of a quarantined request. -/
theorem Mru.exists_quarantined_of_standing {m : Mru} {tag d : Nat} (h : m.standing (.quarantineEnd tag) = some d) :
    ∃ q ∈ m.quarantined, q.tag = some tag := by
  unfold Mru.standing at h
  split at h
  · cases h
  · rename_i a e hfind
    have he : e = .quarantineEnd tag := by simpa using List.find?_some hfind
    have hmem := List.mem_of_find?_eq_some hfind
    subst he
    have timed {make : Nat → TimeEvent} {q : Request} (hq : q.timed make = some (a, .quarantineEnd tag)) :
        ∃ t, q.tag = some t ∧ make t = .quarantineEnd tag := by
      unfold Request.timed at hq
      split at hq
      · rename_i t _ ht _
        exact ⟨t, ht, congrArg Prod.snd (Option.some.inj hq)⟩
      · cases hq
    rw [Mru.timeEvents, List.mem_append, List.mem_append] at hmem
    rcases hmem with (hmem | hmem) | hmem
    · obtain ⟨q, -, hq⟩ := List.mem_filterMap.1 hmem
      obtain ⟨t, -, ht⟩ := timed hq
      cases ht
    · obtain ⟨q, hquar, hq⟩ := List.mem_filterMap.1 hmem
      obtain ⟨t, hqt, ht⟩ := timed hq
      exact ⟨q, hquar, hqt.trans (congrArg some (TimeEvent.quarantineEnd.inj ht))⟩
    · obtain ⟨y, -, hy⟩ := List.mem_filterMap.1 hmem
      obtain ⟨e, -, he⟩ := Option.map_eq_some_iff.1 hy
      cases congrArg Prod.snd he

theorem Mru.exists_quarantined_of_find {m : Mru} {tag : Nat} (h : m.findQuarantined tag ≠ none) :
    ∃ q ∈ m.quarantined, q.tag = some tag := by
  obtain ⟨q, hq⟩ := Option.ne_none_iff_exists'.1 h
  exact ⟨q, List.mem_of_find?_eq_some hq, by simpa using List.find?_some hq⟩

/-- Settles O49: decisions by what they find, the service by who is oldest, and a tag that becomes free by what waits for it. -/
theorem tagWaitServedInOrder : Obligations.TagWaitServedInOrder := by
  refine ⟨fun s x => ⟨fun r rest hq htag hmay hnone => ?_, (s.issueDecision_decided x).leaves⟩,
    fun s h => State.serveTagWait_of_served h, fun s x order k ho hnew hfree => ⟨fun r rest hq htag hmay => ?_, fun hno => ?_⟩, ?_⟩
  · rw [(s.issueDecision_decided x).of_waiting hq htag hmay hnone.symm, State.joinTagWait_eq_record]
  · exact State.serveTagWait_issues ho hfree hnew hq htag hmay
  · refine State.serveTagWait_skips ho hfree ?_
    rintro ⟨⟨r, rest, hq, htag⟩, hmay⟩
    rcases hno with he | hno | ⟨r', rest', hq', htag'⟩
    · rw [hq] at he
      cases he
    · exact hno hmay
    · obtain ⟨rfl, -⟩ := List.cons.inj (hq.symm.trans hq')
      exact htag' htag
  · intro tag position mask s i now x order r rest honce hall ho hx hq htag hmay hi
    rcases hi with ⟨rfl, rfl, ⟨q, n, hfind, howner⟩ | ⟨hout, hquar⟩⟩ | ⟨rfl, d, hd, rfl⟩
    · exact ⟨_, exec_completion _ _ _ _ _ _,
        State.takeCompletion_issues (s := s.beginEvent) honce hall ho hq hmay htag tag.isLt hfind howner _ _⟩
    · obtain ⟨mem, hexec⟩ := exec_quarantineEnds (status := 1) (data := []) (.inl ⟨rfl, by decide, by decide, rfl, hout, hquar⟩)
      exact ⟨_, hexec, State.endQuarantine_issues (s := { s with mem := mem, now := s.now, sent := [] }) honce hall ho hq hmay htag
        tag.isLt (Mru.exists_quarantined_of_find hquar)⟩
    · obtain ⟨mem, hexec⟩ := exec_quarantineEnds (status := 1) (position := 0) (mask := 0) (data := []) (.inr ⟨rfl, d, hd, rfl⟩)
      exact ⟨_, hexec, State.endQuarantine_issues (s := { s with mem := mem, now := max s.now d, sent := [] }) honce hall ho hq hmay
        htag tag.isLt (Mru.exists_quarantined_of_standing hd)⟩

end Sys2Proof.Machine
end

section
/-! Settings: SET_TIMEOUT, SET_HEAT, SET_CHECK, SET_PACE with the decisions it makes, and SET_LANES with its pass. -/

namespace Sys2Proof.Machine

/-! ## The decisions of SET_PACE (R141) -/

/-- One turn of `State.decideAll`: a position whose queue is not empty decides. -/
def State.decideAt (s : State) (x : Nat) : State := if (s.mru.pos x).queue.isEmpty then s else s.issueDecision x

theorem State.decideAll_eq (s : State) : s.decideAll = (List.range 16).foldl State.decideAt s := rfl

theorem State.decideAt_of_empty {s : State} {x : Nat} (h : (s.mru.pos x).queue = []) : s.decideAt x = s := by
  rw [State.decideAt, h]
  rfl

theorem State.decideAt_of_queued {s : State} {x : Nat} (h : (s.mru.pos x).queue ≠ []) : s.decideAt x = s.issueDecision x :=
  if_neg (by simpa using h)

theorem State.decideAt_other {s : State} {x y : Nat} (h : y ≠ x ∨ (s.mru.pos y).queue = []) :
    (s.decideAt x).mru.pos y = s.mru.pos y := by
  by_cases hq : (s.mru.pos x).queue = []
  · rw [State.decideAt_of_empty hq]
  · rw [State.decideAt_of_queued hq]
    refine (s.issueDecision_issuedAt x).others y (h.elim id fun he hy => ?_)
    rw [hy] at he
    exact hq he

/-- A position with an empty queue stays as it was. -/
theorem State.decideAll_unqueued {s : State} {x : Nat} (h : (s.mru.pos x).queue = []) :
    s.decideAll.mru.pos x = s.mru.pos x := by
  rw [State.decideAll_eq]
  induction List.range 16 generalizing s with
  | nil => rfl
  | cons y rest ih =>
    have hkept := State.decideAt_other (x := y) (.inr h)
    exact (ih (s := s.decideAt y) (by rw [hkept, h])).trans hkept

/-- The positions of the list with something queued decide, one after another. -/
theorem State.foldl_decideAt_run {l : List Nat} (hl : l.Nodup) {s : State} (hs : s.TagOrderServed) :
    DecisionsRun (l.filter fun x => decide ((s.mru.pos x).queue ≠ [])) s (l.foldl State.decideAt s) := by
  induction l generalizing s with
  | nil => rfl
  | cons x rest ih =>
    obtain ⟨hx, hrest⟩ := List.nodup_cons.1 hl
    have hsame : (rest.filter fun y => decide (((s.decideAt x).mru.pos y).queue ≠ [])) =
        rest.filter fun y => decide ((s.mru.pos y).queue ≠ []) :=
      List.filter_congr fun y hy => by rw [State.decideAt_other (.inl (ne_of_mem_of_not_mem hy hx))]
    by_cases hq : (s.mru.pos x).queue = []
    · have hrun := ih hrest hs
      rw [List.filter_cons_of_neg (by simpa using hq), List.foldl_cons, State.decideAt_of_empty hq]
      exact hrun
    · have hmade := State.issueDecision_made (x := x) hs
      have hrun := ih hrest ((s.issueDecision_limits x).order hs)
      rw [← State.decideAt_of_queued hq] at hmade hrun
      rw [List.filter_cons_of_pos (by simpa using hq), List.foldl_cons]
      rw [hsame] at hrun
      exact ⟨_, hmade, hrun⟩

/-- The decisions change no setting. -/
theorem State.decideAll_pace (s : State) :
    s.decideAll.mru.paceLimit = s.mru.paceLimit ∧ s.decideAll.mru.paceWindow = s.mru.paceWindow := by
  have decided (s : State) (x : Nat) : (s.decideAt x).mru.paceLimit = s.mru.paceLimit ∧
      (s.decideAt x).mru.paceWindow = s.mru.paceWindow := by
    unfold State.decideAt
    split
    · exact ⟨rfl, rfl⟩
    · obtain ⟨issued, hissued⟩ := (s.issueDecision_decided x).exists_issued
      rw [hissued.frame]
      exact ⟨rfl, rfl⟩
  rw [State.decideAll_eq]
  induction List.range 16 generalizing s with
  | nil => exact ⟨rfl, rfl⟩
  | cons x rest ih =>
    obtain ⟨hlimit, hwindow⟩ := decided s x
    obtain ⟨hlimit', hwindow'⟩ := ih (s.decideAt x)
    exact ⟨hlimit'.trans hlimit, hwindow'.trans hwindow⟩

/-- Every position with something queued has decided, and nothing else has happened. -/
structure State.AllDecided (s t : State) : Prop where
  issued : s.Issued t
  paceLimit : t.mru.paceLimit = s.mru.paceLimit
  paceWindow : t.mru.paceWindow = s.mru.paceWindow
  unqueued : ∀ x, (s.mru.pos x).queue = [] → t.mru.pos x = s.mru.pos x
  runs : s.TagOrderServed → ∃ order : List Nat, order.Nodup ∧
    (∀ x, x ∈ order ↔ x < 16 ∧ (s.mru.pos x).queue ≠ []) ∧ DecisionsRun order s t

theorem State.decideAll_allDecided (s : State) : s.AllDecided s.decideAll := by
  obtain ⟨hlimit, hwindow⟩ := s.decideAll_pace
  refine ⟨s.decideAll_issued, hlimit, hwindow, fun x hx => State.decideAll_unqueued hx, fun hs =>
    ⟨_, (List.nodup_range (n := 16)).filter fun x => decide ((s.mru.pos x).queue ≠ []), fun x => ?_, ?_⟩⟩
  · rw [List.mem_filter, List.mem_range, decide_eq_true_iff]
  · rw [State.decideAll_eq]
    exact State.foldl_decideAt_run List.nodup_range hs

/-! ## The commands -/

section Settings

variable {s : State} (hs : s.HostReady) (tag : BitVec 16)

include hs

/-- SET_HEAT brings the value to 255 at most (R54). -/
theorem exec_setHeat (v : BitVec 16) (h : Nat) (hh : h = if 255 < v.toNat then 255 else v.toNat) :
    Becomes (exec (.setHeat tag v) s) (State.respond tag { code := .done, reason := .none, payload := leBytes 1 h }
      { s with rgt := { s.rgt with heatThreshold := h } }) := by
  have hmin : min v.toNat 255 = h := by
    rw [hh]
    split <;> omega
  have hrun : runCommand (.setHeat v.toNat) s.beginEvent =
      (({ s with rgt := { s.rgt with heatThreshold := h } } : State).beginEvent, .done (leBytes 1 h)) := by
    simp only [runCommand, takeSetHeat, hmin]
    rfl
  exact becomes_of_runCommand hs (c := .setHeat v.toNat) v.isLt tag hrun

/-- SET_CHECK takes 0 and 1, and refuses any other value, in the states that take it (R173). -/
theorem exec_setCheck (setting : Byte) (hst : s.ses.state ∈ acceptedIn (.setCheck setting.toNat)) :
    (setting.toNat ≤ 1 → Becomes (exec (.setCheck tag setting) s)
      (State.respond tag { code := .done, reason := .none, payload := [setting] }
        { s with rcd := { s.rcd with check := setting == 1 } })) ∧
    (1 < setting.toNat → Becomes (exec (.setCheck tag setting) s)
      (s.respond tag { code := .refusedRange, reason := .none, payload := [] })) := by
  have hcan : s.beginEvent.ses.state.canSetCheck = true := by
    revert hst
    show s.ses.state ∈ [SessionState.absent, .ready, .paused, .complete] → s.ses.state.canSetCheck = true
    cases s.ses.state <;> decide
  have hbytes : leBytes 1 setting.toNat = [setting] := by simp [leBytes]
  have hon : (setting.toNat == 1) = (setting == 1) := by
    rw [Bool.eq_iff_iff, beq_iff_eq, beq_iff_eq]
    exact ⟨fun h => BitVec.eq_of_toNat_eq h, fun h => by rw [h]; rfl⟩
  refine ⟨fun h => ?_, fun h => ?_⟩
  · have hrun : runCommand (.setCheck setting.toNat) s.beginEvent =
        (({ s with rcd := { s.rcd with check := setting == 1 } } : State).beginEvent, .done [setting]) := by
      simp only [runCommand, takeSetCheck, hcan, Bool.not_true, Bool.false_eq_true, if_false, if_neg (show ¬2 ≤ setting.toNat by omega),
        hbytes, hon]
      rfl
    exact becomes_of_runCommand hs (c := .setCheck setting.toNat) setting.isLt tag hrun
  · have hrun : runCommand (.setCheck setting.toNat) s.beginEvent = (s.beginEvent, .refuse .refusedRange) := by
      simp only [runCommand, takeSetCheck, hcan, Bool.not_true, Bool.false_eq_true, if_false, if_pos (show 2 ≤ setting.toNat by omega)]
    exact becomes_of_runCommand hs (c := .setCheck setting.toNat) setting.isLt tag hrun

/-- SET_PACE: every position with something queued decides under the new pace (R141). -/
theorem exec_setPace (w : Byte) (window : BitVec 16) :
    let w' := clampTo 1 32 w.toNat
    let window' := clampTo 1 1000 window.toNat
    let r : Reply := .done (leBytes 1 w' ++ leBytes 2 window')
    ∃ t, State.AllDecided { s with mru := { s.mru with paceLimit := w', paceWindow := window' }, sent := [] } t ∧
      exec (.setPace tag w window) s = .next (t.respond tag r) ∧ Responded s (t.respond tag r) tag r := by
  intro w' window' r
  have hrun : runCommand (.setPace w.toNat window.toNat) s.beginEvent =
      (({ s with mru := { s.mru with paceLimit := w', paceWindow := window' }, sent := [] } : State).decideAll, r) := rfl
  have hall := State.decideAll_allDecided { s with mru := { s.mru with paceLimit := w', paceWindow := window' }, sent := [] }
  generalize State.decideAll _ = t at hrun hall
  exact ⟨t, hall, exec_of_runCommand hs (c := .setPace w.toNat window.toNat) ⟨w.isLt, window.isLt⟩ tag hrun⟩

/-- SET_LANES where no lane is added, or none is at work (R130). -/
theorem exec_setLanes_stays (v : Byte) (hno : s.ses.state ≠ .running ∨ clampTo 1 4 v.toNat ≤ s.ses.laneCount) :
    Becomes (exec (.setLanes tag v) s) (State.respond tag (.done (leBytes 1 (clampTo 1 4 v.toNat)))
      { s with ses := { s.ses with laneCount := clampTo 1 4 v.toNat } }) := by
  have hno' : ¬(s.ses.state = .running ∧ s.ses.laneCount < clampTo 1 4 v.toNat) := fun h =>
    hno.elim (fun hne => hne h.1) (fun hle => Nat.not_lt.2 hle h.2)
  have hrun : runCommand (.setLanes v.toNat) s.beginEvent =
      (({ s with ses := { s.ses with laneCount := clampTo 1 4 v.toNat } } : State).beginEvent,
        .done (leBytes 1 (clampTo 1 4 v.toNat))) :=
    Prod.ext (if_neg hno') rfl
  exact becomes_of_runCommand hs (c := .setLanes v.toNat) v.isLt tag hrun

/-- SET_LANES that adds lanes in RUNNING makes a pass (R130, R67). -/
theorem exec_setLanes_rises (v : Byte) (hst : s.ses.state = .running) (hlt : s.ses.laneCount < clampTo 1 4 v.toNat) :
    let r : Reply := .done (leBytes 1 (clampTo 1 4 v.toNat))
    let t := ({ s with ses := { s.ses with laneCount := clampTo 1 4 v.toNat }, sent := [] } : State).assignmentPass
    exec (.setLanes tag v) s = .next (t.respond tag r) ∧ Responded s (t.respond tag r) tag r :=
  exec_of_runCommand hs (c := .setLanes v.toNat) v.isLt tag (Prod.ext (if_pos ⟨hst, hlt⟩) rfl)

end Settings

/-- Settles O27: each command by what it makes of its clamped value. -/
theorem settingsTakenAndClamped : Obligations.SettingsTakenAndClamped := by
  refine ⟨fun tag v setting s hs => ⟨?_, exec_setHeat hs tag v _ rfl, exec_setCheck hs tag setting⟩,
    fun tag w window s hs => ?_, fun tag v s hs => ⟨exec_setLanes_stays hs tag v, fun hst hlt => ?_⟩⟩
  · exact becomes_of_runCommand hs (c := .setTimeout v.toNat) v.isLt tag rfl
  · obtain ⟨t, hall, hexec, hresp⟩ := exec_setPace hs tag w window
    obtain ⟨⟨⟨m, o, rfl⟩, hquarantined, -, htimeout, -, htimeouts, -⟩, hlimit, hwindow, hunqueued, hruns⟩ := hall
    refine ⟨_, hexec, hresp, ⟨rfl, rfl, rfl⟩, hlimit, hwindow, htimeout, hquarantined, htimeouts, hunqueued, fun ho => ?_,
      rfl, rfl, rfl, rfl, rfl, rfl, rfl, rfl, rfl, rfl, rfl, rfl⟩
    obtain ⟨order, honce, hmem, hrun⟩ := hruns ho
    exact ⟨order, _, honce, hmem, hrun, rfl⟩
  · obtain ⟨hexec, hresp⟩ := exec_setLanes_rises hs tag v hst hlt
    have hpassed := State.assignmentPass_passed
      { s with ses := { s.ses with laneCount := clampTo 1 4 v.toNat }, sent := [] }
    dsimp only at hexec hresp
    generalize State.assignmentPass _ = t at hexec hresp hpassed
    have heligible (n : Fin 4) :
        ({ s with ses := { s.ses with laneCount := clampTo 1 4 v.toNat }, sent := [] } : State).eligible n = true ↔
          n.val < clampTo 1 4 v.toNat ∧ s.lanes[n].stage = .idle := by
      rw [State.eligible_iff]
      exact ⟨fun ⟨hi, _, hn⟩ => ⟨hn, hi⟩, fun ⟨hn, hi⟩ => ⟨hi, hst, hn⟩⟩
    obtain ⟨hat, -, hruns, hserved, hkept⟩ := hpassed
    have hnext (g : Rgt) : t.nextBatchOf g = g.nextBatch s.profile.rs (s.ses.batchSize.getD 0) := hat.nextBatchOf g
    obtain ⟨⟨g, m, o, l, k, b, rfl⟩, -⟩ := hat
    refine ⟨_, hexec, rfl, hresp, ⟨rfl, rfl, rfl⟩, fun n hn hi => ?_, passRuns_congr (fun n _ => heligible n) hruns,
      fun n hn => hkept n ?_⟩
    · rw [← hnext]
      exact hserved n (List.mem_finRange (n := 4) n) ((heligible n).2 ⟨hn, hi⟩)
    · rw [← Bool.not_eq_true, heligible]
      rcases hn with hn | hn | hn
      · exact .inl fun h => absurd h.1 (Nat.not_lt.2 hn)
      · exact .inl fun h => hn h.2
      · exact .inr hn

end Sys2Proof.Machine
end

section
/-! A lane's READ that settles, and a read that is sent again (R118, R120, R143, R144, R146). -/

namespace Sys2Proof.Machine

/-! ## Masks (R144, R209) -/

/-- The bytes of a field, each by its place. -/
theorem leBytes_eq_map (w v : Nat) : leBytes w v = (List.range w).map fun i => BitVec.ofNat 8 (v / 256 ^ i) := by
  induction w generalizing v with
  | zero => rfl
  | succ w ih =>
    rw [leBytes, ih, List.range_succ_eq_map, List.map_cons, List.map_map, Nat.pow_zero, Nat.div_one]
    refine congrArg _ (List.map_congr_left fun i _ => ?_)
    rw [Nat.div_div_eq_div_mul, ← Nat.pow_succ', Function.comp]

theorem bytes64_eq (v : BitVec 64) : bytes64 v = leBytes 8 v.toNat := by
  rw [leBytes_eq_map, bytes64]
  refine List.map_congr_left fun i _ => BitVec.eq_of_toNat_eq ?_
  rw [BitVec.extractLsb'_toNat, BitVec.toNat_ofNat, Nat.shiftRight_eq_div_pow, Nat.pow_mul]

/-- The mask of a completion is the one its bytes spell. -/
theorem leNat_bytes64 (v : BitVec 64) : BitVec.ofNat 64 (leNat (bytes64 v)) = v := by
  rw [bytes64_eq, leNat_leBytes (w := 8) v.isLt, BitVec.ofNat_toNat, BitVec.setWidth_eq]

/-- A mask in strip block numbers (R144). -/
theorem Request.getLsbD_stripMask (r : Request) (mask : Mask) {j : Nat} (hj : j < 64) :
    (r.stripMask mask).getLsbD j = true ↔
      r.firstBlock ≤ j ∧ j - r.firstBlock < r.blocks ∧ mask.getLsbD (j - r.firstBlock) = true := by
  have hlow (k : Nat) (hk : k < 64) : (BitVec.ofNat 64 (2 ^ r.blocks - 1)).getLsbD k = decide (k < r.blocks) := by
    rw [BitVec.getLsbD_ofNat, decide_eq_true hk, Bool.true_and, Nat.testBit_two_pow_sub_one]
  simp only [Request.stripMask, BitVec.getLsbD_shiftLeft, BitVec.getLsbD_and, hlow _ (show j - r.firstBlock < 64 by omega), hj,
    decide_true, Bool.true_and, Bool.and_eq_true, Bool.not_eq_true', decide_eq_false_iff_not, decide_eq_true_eq, Nat.not_lt]
  tauto

/-! ## A cell (R118, R120) -/

/-- What one more settlement makes of a cell that is PENDING. -/
theorem ReadCell.settle_of_pending {c : ReadCell} (hc : c.status = .pending) (o : Settlement) :
    let union := match o with
      | .medium m => c.sawMask ||| m
      | _ => c.sawMask
    (c.left - 1 ≠ 0 → (c.settle o).status = .pending ∧ (c.settle o).left = c.left - 1) ∧
    (c.left - 1 = 0 → (c.settle o).status =
      if c.sawMissing = true ∨ o = .missing then .missing else if union ≠ 0 then .part union else .good) ∧
    (c.settle o).sawMask = union ∧ ((c.settle o).sawMissing = true ↔ c.sawMissing = true ∨ o = .missing) := by
  intro union
  have hgone : (c.sawMissing || o == .missing) = true ↔ c.sawMissing = true ∨ o = .missing := by
    rw [Bool.or_eq_true, beq_iff_eq]
  have hsettle : c.settle o =
      { status := if c.left - 1 ≠ 0 then .pending else if c.sawMissing || o == .missing then .missing
          else if union ≠ 0 then .part union else .good
        left := c.left - 1, sawMissing := c.sawMissing || o == .missing, sawMask := union } := by
    unfold ReadCell.settle
    exact if_pos hc
  rw [hsettle]
  refine ⟨fun h => ⟨if_pos h, rfl⟩, fun h => ?_, rfl, hgone⟩
  dsimp only
  rw [if_neg (not_not_intro h)]
  exact if_congr hgone rfl rfl

/-! ## A read that has left MRU -/

theorem State.landData_of_read {r : Request} (h : r.kind.isWrite = false) (data : List Byte) (s : State) :
    s.landData r data = s.writeMem (blockAddress r.buf r.firstBlock) (data.take (r.blocks * 4096)) := by
  rw [State.landData, h]
  rfl

theorem State.writeMem_landed (a : Nat) (bytes : List Byte) {s t : State} (h : t.mem = (s.writeMem a bytes).mem) :
    Landed s t a bytes := by
  intro x
  rw [h]
  exact Memory.read_write s.mem a x bytes

/-- A read has left the outstanding set at the beginning of an event, which sets its position's timeout count to 0 or leaves it. -/
structure State.ReadLeft (r : Request) (tag : Nat) (zero : Prop) [Decidable zero] (s v : State) : Prop where
  only : ∃ m, v = { s with mru := m, sent := [] }
  quarantined : v.mru.quarantined = s.mru.quarantined
  timeouts : ∀ x, (v.mru.pos x).timeouts = if x = r.position ∧ zero then 0 else (s.mru.pos x).timeouts
  writeLeft : r.position < s.mru.positions.length → ∃ count, State.WriteLeft r tag count s v

section ReadLeft

variable {s : State} {r : Request} {tag : Nat} (hr : s.mru.findOutstanding tag = some r)

theorem State.leaveOutstanding_timeouts (x y tag : Nat) (s : State) :
    ((s.leaveOutstanding x tag).mru.pos y).timeouts = (s.mru.pos y).timeouts := by
  refine (congrArg PosState.timeouts (Mru.pos_updPos x y _ s.mru)).trans ?_
  split
  · rename_i h
    rw [h.1]
  · rfl

theorem State.setTimeouts_timeouts (x y count : Nat) (s : State) :
    ((s.setTimeouts x count).mru.pos y).timeouts =
      if y = x ∧ x < s.mru.positions.length then count else (s.mru.pos y).timeouts := by
  refine (congrArg PosState.timeouts (Mru.pos_updPos x y _ s.mru)).trans ?_
  split
  · rfl
  · rfl

include hr

theorem State.leaveOutstanding_readLeft {zero : Prop} [Decidable zero] (h : ¬zero) :
    State.ReadLeft r tag zero s (s.beginEvent.leaveOutstanding r.position tag) := by
  refine ⟨⟨_, rfl⟩, rfl, fun x => ?_, fun hx => ⟨_, State.leaveOutstanding_writeLeft hr hx⟩⟩
  rw [State.leaveOutstanding_timeouts, if_neg fun hc => h hc.2]
  rfl

theorem State.setTimeouts_readLeft {zero : Prop} [Decidable zero] (h : zero) :
    State.ReadLeft r tag zero s ((s.beginEvent.leaveOutstanding r.position tag).setTimeouts r.position 0) := by
  refine ⟨⟨_, rfl⟩, rfl, fun x => ?_, fun hx => ⟨_, (State.leaveOutstanding_writeLeft hr hx).setTimeouts hx 0⟩⟩
  rw [State.setTimeouts_timeouts, State.leaveOutstanding_timeouts]
  by_cases hx : x = r.position
  · subst hx
    refine Eq.trans ?_ (if_pos ⟨rfl, h⟩).symm
    split
    · rfl
    · rename_i hlt
      have hle : s.mru.positions.length ≤ r.position := Nat.not_lt.1 fun hlt' => hlt ⟨rfl, (Mru.length_updPos ..).symm ▸ hlt'⟩
      show (s.mru.pos r.position).timeouts = 0
      rw [Mru.pos_eq_reset hle]
      rfl
  · rw [if_neg fun hc => hx hc.1, if_neg fun hc => hx hc.1]
    rfl

end ReadLeft

/-- A read settles by GOOD, by MEDIUM, or by DEFER with its retries exhausted (R143, R144, R146). -/
theorem exec_readSettles {s : State} {r : Request} {tag status : Byte} {o : Settlement} {mask : Mask}
    (hr : s.mru.findOutstanding tag.toNat = some r) (hk : r.kind.isWrite = false)
    (hst : (status = 1 ∧ o = .good) ∨ (status = 2 ∧ o = .medium (r.stripMask mask)) ∨
      (status = 3 ∧ 7 ≤ r.defers ∧ o = .missing)) (position : Byte) (data : List Byte) :
    ∃ v, State.ReadLeft r tag.toNat (status ≠ 3)
        (s.writeMem (blockAddress r.buf r.firstBlock) (data.take (r.blocks * 4096))) v ∧
      exec (.completion tag status position (bytes64 mask) data) s = .next (v.endWith r.position (State.settle r o)) := by
  set landed := s.writeMem (blockAddress r.buf r.firstBlock) (data.take (r.blocks * 4096))
  have hland : s.beginEvent.landData r data = landed.beginEvent := State.landData_of_read hk data s.beginEvent
  have hr' : landed.mru.findOutstanding tag.toNat = some r := hr
  rcases hst with ⟨rfl, rfl⟩ | ⟨rfl, rfl⟩ | ⟨rfl, hd, rfl⟩
  · refine ⟨_, State.setTimeouts_readLeft hr' (by decide), ?_⟩
    rw [exec_completion, State.takeCompletion_of_outstanding (s := s.beginEvent) (st := .good) rfl hr, hland]
    rfl
  · refine ⟨_, State.setTimeouts_readLeft hr' (by decide), ?_⟩
    rw [exec_completion, State.takeCompletion_of_outstanding (s := s.beginEvent) (st := .medium) rfl hr, hland,
      State.completeRequest, State.completeMedium, hk, leNat_bytes64]
    rfl
  · refine ⟨_, State.leaveOutstanding_readLeft hr' (by decide), ?_⟩
    rw [exec_completion, State.takeCompletion_of_outstanding (s := s.beginEvent) (st := .defer) rfl hr, hland,
      State.completeRequest, State.completeDefer, hk, if_neg (Nat.not_lt.2 hd)]
    rfl

/-- The lane's record once its read has settled (R118). -/
def State.laneSettled (s : State) (n : Fin 4) (r : Request) (o : Settlement) : Lane :=
  { s.lanes[n] with
    outstanding := s.lanes[n].outstanding - 1
    reads := s.lanes[n].reads.modify (s.lanes[n].bufs.idxOf r.buf / s.profile.n) fun row =>
      row.modify r.position fun c => c.settle o }

/-- The last read of a lane in READING takes it to SOLVING (R118, R120). -/
theorem State.settle_read {s : State} {n : Fin 4} {r : Request} (hk : r.kind.isWrite = false) (ho : r.owner = some (.lane n))
    (hstage : s.lanes[n].stage = .reading) (o : Settlement) :
    s.settle r o = if s.lanes[n].outstanding - 1 = 0 then (s.updLane n fun _ => s.laneSettled n r o).enterSolving n
      else s.updLane n fun _ => s.laneSettled n r o := by
  have hsettle : s.settle r o = s.settleRead n r o := by simp [State.settle, hk, ho]
  rw [hsettle, State.settleRead, if_pos hstage]
  dsimp only
  rw [State.updLane_get_self]
  rfl

/-- Such a settlement touches the lane's record and, at the last read, its solve context. -/
structure State.ReadSettled (n : Fin 4) (r : Request) (o : Settlement) (s t : State) : Prop where
  only : ∃ lanes contexts, t = { s with lanes := lanes, rcd := { s.rcd with contexts := contexts } }
  others : ∀ m : Fin 4, m ≠ n → t.lanes[m] = s.lanes[m] ∧ t.rcd.contexts[m] = s.rcd.contexts[m]
  more : s.lanes[n].outstanding - 1 ≠ 0 → t.lanes[n] = s.laneSettled n r o ∧ t.rcd = s.rcd
  last : s.lanes[n].outstanding - 1 = 0 → t.lanes[n] = { s.laneSettled n r o with stage := .solving } ∧
    t.rcd.contexts[n] = some s.lanes[n].freshContext

theorem State.settle_readSettled {s : State} {n : Fin 4} {r : Request} (hk : r.kind.isWrite = false)
    (ho : r.owner = some (.lane n)) (hstage : s.lanes[n].stage = .reading) (o : Settlement) :
    State.ReadSettled n r o s (s.settle r o) := by
  set u := s.updLane n fun _ => s.laneSettled n r o
  have hself : u.lanes[n] = s.laneSettled n r o := State.updLane_get_self n _ s
  have hother (m : Fin 4) (hm : m ≠ n) : u.lanes[m] = s.lanes[m] := State.updLane_get_other (Ne.symm hm) _ s
  rw [State.settle_read hk ho hstage]
  split
  · rename_i hleft
    refine ⟨⟨_, _, rfl⟩, fun m hm => ⟨?_, ?_⟩, fun h => absurd hleft h, fun _ => ⟨?_, ?_⟩⟩
    · rw [State.enterSolving_lane, if_neg hm, hother m hm]
    · rw [State.enterSolving_context, if_neg hm]
      rfl
    · rw [State.enterSolving_lane, if_pos rfl, hself]
    · rw [State.enterSolving_context, if_pos rfl, hself]
      rfl
  · rename_i hleft
    exact ⟨⟨_, _, rfl⟩, fun m hm => ⟨hother m hm, rfl⟩, fun _ => ⟨hself, rfl⟩, fun h => absurd h hleft⟩

/-- What the settlement leaves, whatever is issued after it. -/
theorem State.ReadLeft.settled {zero : Prop} [Decidable zero] {s v : State} {r : Request} {tag : Nat} {n : Fin 4}
    (h : State.ReadLeft r tag zero s v) (htag : r.tag = some tag) (hk : r.kind.isWrite = false) (ho : r.owner = some (.lane n))
    (hstage : s.lanes[n].stage = .reading) (hpos : s.TagsHeldOnce → r.position < s.mru.positions.length) (o : Settlement) :
    let t := v.endWith r.position (State.settle r o)
    BlocksKept s t ∧ EventsKept s t ∧ t.now = s.now ∧ (∀ m : Fin 4, m ≠ n → t.lanes[m] = s.lanes[m]) ∧ t.mem = s.mem ∧
      t.mru.quarantined = s.mru.quarantined ∧
      (∀ x, (t.mru.pos x).timeouts = if x = r.position ∧ zero then 0 else (s.mru.pos x).timeouts) ∧
      (s.lanes[n].outstanding - 1 ≠ 0 → t.lanes[n] = s.laneSettled n r o ∧ t.rcd = s.rcd) ∧
      (s.lanes[n].outstanding - 1 = 0 → t.lanes[n] = { s.laneSettled n r o with stage := .solving } ∧
        t.rcd.contexts[n] = some s.lanes[n].freshContext) ∧
      (s.TagsHeldOnce → RequestEnded s t tag) := by
  intro t
  have hissued : (v.settle r o).Issued t := State.endWith_issued _ _ _
  have hgiven : (v.settle r o).TagsGiven t := State.endWith_given _ _ _
  obtain ⟨m, hv⟩ := h.only
  have hsettled := State.settle_readSettled (s := v) hk ho (by rw [hv]; exact hstage) o
  generalize v.settle r o = f at hissued hgiven hsettled
  obtain ⟨⟨lanes, contexts, rfl⟩, hothers, hmore, hlast⟩ := hsettled
  have htimeouts (x : Nat) := (hissued.timeouts x).trans (h.timeouts x)
  have hquarantined := hissued.quarantined.trans h.quarantined
  have hended (hs : s.TagsHeldOnce) : RequestEnded s t tag := by
    obtain ⟨count, hw⟩ := h.writeLeft (hpos hs)
    exact hw.requestEnded htag hissued hgiven rfl hs
  clear_value t
  obtain ⟨m', out, rfl⟩ := hissued.only
  subst hv
  exact ⟨⟨rfl, rfl, rfl, rfl, rfl, rfl, rfl, rfl, rfl, rfl, rfl, rfl, rfl, rfl⟩, ⟨rfl, rfl, rfl⟩, rfl,
    fun i hi => (hothers i hi).1, rfl, hquarantined, htimeouts, hmore, hlast, hended⟩

/-- A DEFER with retries left sends a read again, its bytes in the buffer (R146). -/
theorem exec_readDeferred {s : State} {r : Request} {tag : Byte} (hr : s.mru.findOutstanding tag.toNat = some r)
    (hk : r.kind.isWrite = false) (hd : r.defers < 7) (hx : r.position < s.mru.positions.length) (position : Byte) (mask : Mask)
    (data : List Byte) :
    ∃ v, State.WriteLeft r tag.toNat (s.mru.pos r.position).timeouts
        (s.writeMem (blockAddress r.buf r.firstBlock) (data.take (r.blocks * 4096))) v ∧
      (∀ x, (v.mru.pos x).timeouts = (s.mru.pos x).timeouts) ∧
      exec (.completion tag 3 position (bytes64 mask) data) s =
        .next ((v.requeueHead { r with defers := r.defers + 1 }).issueDecision r.position) := by
  set landed := s.writeMem (blockAddress r.buf r.firstBlock) (data.take (r.blocks * 4096))
  have hland : s.beginEvent.landData r data = landed.beginEvent := State.landData_of_read hk data s.beginEvent
  refine ⟨_, State.leaveOutstanding_writeLeft (s := landed) hr hx, fun x => State.leaveOutstanding_timeouts _ x _ _, ?_⟩
  rw [exec_completion, State.takeCompletion_of_outstanding (s := s.beginEvent) (st := .defer) rfl hr, hland,
    State.completeRequest, State.completeDefer, if_pos hd]

theorem State.requeueHead_timeouts (r : Request) (y : Nat) (s : State) :
    ((s.requeueHead r).mru.pos y).timeouts = (s.mru.pos y).timeouts := by
  refine (congrArg PosState.timeouts (Mru.pos_updPos r.position y _ s.mru)).trans ?_
  split
  · rename_i h
    rw [h.1]
  · rfl

/-- Settles O44: a read that settles, a read that is sent again, a cell, and a mask. -/
theorem readSettlesAtItsLane : Obligations.ReadSettlesAtItsLane := by
  refine ⟨?_, ?_, fun c o hc => ReadCell.settle_of_pending hc o, fun r mask j _ hj => r.getLsbD_stripMask mask hj⟩
  · intro tag status position mask data s r n o hr hkind ho hstage hst place reads lane
    have hk : r.kind.isWrite = false := by
      rw [hkind]
      rfl
    obtain ⟨v, hleft, hexec⟩ := exec_readSettles hr hk hst position data
    obtain ⟨htag, y, hy, hmem⟩ := Mru.mem_outstanding_of_find hr
    have hpos (hs : s.TagsHeldOnce) : r.position < s.mru.positions.length := by
      obtain ⟨-, hnamed, -⟩ := hs
      rwa [hnamed y r (List.mem_append_right _ hmem)]
    obtain ⟨hblocks, hevents, hnow, hothers, hmem, hquarantined, htimeouts, hmore, hlast, hended⟩ :=
      hleft.settled htag hk ho hstage hpos o
    refine ⟨_, hexec, hblocks, hevents, hnow, hothers, State.writeMem_landed _ _ hmem, hquarantined, htimeouts,
      fun hone hsome => hmore ?_, fun hone => ?_, hended⟩
    · show s.lanes[n].outstanding - 1 ≠ 0
      omega
    · obtain ⟨hlane, hcontext⟩ := hlast (show s.lanes[n].outstanding - 1 = 0 by omega)
      exact ⟨hlane, _, hcontext, rfl, rfl, rfl⟩
  · intro tag position mask data s r hr hkind hd hposition hlength
    have hk : r.kind.isWrite = false := by
      rcases hkind with hk | hk
      · rw [hk]
        rfl
      · rw [hk]
        rfl
    have hx : r.position < s.mru.positions.length := by rwa [hlength]
    obtain ⟨v, hleft, hcounts, hexec⟩ := exec_readDeferred hr hk hd hx position mask data
    obtain ⟨hresent, hmem, hquarantined, -⟩ := hleft.resent hx (again := { r with defers := r.defers + 1 }) rfl
      (Mru.mem_outstanding_of_find hr).1
    refine ⟨_, hexec, hresent, State.writeMem_landed _ _ hmem, hquarantined, fun x => ?_⟩
    rw [(State.issueDecision_issuedAt _ _).issued.timeouts, State.requeueHead_timeouts, hcounts]

end Sys2Proof.Machine
end

section
/-! A fault, taken at any time (R36 to R40, R154): what it keeps, and where the request records come from. -/

namespace Sys2Proof.Machine

/-! ## Where records come from -/

/-- q is what has become of q': the same work, with the tag it had or, if it had none, one it has been given. -/
def Request.Becomes (q' q : Request) : Prop := q'.SameWork q ∧ (q'.tag = none ∨ q'.tag = q.tag)

theorem Request.SameWork.refl (q : Request) : q.SameWork q := ⟨rfl, rfl, rfl, rfl, rfl, rfl⟩

theorem Request.SameWork.trans {a b c : Request} (h : a.SameWork b) (h' : b.SameWork c) : a.SameWork c := by
  obtain ⟨h₁, h₂, h₃, h₄, h₅, h₆⟩ := h
  obtain ⟨k₁, k₂, k₃, k₄, k₅, k₆⟩ := h'
  exact ⟨h₁.trans k₁, h₂.trans k₂, h₃.trans k₃, h₄.trans k₄, h₅.trans k₅, h₆.trans k₆⟩

theorem Request.Becomes.refl (q : Request) : q.Becomes q := ⟨.refl q, .inr rfl⟩

theorem Request.Becomes.trans {a b c : Request} (h : a.Becomes b) (h' : b.Becomes c) : a.Becomes c :=
  ⟨h.1.trans h'.1, h.2.elim .inl fun hab => h'.2.imp (fun hb => hab.trans hb) fun hbc => hab.trans hbc⟩

theorem Request.Given.becomes {q' q : Request} (h : q'.Given q) : q'.Becomes q := by
  obtain ⟨hwork, htag⟩ := h
  have field {α : Type} (f : Request → α) (hf : ∀ a : Request, f a.work = f a) : f q' = f q := by
    rw [← hf q', ← hf q, hwork]
  exact ⟨⟨field (·.position) fun _ => rfl, field (·.kind) fun _ => rfl, field (·.address) fun _ => rfl,
    field (·.blocks) fun _ => rfl, field (·.buf) fun _ => rfl, field (·.firstBlock) fun _ => rfl⟩, htag.imp_right Eq.symm⟩

/-- Every record of `t` is one of `s`, or what has become of one. -/
def State.RecordsFrom (s t : State) : Prop := ∀ q ∈ t.mru.records, ∃ q' ∈ s.mru.records, q'.Becomes q

theorem State.RecordsFrom.refl (s : State) : s.RecordsFrom s := fun q hq => ⟨q, hq, .refl q⟩

theorem State.RecordsFrom.trans {s t u : State} (h : s.RecordsFrom t) (h' : t.RecordsFrom u) : s.RecordsFrom u := by
  intro q hq
  obtain ⟨q', hq', hb⟩ := h' q hq
  obtain ⟨q'', hq'', hb'⟩ := h q' hq'
  exact ⟨q'', hq'', hb'.trans hb⟩

theorem State.RecordsFrom.of_issued {s t : State} (h : s.Issued t) (hgiven : s.TagsGiven t) : s.RecordsFrom t := by
  intro q hq
  obtain ⟨q', hq', hg⟩ := (h.records hgiven).2 q hq
  exact ⟨q', hq', hg.becomes⟩

/-- A request that leaves its position for the quarantine is there under its tag. -/
theorem Request.becomes_cutOff (until' : Nat) (q : Request) : q.Becomes (q.cutOff until') := ⟨⟨rfl, rfl, rfl, rfl, rfl, rfl⟩, .inr rfl⟩

theorem Request.becomes_quarantine (until' : Nat) (q : Request) : q.Becomes (q.quarantine until') :=
  ⟨⟨rfl, rfl, rfl, rfl, rfl, rfl⟩, .inr rfl⟩

theorem State.clearAll_recordsFrom (s : State) : s.RecordsFrom s.clearAll := by
  intro q hq
  rcases Mru.mem_records.1 hq with ⟨y, hq⟩ | hq
  · rw [State.clearAll_pos] at hq
    exact absurd hq List.not_mem_nil
  · rw [State.clearAll_quarantined, List.mem_append] at hq
    rcases hq with hq | hq
    · obtain ⟨q', hq', rfl⟩ := List.mem_map.1 hq
      exact ⟨q', Mru.mem_records.2 (.inr hq'), ⟨rfl, rfl, rfl, rfl, rfl, rfl⟩, .inr rfl⟩
    · obtain ⟨q', hq', rfl⟩ := List.mem_map.1 hq
      obtain ⟨p, hp, hin⟩ := List.mem_flatMap.1 hq'
      exact ⟨q', List.mem_append_left _ (List.mem_flatMap.2 ⟨p, hp, List.mem_append_right _ hin⟩), q'.becomes_cutOff _⟩

theorem State.cleared_pos (x y : Nat) (s : State) :
    (s.cleared x).mru.pos y = if y = x then (s.mru.pos y).cleared else s.mru.pos y := by
  split
  · rename_i h
    subst h
    exact Mru.pos_updPos_of_reset rfl y s.mru
  · rename_i h
    exact Mru.pos_updPos_other h PosState.cleared s.mru

theorem State.cleared_recordsFrom (x : Nat) (s : State) : s.RecordsFrom (s.cleared x) := by
  intro q hq
  rcases Mru.mem_records.1 hq with ⟨y, hq⟩ | hq
  · rw [State.cleared_pos] at hq
    split at hq
    · exact absurd hq List.not_mem_nil
    · exact ⟨q, Mru.mem_records.2 (.inl ⟨y, hq⟩), .refl q⟩
  · have hq : q ∈ s.mru.quarantined ++ (s.mru.pos x).outstanding.map (Request.quarantine (s.now + s.mru.timeout)) := hq
    rw [List.mem_append] at hq
    rcases hq with hq | hq
    · exact ⟨q, Mru.mem_records.2 (.inr hq), .refl q⟩
    · obtain ⟨q', hq', rfl⟩ := List.mem_map.1 hq
      exact ⟨q', Mru.mem_records.2 (.inl ⟨x, List.mem_append_right _ hq'⟩), q'.becomes_quarantine _⟩

theorem State.clearPosition_given (x : Nat) (s : State) : (s.cleared x).TagsGiven (s.clearPosition x) := by
  rw [State.clearPosition_eq]
  split
  · exact (State.serveTagWaitFuel_given _ _).trans (State.decideAll_given _)
  · exact .refl _

/-! ## Faults -/

/-- What a fault keeps, whatever it does: the timeout counts, the regions, the records of lost data, the geometry and the time; and
no request record is new. -/
structure State.FaultKeeps (s t : State) : Prop where
  timeouts : ∀ x, (t.mru.pos x).timeouts = (s.mru.pos x).timeouts
  rgt : t.rgt = s.rgt
  lrl : t.lrl = s.lrl
  geo : t.geo = s.geo
  now : t.now = s.now
  records : s.RecordsFrom t

theorem State.FaultKeeps.refl (s : State) : s.FaultKeeps s := ⟨fun _ => rfl, rfl, rfl, rfl, rfl, .refl s⟩

theorem State.FaultKeeps.trans {s t u : State} (h : s.FaultKeeps t) (h' : t.FaultKeeps u) : s.FaultKeeps u where
  timeouts x := (h'.timeouts x).trans (h.timeouts x)
  rgt := h'.rgt.trans h.rgt
  lrl := h'.lrl.trans h.lrl
  geo := h'.geo.trans h.geo
  now := h'.now.trans h.now
  records := h.records.trans h'.records

theorem State.FaultKeeps.of_issued {s t : State} (h : s.Issued t) (hgiven : s.TagsGiven t) : s.FaultKeeps t := by
  obtain ⟨m, o, only⟩ := h.only
  exact ⟨h.timeouts, by rw [only], by rw [only], by rw [only], by rw [only], .of_issued h hgiven⟩

theorem State.endSession_faultKeeps (new : SessionState) (cause : Cause) (s : State) :
    s.FaultKeeps (s.endSession new cause) := by
  have hmru := s.endSession_mru new cause
  obtain ⟨-, -, -, -, -, -, -, -, -, -, -, hrgt, hlrl, -, -, -, -, hpos, -, -, -, hgeo, hnow⟩ := s.endSession_ended new cause
  refine ⟨fun x => (hpos x).2.2.2.2, hrgt, hlrl, hgeo, hnow, fun q hq => ?_⟩
  rw [hmru] at hq
  exact s.clearAll_recordsFrom q hq

theorem State.firstFault_faultKeeps (x : Nat) (s : State) : s.FaultKeeps (s.firstFault x) := by
  have h := s.firstFault_faulted x
  have hissued := (s.firstMarked x).clearPosition_issued x
  have hfrom : (s.firstMarked x).RecordsFrom ((s.firstMarked x).clearPosition x) :=
    ((s.firstMarked x).cleared_recordsFrom x).trans (.of_issued hissued (State.clearPosition_given x _))
  obtain ⟨m, o, lanes, contexts, only⟩ := h.only
  refine ⟨fun y => ?_, by rw [only]; rfl, by rw [only]; rfl, by rw [only]; rfl, by rw [only]; rfl, fun q hq => ?_⟩
  · rw [h.mru, hissued.timeouts, State.cleared_pos]
    split <;> rfl
  · rw [h.mru] at hq
    exact hfrom q hq

theorem State.markFaulted_faultKeeps (x : Nat) (s : State) : s.FaultKeeps (s.markFaulted x) :=
  ⟨fun _ => rfl, rfl, rfl, rfl, rfl, fun q hq => ⟨q, hq, .refl q⟩⟩

theorem State.takeFault_faultKeeps (x : Nat) (s : State) : s.FaultKeeps (s.takeFault x) := by
  unfold State.takeFault
  split
  · exact .refl s
  · split
    · exact .refl s
    · exact .refl s
    · exact s.endSession_faultKeeps _ _
    · split
      · exact s.firstFault_faultKeeps x
      · exact (s.markFaulted_faultKeeps x).trans (State.endSession_faultKeeps _ _ _)

/-! ## Decisions after the end of a session -/

/-- A decision finds nothing at a position with nothing queued and no expiry, which does not wait for a tag. -/
theorem State.issueDecision_of_idle {s : State} {x : Nat} (hq : (s.mru.pos x).queue = []) (he : (s.mru.pos x).expiry = none)
    (ho : x ∉ s.mru.tagWait) : s.issueDecision x = s := by
  have hidle : s.unissued x none (s.mru.tagWait.erase x) = s := by
    rw [← he, State.unissued_self, List.erase_of_not_mem ho]
  have hdecided := s.issueDecision_decided x
  generalize s.issueDecision x = t at hdecided
  cases hdecided with
  | emptied _ => exact hidle
  | full hq' _ => rw [hq] at hq'; cases hq'
  | paced hq' _ _ _ => rw [hq] at hq'; cases hq'
  | pacedTagless hq' _ _ _ => rw [hq] at hq'; cases hq'
  | waits hq' _ _ _ => rw [hq] at hq'; cases hq'
  | issues hq' _ _ _ => rw [hq] at hq'; cases hq'

theorem State.decideAll_of_empty {s : State} (h : ∀ x, (s.mru.pos x).queue = []) : s.decideAll = s := by
  rw [State.decideAll_eq]
  induction List.range 16 with
  | nil => rfl
  | cons x rest ih => rwa [List.foldl_cons, State.decideAt_of_empty (h x)]

/-- Nothing is left to decide when a session has ended. -/
theorem SessionEnded.issueDecision {s t : State} {new : SessionState} {cause : Cause} (h : SessionEnded s t new cause) (x : Nat) :
    t.issueDecision x = t := by
  obtain ⟨-, -, -, -, -, -, -, -, -, -, -, -, -, -, -, -, -, hpos, horder, -⟩ := h
  obtain ⟨hqueue, -, hexpiry, -⟩ := hpos x
  exact State.issueDecision_of_idle hqueue hexpiry (by rw [horder]; exact List.not_mem_nil)

theorem SessionEnded.decideAfterFree {s t : State} {new : SessionState} {cause : Cause} (h : SessionEnded s t new cause) (x : Nat) :
    t.decideAfterFree x = t := by
  rw [State.decideAfterFree, h.issueDecision x]
  obtain ⟨-, -, -, -, -, -, -, -, -, -, -, -, -, -, -, -, -, hpos, -⟩ := h
  exact State.decideAll_of_empty fun y => (hpos y).1

end Sys2Proof.Machine
end

section
/-! A LOST completion faults its position (R147, R36, R37). -/

namespace Sys2Proof.Machine

/-! ## A fault and what is issued after it -/

section Fault

variable {w t : State} {x : Nat} (hopen : w.ses.state.isOpen = true) (hissued : (w.takeFault x).Issued t)

include hopen hissued

theorem State.Issued.faulted_spare (h : w.ses.roles[x]? = some .spare) :
    t.ses.state = .failed ∧ t.ses.cause = .spareLost ∧ Noted w t (Event.bit .stateChange) ∧ t.ses.roles = w.ses.roles := by
  rw [State.takeFault_of_spare hopen h] at hissued
  have hses := w.endSession_ses .failed .spareLost
  have hnoted := w.endSession_noted .failed .spareLost
  rw [← hissued.ses] at hses
  exact ⟨by rw [hses], by rw [hses], hnoted.before (.of_mgp hissued.mgp), by rw [hses]⟩

theorem State.Issued.faulted_first (h : w.ses.roles[x]? = some .survivor) (hf : w.ses.faultedSurvivor = none) :
    t.ses = { w.ses with roles := w.ses.roles.set x .faulted, faultedSurvivor := some x } ∧
      Noted w t (Event.bit .memberFaulted) ∧ (t.mru.pos x).queue = [] ∧ (t.mru.pos x).outstanding = [] ∧ LanesFaulted w t x ∧
      t.mru.quarantined = w.mru.quarantined ++
        (w.mru.pos x).outstanding.map fun q => { q with deadline := some (w.now + w.mru.timeout) } := by
  rw [State.takeFault_of_first hopen h hf] at hissued
  have hfaulted := w.firstFault_faulted x
  generalize w.firstFault x = f at hissued hfaulted
  obtain ⟨hpos, hquarantined, -⟩ := hfaulted.cleared
  have htpos : t.mru.pos x = f.mru.pos x := hissued.unqueued x (by rw [hpos]) (by rw [hpos])
  obtain ⟨⟨m, o, lanes, contexts, hfonly⟩, -, -, hlanes⟩ := hfaulted
  have htq := hissued.quarantined.trans hquarantined
  obtain ⟨m', o', htonly⟩ := hissued.only
  rw [hfonly] at htonly hlanes
  rw [htpos, hpos]
  rw [htonly]
  rw [htonly] at htq
  exact ⟨rfl, ⟨rfl, rfl, rfl⟩, rfl, rfl, hlanes, htq⟩

theorem State.Issued.faulted_second (h : w.ses.roles[x]? = some .survivor) (hf : w.ses.faultedSurvivor ≠ none) :
    t.ses.state = .broken ∧ t.ses.cause = .tooManyFaults ∧ t.ses.roles = w.ses.roles.set x .faulted ∧
      Noted w t (Event.bit .memberFaulted ||| Event.bit .stateChange) := by
  rw [State.takeFault_of_second hopen h hf] at hissued
  have hses := (w.markFaulted x).endSession_ses .broken .tooManyFaults
  have hnoted := (w.markFaulted_noted x).trans ((w.markFaulted x).endSession_noted .broken .tooManyFaults)
  rw [← hissued.ses] at hses
  exact ⟨by rw [hses], by rw [hses], by rw [hses]; rfl, hnoted.before (.of_mgp hissued.mgp)⟩

theorem State.Issued.faulted_again (h : w.ses.roles[x]? = some .faulted) :
    t.ses = w.ses ∧ EventsKept w t ∧ t.mru.quarantined = w.mru.quarantined := by
  rw [State.takeFault_of_faulted hopen h] at hissued
  exact ⟨hissued.ses, .of_mgp hissued.mgp, hissued.quarantined⟩

end Fault

/-! ## A LOST completion (R147) -/

/-- The request has left the outstanding set, with the bytes its completion brings in the buffer memory. -/
def State.lostLeft (s : State) (r : Request) (tag : Nat) (data : List Byte) : State :=
  { s.without r.position tag with mem := (s.beginEvent.landData r data).mem, sent := [] }

theorem exec_lost {s : State} {r : Request} {tag : Byte} (hr : s.mru.findOutstanding tag.toNat = some r) (position : Byte)
    (mask : Mask) (data : List Byte) :
    exec (.completion tag 4 position (bytes64 mask) data) s =
      .next (((s.lostLeft r tag.toNat data).serveTagWait.takeFault r.position).decideAfterFree r.position) := by
  rw [exec_completion, State.takeCompletion_of_outstanding (s := s.beginEvent) (st := .lost) rfl hr, State.landData_eq]
  rfl

theorem State.decideAfterFree_keeps (x : Nat) (s : State) : s.FaultKeeps (s.decideAfterFree x) :=
  .of_issued (State.decideAfterFree_issued x s) (State.decideAfterFree_given x s)

theorem State.serveTagWait_keeps (s : State) : s.FaultKeeps s.serveTagWait :=
  .of_issued s.serveTagWait_issued (s.serveTagWaitFuel_given _)

/-- A request that has left takes its tag with it, and none that comes from what is left has it anew. -/
theorem State.RecordsFrom.tagFreed {s v t : State} {r : Request} {tag : Nat} (h : v.RecordsFrom t) (htag : r.tag = some tag)
    (hperm : s.mru.records.Perm (r :: v.mru.records)) (honce : (s.mru.records.filterMap (·.tag)).Nodup) : TagFreed s t tag := by
  intro q hq hqt
  obtain ⟨q', hq', hsame, htag'⟩ := h q hq
  have hnodup := (hperm.filterMap (·.tag)).nodup_iff.1 honce
  rw [List.filterMap_cons_some htag] at hnodup
  refine ⟨q', hperm.mem_iff.2 (List.mem_cons_of_mem _ hq'), htag'.resolve_right fun he => ?_, hsame⟩
  exact (List.nodup_cons.1 hnodup).1 (List.mem_filterMap.2 ⟨q', hq', he.trans hqt⟩)

/-- Where no position waits for a tag, the end of the session at a lost request is that of the state without it. -/
theorem State.lostLeft_ended {s : State} {r : Request} {tag : Nat} {data : List Byte} {u : State} {new : SessionState}
    {cause : Cause} (h : SessionEnded (s.lostLeft r tag data) u new cause) :
    SessionEnded { s.without r.position tag with mem := u.mem } u new cause := by
  have hmem : u.mem = (s.lostLeft r tag data).mem := by
    obtain ⟨-, -, -, -, -, -, -, -, -, -, -, -, -, -, -, -, -, -, -, -, hmem, -⟩ := h
    exact hmem
  have hleft : SessionEnded { s.without r.position tag with mem := (s.lostLeft r tag data).mem } u new cause := h
  rwa [← hmem] at hleft

/-- Settles O46: by the position's role, with the tag wait order served before the fault is taken. -/
theorem lostCompletionFaultsPosition : Obligations.LostCompletionFaultsPosition := by
  intro tag position mask data s r hr hst ended
  obtain ⟨htag, -⟩ := Mru.mem_outstanding_of_find hr
  have hexec := exec_lost hr position mask data
  have hserved : s.mru.tagWait = [] → (s.lostLeft r tag.toNat data).serveTagWait = s.lostLeft r tag.toNat data :=
    fun ho => State.serveTagWait_of_served (.inl ho)
  have honly := (s.lostLeft r tag.toNat data).serveTagWait_only
  have hkeeps := (s.lostLeft r tag.toNat data).serveTagWait_keeps
  have hkept : (s.lostLeft r tag.toNat data).serveTagWait.mru.quarantined = s.mru.quarantined :=
    (State.serveTagWait_issued _).quarantined
  generalize (s.lostLeft r tag.toNat data).serveTagWait = w at hexec hserved honly hkeeps hkept
  obtain ⟨m, o, hw⟩ := honly
  have hopen : w.ses.state.isOpen = true := by
    rw [hw]
    exact (SessionState.isOpen_iff _).2 hst
  have hissued := State.decideAfterFree_issued r.position (w.takeFault r.position)
  have hall := (hkeeps.trans (w.takeFault_faultKeeps r.position)).trans (State.decideAfterFree_keeps r.position _)
  refine ⟨_, hexec, fun hs => ?_, fun hrole => ?_, fun hrole hf => ?_, fun hrole hf => ?_, fun hrole => ?_, fun x => ?_,
    hall.rgt, hall.lrl, hall.geo⟩
  · exact hall.records.tagFreed htag (State.leaveOutstanding_records hs hr) hs.2.2
  · have hrole' : w.ses.roles[r.position]? = some .spare := by rw [hw]; exact hrole
    obtain ⟨hstate, hcause, hnoted, hroles⟩ := hissued.faulted_spare hopen hrole'
    refine ⟨hstate, hcause, fun ho => ?_, ?_, ?_⟩
    · rw [State.takeFault_of_spare hopen hrole']
      have hended := w.endSession_ended .failed .spareLost
      rw [hended.decideAfterFree]
      rw [hserved ho] at hended ⊢
      exact State.lostLeft_ended hended
    · rw [hw] at hnoted ⊢
      exact hnoted
    · rw [hroles, hw]
      rfl
  · have hrole' : w.ses.roles[r.position]? = some .survivor := by rw [hw]; exact hrole
    have hf' : w.ses.faultedSurvivor = none := by rw [hw]; exact hf
    have hmru := fun ho => congrArg State.mru (hserved ho)
    obtain ⟨hses, hnoted, hqueue, hout, hlanes, hquarantined⟩ := hissued.faulted_first hopen hrole' hf'
    clear hserved
    generalize (w.takeFault r.position).decideAfterFree r.position = t at *
    subst hw
    refine ⟨hses, hnoted, hqueue, hout, hlanes, fun ho => ?_⟩
    have hm : m = (s.lostLeft r tag.toNat data).mru := hmru ho
    rw [hm] at hquarantined
    exact hquarantined
  · have hrole' : w.ses.roles[r.position]? = some .survivor := by rw [hw]; exact hrole
    have hf' : w.ses.faultedSurvivor ≠ none := by rw [hw]; exact hf
    obtain ⟨hstate, hcause, hroles, hnoted⟩ := hissued.faulted_second hopen hrole' hf'
    refine ⟨hstate, hcause, ?_, fun ho => ?_, ?_⟩
    · rw [hroles, hw]
      rfl
    · rw [State.takeFault_of_second hopen hrole' hf']
      have hended := (w.markFaulted r.position).endSession_ended .broken .tooManyFaults
      rw [hended.decideAfterFree]
      rw [hserved ho] at hended ⊢
      exact State.lostLeft_ended hended
    · rw [hw] at hnoted ⊢
      exact hnoted
  · have hrole' : w.ses.roles[r.position]? = some .faulted := by rw [hw]; exact hrole
    obtain ⟨hses, hevents, hquarantined⟩ := hissued.faulted_again hopen hrole'
    refine ⟨?_, ?_, hquarantined.trans hkept⟩
    · rw [hses, hw]
      rfl
    · rw [hw] at hevents ⊢
      exact hevents
  · exact (hall.timeouts x).trans (State.leaveOutstanding_timeouts r.position x tag.toNat s)

end Sys2Proof.Machine
end

section
/-! A timeout quarantines the request, and the third faults the position (R149, R150). -/

namespace Sys2Proof.Machine

/-! ## The request leaves for the quarantine -/

/-- Steps 1 and 2 of R149, and the count of R150, in one. -/
theorem State.timedOut_eq {s : State} {r : Request} (hx : r.position < s.mru.positions.length) (tag : Nat) :
    s.timedOut r tag = ({ s with
      mru := { s.mru with
        positions := s.mru.positions.set r.position { s.mru.pos r.position with
          outstanding := (s.mru.pos r.position).outstanding.filter fun q => q.tag != some tag
          timeouts := min 3 ((s.mru.pos r.position).timeouts + 1) }
        quarantined := s.mru.quarantined ++ [r.quarantine (s.now + s.mru.timeout)] } } : State).setEvent .memberTimeout := by
  have hleft : (s.leaveOutstanding r.position tag).mru.pos r.position = _ :=
    Mru.pos_updPos_self (m := s.mru) hx fun p => { p with outstanding := p.outstanding.filter fun q => q.tag != some tag }
  have hpositions : (s.timedOut r tag).mru.positions = s.mru.positions.set r.position { s.mru.pos r.position with
      outstanding := (s.mru.pos r.position).outstanding.filter fun q => q.tag != some tag
      timeouts := min 3 ((s.mru.pos r.position).timeouts + 1) } := by
    refine (List.set_set ..).trans (congrArg _ ?_)
    exact congrArg (fun p : PosState => { p with timeouts := min 3 ((s.mru.pos r.position).timeouts + 1) }) hleft
  have hframe : s.timedOut r tag = ({ s with
      mru := { s.mru with
        positions := (s.timedOut r tag).mru.positions
        quarantined := s.mru.quarantined ++ [r.quarantine (s.now + s.mru.timeout)] } } : State).setEvent .memberTimeout := rfl
  rw [hpositions] at hframe
  exact hframe

/-- The state in which a request has timed out, at the present time, and its position's count stands at `count`. -/
def State.expired (s : State) (r : Request) (tag now count : Nat) : State :=
  { s with
    mru := { s.mru with
      positions := s.mru.positions.set r.position { s.mru.pos r.position with
        outstanding := (s.mru.pos r.position).outstanding.filter fun q => q.tag != some tag, timeouts := count }
      quarantined := s.mru.quarantined ++ [r.quarantine (now + s.mru.timeout)] }
    mgp := s.mgp.setEvent .memberTimeout
    now := now
    sent := [] }

theorem State.expired_pos {s : State} {r : Request} (hx : r.position < s.mru.positions.length) (tag now count : Nat) :
    (s.expired r tag now count).mru.pos r.position = { s.mru.pos r.position with
      outstanding := (s.mru.pos r.position).outstanding.filter fun q => q.tag != some tag, timeouts := count } :=
  Mru.pos_updPos_self hx fun p => { p with outstanding := p.outstanding.filter fun q => q.tag != some tag, timeouts := count }

theorem State.expired_other {s : State} {r : Request} {y : Nat} (hy : y ≠ r.position) (tag now count : Nat) :
    (s.expired r tag now count).mru.pos y = s.mru.pos y :=
  Mru.pos_updPos_other hy (fun p => { p with
    outstanding := p.outstanding.filter fun q => q.tag != some tag, timeouts := count }) s.mru

theorem State.expired_noted (s : State) (r : Request) (tag now count : Nat) :
    Noted s (s.expired r tag now count) (Event.bit .memberTimeout) := ⟨rfl, rfl, rfl⟩

/-- The row of a timeout that stands (log 3). -/
theorem exec_timeout {s : State} {r : Request} {tag : Byte} {d : Nat} (hd : s.mru.standing (.timeout tag.toNat) = some d)
    (hr : s.mru.findOutstanding tag.toNat = some r) (hx : r.position < s.mru.positions.length) :
    let v := s.expired r tag.toNat (max s.now d) (min 3 ((s.mru.pos r.position).timeouts + 1))
    exec (.timeout tag) s = .next ((if min 3 ((s.mru.pos r.position).timeouts + 1) < 3 then v.serveTimedOut r
      else v.takeFault r.position).issueDecision r.position) := by
  intro v
  set u : State := { s with now := max s.now d, sent := [] }
  have hrun : u.runTimeEvent (.timeout tag.toNat) = u.timeOut r tag.toNat := by
    have hr' : u.mru.findOutstanding tag.toNat = some r := hr
    simp only [State.runTimeEvent, hr']
  have hv : u.timedOut r tag.toNat = v := State.timedOut_eq (s := u) hx tag.toNat
  have hexec : exec (.timeout tag) s = .next (u.runTimeEvent (.timeout tag.toNat)) :=
    congrArg Host.Outcome.next (State.takeTimeEvent_of_standing hd)
  rw [hexec, hrun, State.timeOut_eq, hv]

/-! ## A write below the third timeout (R149) -/

/-- A head without a tag is at its position after the decision, with no tag that a record carries. -/
theorem State.Decided.head_keeps_off {x tag : Nat} {s t : State} {r : Request} {rest : List Request} (h : State.Decided x s t)
    (hq : (s.mru.pos x).queue = r :: rest) (htag : r.tag = none) (hcarried : tag ∈ tagsOf s.mru.records) :
    ∃ r' ∈ (t.mru.pos x).live, r'.work = r.work ∧ r'.tag ≠ some tag := by
  obtain ⟨issued, hissued⟩ := h.exists_issued
  cases issued with
  | nil =>
    refine ⟨r, List.mem_append_left _ ?_, rfl, by rw [htag]; simp⟩
    rw [hissued.queue, hq]
    exact List.mem_cons_self
  | cons q issued =>
    obtain ⟨k, hk, rfl⟩ := hissued.order.2 0 q r rfl (by rw [hq]; rfl)
    refine ⟨s.issuedAs r k, List.mem_append_right _ ?_, rfl, fun he => ?_⟩
    · rw [hissued.outstanding]
      exact List.mem_append_right _ List.mem_cons_self
    · rcases hk with hk | ⟨-, hfree⟩
      · rw [htag] at hk
        cases hk
      · rw [List.take_zero, List.append_nil] at hfree
        obtain rfl : k = tag := Option.some.inj he
        exact (lowestFreeOf_iff.1 hfree).1.2 hcarried

theorem State.requeueHead_pos {s : State} {r : Request} (hx : r.position < s.mru.positions.length) :
    (s.requeueHead r).mru.pos r.position = { s.mru.pos r.position with
      queue := { r with deadline := none } :: (s.mru.pos r.position).queue } :=
  Mru.pos_updPos_self hx fun p => { p with queue := { r with deadline := none } :: p.queue }

section Timeout

variable {s : State} {r : Request} {tag : Nat} (htag : r.tag = some tag) (hx : r.position < s.mru.positions.length) (now count : Nat)

include htag hx

/-- The successor of a timed-out write stands at the head of its queue, or has been issued with another tag. -/
theorem State.expired_write :
    let t := ((s.expired r tag now count).requeueHead r.successor).issueDecision r.position
    BlocksKept s t ∧ Noted s t (Event.bit .memberTimeout) ∧ t.lanes = s.lanes ∧ t.rcd = s.rcd ∧ t.mem = s.mem ∧ t.now = now ∧
      (t.mru.pos r.position).timeouts = count ∧
      t.mru.quarantined = s.mru.quarantined ++ [r.quarantine (now + s.mru.timeout)] ∧
      (t.mru.pos r.position).works = (((s.mru.pos r.position).outstanding.filter fun q => q.tag != some tag) ++
        r :: (s.mru.pos r.position).queue).map Request.work ∧
      ∃ r' ∈ (t.mru.pos r.position).live, r'.work = r.work ∧ r'.tag ≠ some tag := by
  intro t
  have hissued : ((s.expired r tag now count).requeueHead r.successor).Issued t := (State.issueDecision_issuedAt _ _).issued
  have hdecided : State.Decided r.position ((s.expired r tag now count).requeueHead r.successor) t :=
    State.issueDecision_decided _ _
  have hpos : ((s.expired r tag now count).requeueHead r.successor).mru.pos r.position = { s.mru.pos r.position with
      queue := r.successor :: (s.mru.pos r.position).queue
      outstanding := (s.mru.pos r.position).outstanding.filter fun q => q.tag != some tag, timeouts := count } := by
    refine (State.requeueHead_pos (s := s.expired r tag now count) (r := r.successor) ?_).trans ?_
    · exact (List.length_set ..).symm ▸ hx
    · exact congrArg (fun p : PosState => { p with queue := r.successor :: p.queue }) (State.expired_pos hx tag now count)
  have hlate : tag ∈ tagsOf ((s.expired r tag now count).requeueHead r.successor).mru.records := by
    refine mem_tagsOf.2 ⟨r.quarantine (now + s.mru.timeout), Mru.mem_records.2 (.inr ?_), htag⟩
    exact List.mem_append_right _ (List.mem_singleton.2 rfl)
  have hgone := hdecided.head_keeps_off (by rw [hpos]) rfl hlate
  have hworks := hissued.works r.position
  have htimeouts := hissued.timeouts r.position
  have hquarantined := hissued.quarantined
  rw [hpos] at hworks htimeouts
  clear_value t
  obtain ⟨m, o, rfl⟩ := hissued.only
  refine ⟨⟨rfl, rfl, rfl, rfl, rfl, rfl, rfl, rfl, rfl, rfl, rfl, rfl, rfl, rfl⟩, ⟨rfl, rfl, rfl⟩, rfl, rfl, rfl, rfl, htimeouts,
    hquarantined, hworks.trans ?_, hgone⟩
  simp only [PosState.works, List.map_append, List.map_cons]
  rfl

/-! ## A read below the third timeout (R149, R120) -/

omit htag in
/-- A lane's read that has timed out settles MISSING. -/
theorem State.expired_read {n : Fin 4} (hk : r.kind.isWrite = false) (ho : r.owner = some (.lane n))
    (hstage : s.lanes[n].stage = .reading) :
    let v := s.expired r tag now count
    let t := (v.settle r .missing).issueDecision r.position
    BlocksKept s t ∧ Noted s t (Event.bit .memberTimeout) ∧ t.mem = s.mem ∧ t.now = now ∧
      (t.mru.pos r.position).timeouts = count ∧
      t.mru.quarantined = s.mru.quarantined ++ [r.quarantine (now + s.mru.timeout)] ∧
      (∀ m : Fin 4, m ≠ n → t.lanes[m] = s.lanes[m] ∧ t.rcd.contexts[m] = s.rcd.contexts[m]) ∧
      (s.lanes[n].outstanding - 1 ≠ 0 → t.lanes[n] = s.laneSettled n r .missing ∧ t.rcd = s.rcd) ∧
      (s.lanes[n].outstanding - 1 = 0 → t.lanes[n] = { s.laneSettled n r .missing with stage := .solving } ∧
        t.rcd.contexts[n] = some s.lanes[n].freshContext) := by
  intro v t
  have hissued : (v.settle r .missing).Issued t := (State.issueDecision_issuedAt _ _).issued
  have hsettled := State.settle_readSettled (s := v) hk ho hstage .missing
  generalize v.settle r .missing = f at hissued hsettled
  obtain ⟨⟨lanes, contexts, rfl⟩, hothers, hmore, hlast⟩ := hsettled
  have htimeouts := hissued.timeouts r.position
  have hquarantined := hissued.quarantined
  dsimp only at htimeouts hquarantined
  rw [State.expired_pos hx] at htimeouts
  clear_value t
  obtain ⟨m, o, rfl⟩ := hissued.only
  exact ⟨⟨rfl, rfl, rfl, rfl, rfl, rfl, rfl, rfl, rfl, rfl, rfl, rfl, rfl, rfl⟩, ⟨rfl, rfl, rfl⟩, rfl, rfl, htimeouts, hquarantined,
    hothers, hmore, hlast⟩

/-! ## The third timeout (R150) -/

section Third

variable (hopen : s.ses.state.isOpen = true)

include hopen

omit htag hx

/-- The session's end at a third timeout leaves nothing to decide. -/
theorem State.expired_spare (hrole : s.ses.roles[r.position]? = some .spare) :
    let v := s.expired r tag now count
    let t := (v.takeFault r.position).issueDecision r.position
    SessionEnded v t .failed .spareLost ∧ t.ses.roles = s.ses.roles ∧
      Noted s t (Event.bit .memberTimeout ||| Event.bit .stateChange) := by
  intro v t
  have hissued : (v.takeFault r.position).Issued t := (State.issueDecision_issuedAt _ _).issued
  have hopen : v.ses.state.isOpen = true := hopen
  obtain ⟨-, -, hnoted, hroles⟩ := hissued.faulted_spare hopen hrole
  have hended := v.endSession_ended .failed .spareLost
  have ht : t = v.endSession .failed .spareLost := by
    rw [← hended.issueDecision r.position, ← State.takeFault_of_spare hopen hrole]
  rw [← ht] at hended
  exact ⟨hended, hroles, (s.expired_noted r tag now count).trans hnoted⟩

theorem State.expired_second (hrole : s.ses.roles[r.position]? = some .survivor) (hf : s.ses.faultedSurvivor ≠ none) :
    let v := s.expired r tag now count
    let t := (v.takeFault r.position).issueDecision r.position
    SessionEnded (v.markFaulted r.position) t .broken .tooManyFaults ∧ t.ses.roles = s.ses.roles.set r.position .faulted ∧
      Noted s t (Event.bit .memberTimeout ||| (Event.bit .memberFaulted ||| Event.bit .stateChange)) := by
  intro v t
  have hissued : (v.takeFault r.position).Issued t := (State.issueDecision_issuedAt _ _).issued
  have hopen : v.ses.state.isOpen = true := hopen
  obtain ⟨-, -, hroles, hnoted⟩ := hissued.faulted_second hopen hrole hf
  have hended := (v.markFaulted r.position).endSession_ended .broken .tooManyFaults
  have ht : t = (v.markFaulted r.position).endSession .broken .tooManyFaults := by
    rw [← hended.issueDecision r.position, ← State.takeFault_of_second hopen hrole hf]
  rw [← ht] at hended
  exact ⟨hended, hroles, (s.expired_noted r tag now count).trans hnoted⟩

/-- A third timeout at a position that has faulted already changes nothing more. -/
theorem State.expired_again (hrole : s.ses.roles[r.position]? = some .faulted) :
    let v := s.expired r tag now count
    let t := (v.takeFault r.position).issueDecision r.position
    BlocksKept s t ∧ Noted s t (Event.bit .memberTimeout) ∧ t.lanes = s.lanes ∧
      t.mru.quarantined = s.mru.quarantined ++ [r.quarantine (now + s.mru.timeout)] := by
  intro v t
  have hopen : v.ses.state.isOpen = true := hopen
  have hissued : v.Issued t := by
    rw [← State.takeFault_of_faulted (s := v) hopen hrole]
    exact (State.issueDecision_issuedAt _ _).issued
  have hquarantined := hissued.quarantined
  clear_value t
  obtain ⟨m, o, rfl⟩ := hissued.only
  exact ⟨⟨rfl, rfl, rfl, rfl, rfl, rfl, rfl, rfl, rfl, rfl, rfl, rfl, rfl, rfl⟩, ⟨rfl, rfl, rfl⟩, rfl, hquarantined⟩

include hx

/-- The first survivor to fault by a third timeout is cleared, and no other position is touched where no dropped request held a
tag (R139, R154). -/
theorem State.expired_first (hrole : s.ses.roles[r.position]? = some .survivor) (hf : s.ses.faultedSurvivor = none) :
    let v := s.expired r tag now count
    let t := (v.takeFault r.position).issueDecision r.position
    t.ses = { s.ses with roles := s.ses.roles.set r.position .faulted, faultedSurvivor := some r.position } ∧
      Noted s t (Event.bit .memberTimeout ||| Event.bit .memberFaulted) ∧ LanesFaulted s t r.position ∧
      t.mru.pos r.position = { s.mru.pos r.position with queue := [], outstanding := [], expiry := none, timeouts := count } ∧
      t.mru.quarantined = s.mru.quarantined ++ [r.quarantine (now + s.mru.timeout)] ++
        ((s.mru.pos r.position).outstanding.filter fun q => q.tag != some tag).map
          (fun q => { q with deadline := some (now + s.mru.timeout) }) ∧
      ((∀ q ∈ (s.mru.pos r.position).queue, q.tag = none) →
        t.sent = [] ∧ ∀ y, y ≠ r.position → t.mru.pos y = s.mru.pos y) := by
  intro v t
  have hopen : v.ses.state.isOpen = true := hopen
  have hat : State.IssuedAt r.position (v.takeFault r.position) t := State.issueDecision_issuedAt _ _
  have hdecided : State.Decided r.position (v.takeFault r.position) t := State.issueDecision_decided _ _
  obtain ⟨hses, hnoted, -, -, hlanes, hquarantined⟩ := hat.issued.faulted_first hopen hrole hf
  have hcleared := (v.firstFault_faulted r.position).cleared
  rw [State.takeFault_of_first hopen hrole hf] at hat hdecided
  generalize v.firstFault r.position = f at hat hdecided hcleared
  obtain ⟨hfpos, -, htagless⟩ := hcleared
  have hvpos : v.mru.pos r.position = _ := State.expired_pos hx tag now count
  rw [hvpos] at hfpos htagless hquarantined
  refine ⟨hses, (s.expired_noted r tag now count).trans hnoted, hlanes, ?_, hquarantined, fun hq => ?_⟩
  · exact (hat.issued.unqueued r.position (by rw [hfpos]) (by rw [hfpos])).trans hfpos
  · obtain ⟨hsent, -, hothers⟩ := htagless hq
    refine ⟨?_, fun y hy => (hat.others y hy).trans ((hothers y hy).trans (State.expired_other hy tag now count))⟩
    have hempty : (f.mru.pos r.position).queue = [] := by rw [hfpos]
    obtain ⟨issued, hissued⟩ := hdecided.exists_issued
    have hnone : issued = [] := by
      have hlength := hissued.order.1
      rw [hempty] at hlength
      exact List.length_eq_zero_iff.1 (Nat.le_zero.1 hlength)
    rw [hissued.sent, hnone, hsent]
    rfl

end Third

end Timeout

/-- The count of a fault that follows a timeout stays (R150). -/
theorem State.expired_faulted_timeouts {s : State} {r : Request} (hx : r.position < s.mru.positions.length) (tag now count : Nat) :
    ((((s.expired r tag now count).takeFault r.position).issueDecision r.position).mru.pos r.position).timeouts = count := by
  rw [(State.issueDecision_issuedAt _ _).issued.timeouts, (State.takeFault_faultKeeps _ _).timeouts, State.expired_pos hx]

/-- Settles O48: below the third timeout by the kind of the request, at the third by the position's role. -/
theorem timeoutQuarantinesRequest : Obligations.TimeoutQuarantinesRequest := by
  intro tag s r d hd hr hposition hlength now count late rest stepped
  have hx : r.position < s.mru.positions.length := by rwa [hlength]
  obtain ⟨htag, -⟩ := Mru.mem_outstanding_of_find hr
  have hexec := exec_timeout hd hr hx
  by_cases hcount : count < 3
  · have hmin : min 3 ((s.mru.pos r.position).timeouts + 1) = count := Nat.min_eq_right (Nat.le_of_lt hcount)
    rw [hmin] at hexec
    dsimp only at hexec
    rw [if_pos hcount, State.serveTimedOut] at hexec
    refine ⟨_, hexec, ?_, fun _ hwrite => ?_, fun n _ hread ho hstage hsome => ?_, fun hthree => absurd hcount (Nat.not_lt.2 hthree)⟩
    · refine (State.issueDecision_issuedAt _ _).issued.now.trans ?_
      split
      · rfl
      · obtain ⟨-, hnow, -⟩ := State.settle_rebuild r .missing (s.expired r tag.toNat now count)
        exact hnow
    · have hk : r.kind.isWrite = true := by
        rcases hwrite with hk | hk
        · rw [hk]
          rfl
        · rw [hk]
          rfl
      rw [if_pos hk]
      obtain ⟨hblocks, hnoted, hlanes, hrcd, hmem, -, hrest⟩ := State.expired_write htag hx now count
      exact ⟨hblocks, hnoted, hlanes, hrcd, hmem, hrest⟩
    · have hk : r.kind.isWrite = false := by
        rw [hread]
        rfl
      rw [if_neg (by rw [hk]; exact Bool.false_ne_true)]
      obtain ⟨hblocks, hnoted, hmem, -, htimeouts, hquarantined, hothers, hmore, hlast⟩ :=
        State.expired_read hx now count (tag := tag.toNat) hk ho hstage
      exact ⟨hblocks, hnoted, hmem, htimeouts, hquarantined, hothers, fun hone => hmore (by omega), fun hone => hlast (by omega)⟩
  · have hmin : min 3 ((s.mru.pos r.position).timeouts + 1) = 3 := Nat.min_eq_left (Nat.not_lt.1 hcount)
    rw [hmin] at hexec
    dsimp only at hexec
    rw [if_neg (Nat.lt_irrefl 3)] at hexec
    refine ⟨_, hexec, ?_, fun h => absurd h hcount, fun n h => absurd h hcount, fun _ hst => ?_⟩
    · exact (State.issueDecision_issuedAt _ _).issued.now.trans (State.takeFault_faultKeeps _ _).now
    · have hopen := (SessionState.isOpen_iff _).2 hst
      refine ⟨State.expired_faulted_timeouts hx _ _ _, fun hrole => ?_, fun hrole hf => ?_, fun hrole hf => ?_, fun hrole => ?_⟩
      · exact State.expired_spare now 3 hopen hrole
      · obtain ⟨hended, hroles, hnoted⟩ := State.expired_second (tag := tag.toNat) now 3 hopen hrole hf
        rw [← BitVec.or_assoc] at hnoted
        exact ⟨hended, hroles, hnoted⟩
      · exact State.expired_first hx now 3 hopen hrole hf
      · exact State.expired_again now 3 hopen hrole

end Sys2Proof.Machine
end

section
/-! A quarantine ends, at a late completion or at its deadline; rows that name no request change nothing (R113, R142, R152). -/

namespace Sys2Proof.Machine

/-! ## Rows that change nothing -/

/-- The status bytes outside R209's table. -/
theorem completionStatus_of_unknown {status : Byte} (h : status = 0 ∨ 4 < status.toNat) : completionStatus status = none := by
  have h₁ : status ≠ 1 := by bv_omega
  have h₂ : status ≠ 2 := by bv_omega
  have h₃ : status ≠ 3 := by bv_omega
  have h₄ : status ≠ 4 := by bv_omega
  rw [completionStatus, if_neg h₁, if_neg h₂, if_neg h₃, if_neg h₄]

theorem State.takeCompletion_of_unknown {s : State} {status : Byte} (h : completionStatus status = none) (tag : Nat)
    (mask : Mask) (data : List Byte) : s.takeCompletion tag status mask data = s := by
  rw [State.takeCompletion, h]

/-- A completion for a tag that is free or QUEUED changes nothing (R142). -/
theorem State.takeCompletion_of_unheld {s : State} {tag : Nat} (hout : s.mru.findOutstanding tag = none)
    (hquar : s.mru.findQuarantined tag = none) (status : Byte) (mask : Mask) (data : List Byte) :
    s.takeCompletion tag status mask data = s := by
  rw [State.takeCompletion, hout, hquar]
  split <;> rfl

theorem State.takeTimeEvent_of_absent {s : State} {e : TimeEvent} (h : s.mru.standing e = none) :
    s.takeTimeEvent e = { s with sent := [] } := by
  rw [State.takeTimeEvent, h]
  rfl

theorem exec_completion_discarded {tag status : Byte} {s : State}
    (h : status = 0 ∨ 4 < status.toNat ∨
      (s.mru.findOutstanding tag.toNat = none ∧ s.mru.findQuarantined tag.toNat = none))
    (position : Byte) (mask : Mask) (data : List Byte) :
    exec (.completion tag status position (bytes64 mask) data) s = .next { s with sent := [] } := by
  refine (exec_completion ..).trans (congrArg Host.Outcome.next ?_)
  rcases h with h | h | ⟨hout, hquar⟩
  · exact State.takeCompletion_of_unknown (completionStatus_of_unknown (.inl h)) ..
  · exact State.takeCompletion_of_unknown (completionStatus_of_unknown (.inr h)) ..
  · exact State.takeCompletion_of_unheld (s := s.beginEvent) hout hquar ..

/-! ## What grants leave at RTU, and a held-back step at SBP -/

theorem State.requestLaneLock_rtu (n : Fin 4) (s : State) : (s.requestLaneLock n).rtu = s.rtu := by
  unfold State.requestLaneLock
  split
  · rfl
  · simp only
    split
    · exact (State.enterReading_locks n _).2
    · rfl

theorem State.beginAttempt_stores (q : QualProgress) (s : State) :
    (s.beginAttempt q).sbp = s.sbp ∧ (s.beginAttempt q).rtu = s.rtu := by
  obtain ⟨m, o, e, p, h⟩ := (s.beginAttempt_stepped q).only
  rw [h]
  exact ⟨rfl, rfl⟩

theorem State.grantSet_rtu (owner : Owner) (bufs : List BufId) (s : State) : (s.grantSet owner bufs).rtu = s.rtu := by
  cases owner with
  | lane n => exact State.requestLaneLock_rtu n _
  | qualification =>
    unfold State.grantSet
    simp only
    split
    · rfl
    · exact (State.beginAttempt_stores _ _).2

theorem State.scanBuffersFrom_rtu (l : List BufRequest) (s : State) : (State.scanBuffersFrom l s).rtu = s.rtu := by
  induction l generalizing s with
  | nil => rfl
  | cons r rest ih =>
    simp only [State.scanBuffersFrom]
    split
    · exact (ih _).trans (State.grantSet_rtu ..)
    · rfl

theorem State.scanBuffers_rtu (s : State) : s.scanBuffers.rtu = s.rtu := State.scanBuffersFrom_rtu _ s

theorem State.resumeHeldStep_stores (s : State) : s.resumeHeldStep.sbp = s.sbp ∧ s.resumeHeldStep.rtu = s.rtu := by
  unfold State.resumeHeldStep
  split
  · exact ⟨rfl, rfl⟩
  · rename_i q _
    split
    · exact ⟨rfl, rfl⟩
    · exact s.beginAttempt_stores q
    · obtain ⟨m, o, p, h⟩ := s.beginReadBack_frame q
      rw [h]
      exact ⟨rfl, rfl⟩

/-! ## SBP is told (R113) -/

theorem State.reportQuarantineEnd_rtu (s : State) : s.reportQuarantineEnd.rtu = s.rtu :=
  (State.resumeHeldStep_stores _).2.trans (State.scanBuffers_rtu _)

/-- Buffers that no quarantined request names any longer leave the hold. -/
theorem State.reportQuarantineEnd_hold (s : State) :
    s.reportQuarantineEnd.sbp.quarantineHold = s.sbp.quarantineHold.filter s.mru.namesQuarantined :=
  (congrArg Sbp.quarantineHold (State.resumeHeldStep_stores _).1).trans
    (State.scanBuffers_granted (p := fun _ => True) fun _ _ => trivial).places.hold

/-- While nothing waits for buffers, those that leave the hold stay in the free pool. -/
theorem State.mem_reportQuarantineEnd_free {s : State} (h : s.sbp.waiting = []) (b : BufId) :
    b ∈ s.reportQuarantineEnd.sbp.free ↔
      b ∈ s.sbp.free ∨ b ∈ s.sbp.quarantineHold.filter fun b => !s.mru.namesQuarantined b := by
  have hscan : s.releaseHold.scanBuffers = s.releaseHold := State.scanBuffers_of_nil h
  have hsbp : s.reportQuarantineEnd.sbp = s.releaseHold.sbp := by
    rw [State.reportQuarantineEnd, hscan]
    exact (State.resumeHeldStep_stores _).1
  rw [hsbp]
  exact mem_joinFree ..

/-! ## The end of a quarantine -/

theorem State.landData_beginEvent_mem (r : Request) (data : List Byte) (s : State) :
    (s.beginEvent.landData r data).mem = (s.landData r data).mem := by
  unfold State.landData
  split <;> rfl

/-- A step of SBP, lanes and qualification, and then decisions, in which RTU is left alone: what stays. -/
theorem State.kept_of_work {s t u : State} (hwork : WorkOnly s t) (hissued : t.Issued u) (hrtu : t.rtu = s.rtu) :
    u.ses.state = s.ses.state ∧ u.ses.roles = s.ses.roles ∧ EventsKept s u ∧ u.rgt = s.rgt ∧ u.lrl = s.lrl ∧
      u.geo = s.geo ∧ u.rtu = s.rtu := by
  have hrtu' : u.rtu = s.rtu := by
    obtain ⟨m, o, h⟩ := hissued.only
    exact (congrArg State.rtu h).trans hrtu
  obtain ⟨m, o, l, k, a, r, b, e, q, c, rfl⟩ := hwork.trans hissued.only.work
  exact ⟨rfl, rfl, ⟨rfl, rfl, rfl⟩, rfl, rfl, rfl, hrtu'⟩

/-- The state in which SBP is told: the request with the tag has left the quarantine, at the given time, with the given bytes in
the buffer memory. -/
def State.quarantineLeft (s : State) (tag : Nat) (mem : Memory) (now : Nat) : State :=
  { s with mem := mem, mru := { s.mru with quarantined := s.mru.quarantined.filter fun r => r.tag != some tag },
           now := now, sent := [] }

/-- The end of a quarantine is the report to SBP, the tag wait order, and the decisions (R152). -/
theorem State.endQuarantine_eq (s : State) (tag : Nat) (mem : Memory) (now : Nat) :
    ({ s with mem := mem, now := now, sent := [] } : State).endQuarantine tag =
      (s.quarantineLeft tag mem now).reportQuarantineEnd.serveTagWait.decideAll := rfl

/-- What the end of a quarantine leaves: the request is gone, its buffer passes from the hold to the free pool unless another
quarantined request names it, and no block outside MRU, SBP, the lanes, SLK and qualification's progress changes. -/
theorem State.quarantineLeft_reported (s : State) (tag : Nat) (mem : Memory) (now : Nat) :
    let left := s.mru.quarantined.filter fun r => r.tag != some tag
    let t := (s.quarantineLeft tag mem now).reportQuarantineEnd.serveTagWait.decideAll
    t.mru.quarantined = left ∧ t.now = now ∧
      t.sbp.quarantineHold = s.sbp.quarantineHold.filter (fun b => left.any fun r => r.buf == b) ∧
      (s.sbp.waiting = [] → ∀ b, b ∈ t.sbp.free ↔
        b ∈ s.sbp.free ∨ b ∈ s.sbp.quarantineHold.filter fun b => !left.any fun r => r.buf == b) ∧
      (∀ x, (t.mru.pos x).timeouts = (s.mru.pos x).timeouts) ∧ t.ses.state = s.ses.state ∧ t.ses.roles = s.ses.roles ∧
      EventsKept s t ∧ t.rgt = s.rgt ∧ t.lrl = s.lrl ∧ t.geo = s.geo ∧ t.rtu = s.rtu := by
  intro left t
  set u := s.quarantineLeft tag mem now
  have hissued : u.reportQuarantineEnd.Issued t := (State.serveTagWait_issued _).trans (State.decideAll_issued _)
  have hsbp : t.sbp = u.reportQuarantineEnd.sbp := by
    obtain ⟨m, o, h⟩ := hissued.only
    rw [h]
  obtain ⟨hquarantined, hnow, htimeouts⟩ := u.reportQuarantineEnd_submits.kept
  refine ⟨hissued.quarantined.trans hquarantined, hissued.now.trans hnow,
    (congrArg Sbp.quarantineHold hsbp).trans u.reportQuarantineEnd_hold, fun hwait b => ?_,
    fun x => (hissued.timeouts x).trans (htimeouts x),
    State.kept_of_work (s := u) u.reportQuarantineEnd_only hissued u.reportQuarantineEnd_rtu⟩
  rw [hsbp]
  exact State.mem_reportQuarantineEnd_free (s := u) hwait b

/-- A late completion ends the quarantine, with the bytes it brings in the buffer memory (R142, log 6). -/
theorem exec_completion_quarantined {tag status : Byte} {s : State} {r : Request} (hmin : 1 ≤ status.toNat)
    (hmax : status.toNat ≤ 4) (hout : s.mru.findOutstanding tag.toNat = none)
    (hr : s.mru.findQuarantined tag.toNat = some r) (position : Byte) (mask : Mask) (data : List Byte) :
    exec (.completion tag status position (bytes64 mask) data) s =
      .next (s.quarantineLeft tag.toNat (s.landData r data).mem s.now).reportQuarantineEnd.serveTagWait.decideAll := by
  obtain ⟨st, hst⟩ := completionStatus_of_range hmin hmax
  rw [exec_completion, State.takeCompletion_of_quarantined (s := s.beginEvent) hst hout hr, State.landData_eq,
    State.landData_beginEvent_mem]
  exact congrArg Host.Outcome.next (s.endQuarantine_eq ..)

/-- The deadline ends the quarantine (R152). -/
theorem exec_quarantineEnd_standing {tag : Byte} {s : State} {d : Nat} (hd : s.mru.standing (.quarantineEnd tag.toNat) = some d) :
    exec (.quarantineEnd tag) s =
      .next (s.quarantineLeft tag.toNat s.mem (max s.now d)).reportQuarantineEnd.serveTagWait.decideAll :=
  congrArg Host.Outcome.next ((State.takeTimeEvent_of_standing hd).trans (s.endQuarantine_eq ..))

/-- Settles O47: a row that names no request to act on takes nothing, and both ends of a quarantine are the same report to SBP, after
which the tag wait order is served and every position decides. -/
theorem quarantineEndsAndDiscards : Obligations.QuarantineEndsAndDiscards := by
  refine ⟨fun tag status position mask data s h => exec_completion_discarded h position mask data, fun tag x s => ⟨?_, ?_, ?_⟩,
    fun tag status position mask data s i now h => ?_⟩
  · exact fun h => congrArg Host.Outcome.next (State.takeTimeEvent_of_absent h)
  · exact fun h => congrArg Host.Outcome.next (State.takeTimeEvent_of_absent h)
  · exact fun h => congrArg Host.Outcome.next (State.takeTimeEvent_of_absent h)
  rcases h with ⟨rfl, hmin, hmax, rfl, hout, hquar⟩ | ⟨rfl, d, hd, rfl⟩
  · obtain ⟨r, hr⟩ := Option.ne_none_iff_exists'.1 hquar
    have hexec := exec_completion_quarantined hmin hmax hout hr position mask data
    have hleft := s.quarantineLeft_reported tag.toNat (s.landData r data).mem s.now
    rw [hr]
    exact ⟨_, hexec, rfl, hleft⟩
  · exact ⟨_, exec_quarantineEnd_standing hd, rfl, s.quarantineLeft_reported tag.toNat s.mem (max s.now d)⟩

end Sys2Proof.Machine
end

section
/-! The byte field (R157 to R159). The products with a fixed byte, and the halvings, keep sums and commute with doubling, and every
such map is the product with its value at 1: commutativity, associativity and the divisions follow from that. -/

namespace Sys2Proof.Machine

/-! ## Doubling and halving (R157, R159) -/

theorem double_toNat (x : Byte) : (double x).toNat = if 255 < 2 * x.toNat then (2 * x.toNat) ^^^ 0x11D else 2 * x.toNat := by
  revert x
  decide +kernel

theorem halve_toNat (x : Byte) : (halve x).toNat = if x.toNat % 2 = 0 then x.toNat / 2 else (x.toNat ^^^ 0x11D) / 2 := by
  revert x
  decide +kernel

theorem halve_double (x : Byte) : halve (double x) = x := by
  revert x
  decide +kernel

theorem double_halve (x : Byte) : double (halve x) = x := by
  revert x
  decide +kernel

/-- What comes out at the top is brought back by one sum. -/
theorem double_eq_xor (x : Byte) : double x = x <<< 1 ^^^ if x.msb then 0x1D else 0 := by
  unfold double
  split
  · rfl
  · exact BitVec.xor_zero.symm

theorem double_xor (x y : Byte) : double (x ^^^ y) = double x ^^^ double y := by
  have hout : (if (x ^^^ y).msb then (0x1D : Byte) else 0) = (if x.msb then 0x1D else 0) ^^^ if y.msb then 0x1D else 0 := by
    rw [BitVec.msb_xor]
    cases x.msb <;> cases y.msb <;> rfl
  rw [double_eq_xor, double_eq_xor x, double_eq_xor y, hout, BitVec.shiftLeft_xor_distrib]
  ac_rfl

/-! ## Maps that keep sums and commute with doubling -/

/-- The map keeps sums and commutes with doubling. -/
structure FieldLinear (φ : Byte → Byte) : Prop where
  xor : ∀ x y, φ (x ^^^ y) = φ x ^^^ φ y
  double : ∀ x, φ (double x) = Machine.double (φ x)

theorem FieldLinear.id : FieldLinear fun x => x := ⟨fun _ _ => rfl, fun _ => rfl⟩

theorem FieldLinear.comp {φ ψ : Byte → Byte} (h : FieldLinear φ) (h' : FieldLinear ψ) : FieldLinear fun x => φ (ψ x) :=
  ⟨fun x y => by rw [h'.xor, h.xor], fun x => by rw [h'.double, h.double]⟩

theorem FieldLinear.zero {φ : Byte → Byte} (h : FieldLinear φ) : φ 0 = 0 := by
  have hsum := h.xor 0 0
  rwa [BitVec.xor_self, BitVec.xor_self] at hsum

theorem double_linear : FieldLinear double := ⟨double_xor, fun _ => rfl⟩

theorem halve_linear : FieldLinear halve where
  xor x y := by rw [← halve_double (halve x ^^^ halve y), double_xor, double_halve, double_halve]
  double x := by rw [halve_double, double_halve]

theorem halveTimes_linear (a : Nat) : FieldLinear (halveTimes a) := by
  induction a with
  | zero => exact .id
  | succ a ih => exact ih.comp halve_linear

/-! ## The product (R158) -/

/-- The sum of the doublings of x that the bits of y select. -/
def selectedSum (n : Nat) (x y : Byte) : Byte :=
  (List.range n).foldr (fun i acc => (if y.getLsbD i then double^[i] x else 0) ^^^ acc) 0

theorem selectedSum_succ (n : Nat) (x y : Byte) :
    selectedSum (n + 1) x y = (if y.getLsbD 0 then x else 0) ^^^ selectedSum n (double x) (y >>> 1) := by
  rw [selectedSum, List.range_succ_eq_map, List.foldr_cons, List.foldr_map]
  simp only [Function.iterate_zero, id, Function.iterate_succ_apply, Nat.succ_eq_add_one, selectedSum, BitVec.getLsbD_ushiftRight,
    Nat.add_comm 1]

theorem mulSteps_eq_selectedSum (n : Nat) (x y : Byte) : mulSteps n x y = selectedSum n x y := by
  induction n generalizing x y with
  | zero => rfl
  | succ n ih => rw [mulSteps, ih, selectedSum_succ]

theorem gmul_eq_selectedSum (x y : Byte) : gmul x y = selectedSum 8 x y := mulSteps_eq_selectedSum 8 x y

theorem FieldLinear.map_mulSteps {φ : Byte → Byte} (h : FieldLinear φ) (n : Nat) (x y : Byte) :
    φ (mulSteps n x y) = mulSteps n (φ x) y := by
  induction n generalizing x y with
  | zero => exact h.zero
  | succ n ih =>
    rw [mulSteps, h.xor, ih, h.double, mulSteps, apply_ite φ, h.zero]

theorem FieldLinear.map_gmul {φ : Byte → Byte} (h : FieldLinear φ) (x y : Byte) : φ (gmul x y) = gmul (φ x) y :=
  h.map_mulSteps 8 x y

theorem one_gmul (x : Byte) : gmul 1 x = x := by
  revert x
  decide +kernel

/-- A map that keeps sums and commutes with doubling is the product with its value at 1. -/
theorem FieldLinear.eq_gmul {φ : Byte → Byte} (h : FieldLinear φ) (x : Byte) : φ x = gmul (φ 1) x := by
  rw [← h.map_gmul, one_gmul]

theorem mulSteps_xor (n : Nat) (x x' y : Byte) : mulSteps n (x ^^^ x') y = mulSteps n x y ^^^ mulSteps n x' y := by
  induction n generalizing x x' y with
  | zero => exact BitVec.xor_self.symm
  | succ n ih =>
    rw [mulSteps, double_xor, ih, mulSteps, mulSteps]
    cases y.getLsbD 0
    · simp
    · simp only [if_true]
      ac_rfl

theorem gmul_linear (y : Byte) : FieldLinear fun x => gmul x y :=
  ⟨fun x x' => mulSteps_xor 8 x x' y, fun x => (double_linear.map_gmul x y).symm⟩

theorem gmul_comm (x y : Byte) : gmul x y = gmul y x := by
  have h := (gmul_linear y).eq_gmul x
  rwa [one_gmul] at h

theorem gmul_assoc (x y z : Byte) : gmul (gmul x y) z = gmul x (gmul y z) := by
  rw [gmul_comm x y, (gmul_linear z).map_gmul, gmul_comm]

theorem gmul_one (x : Byte) : gmul x 1 = x := (gmul_comm x 1).trans (one_gmul x)

theorem gmul_zero (x : Byte) : gmul x 0 = 0 := (gmul_comm x 0).trans (gmul_linear x).zero

theorem xor_gmul (x y z : Byte) : gmul (x ^^^ y) z = gmul x z ^^^ gmul y z := (gmul_linear z).xor x y

theorem gmul_xor (x y z : Byte) : gmul x (y ^^^ z) = gmul x y ^^^ gmul x z := by
  rw [gmul_comm, xor_gmul, gmul_comm y, gmul_comm z]

/-! ## The powers of the generator and their inverses (R158, R159) -/

theorem halveTimes_eq_gmul (a : Nat) (x : Byte) : halveTimes a x = gmul x (halveTimes a 1) :=
  ((halveTimes_linear a).eq_gmul x).trans (gmul_comm _ _)

theorem halveTimes_gpow (a : Nat) : halveTimes a (gpow a) = 1 := by
  induction a with
  | zero => rfl
  | succ a ih => rw [gpow, halveTimes, halve_double, ih]

/-- Halving a times divides by g^a. -/
theorem halveTimes_gpow_gmul (a : Nat) (x : Byte) : halveTimes a (gmul (gpow a) x) = x := by
  rw [(halveTimes_linear a).map_gmul, halveTimes_gpow, one_gmul]

theorem gpow_gmul_halveTimes (a : Nat) (x : Byte) : gmul (gpow a) (halveTimes a x) = x := by
  rw [gmul_comm, ← (halveTimes_linear a).map_gmul, gmul_comm, halveTimes_gpow_gmul]

theorem gpow_injOn {a b : Nat} (ha : a < 14) (hb : b < 14) (h : gpow a = gpow b) : a = b := by
  have hnodup : ((List.range 14).map gpow).Nodup := by decide +kernel
  exact List.inj_on_of_nodup_map hnodup (List.mem_range.2 ha) (List.mem_range.2 hb) h

/-- The divisor of the case of two missing data strips is not 0 (R158, R167). -/
theorem gpow_xor_gpow_ne_zero {a b : Nat} (ha : a < 14) (hb : b < 14) (h : a ≠ b) : gpow a ^^^ gpow b ≠ 0 :=
  fun hzero => h (gpow_injOn ha hb (BitVec.xor_eq_zero_iff.1 hzero))

/-- The generator generates every byte but 0. -/
theorem exists_gpow {c : Byte} (h : c ≠ 0) : ∃ k, gpow k = c := by
  have hall : ∀ x : Byte, x ≠ 0 → x ∈ (List.range 255).map gpow := by decide +kernel
  obtain ⟨k, -, hk⟩ := List.mem_map.1 (hall c h)
  exact ⟨k, hk⟩

theorem eq_of_gmul_eq_one {c x y : Byte} (hx : gmul c x = 1) (hy : gmul c y = 1) : y = x := by
  rw [← one_gmul y, ← hx, gmul_comm c, gmul_assoc, hy, gmul_one]

theorem gmul_inverse {c : Byte} (h : c ≠ 0) : gmul c (inverse c) = 1 := by
  obtain ⟨k, rfl⟩ := exists_gpow h
  have hin : halveTimes k 1 ∈ (List.range 256).map (BitVec.ofNat 8) :=
    List.mem_map.2 ⟨(halveTimes k 1).toNat, List.mem_range.2 (halveTimes k 1).isLt, by rw [BitVec.ofNat_toNat, BitVec.setWidth_eq]⟩
  have hfound : (((List.range 256).map (BitVec.ofNat 8)).find? fun y => gmul (gpow k) y == 1).isSome :=
    List.find?_isSome.2 ⟨_, hin, beq_iff_eq.2 (gpow_gmul_halveTimes k 1)⟩
  obtain ⟨y, hy⟩ := Option.isSome_iff_exists.1 hfound
  rw [inverse, hy, Option.getD_some]
  simpa using List.find?_some hy

/-- Settles O52: each line of the statement by its lemma, and the two tables of Table 8-1 by evaluation. -/
theorem byteFieldArithmetic : Obligations.ByteFieldArithmetic := by
  refine ⟨fun x => ⟨double_toNat x, BitVec.xor_self⟩, by decide, gmul_eq_selectedSum, fun x y z => ?_, by decide +kernel,
    by decide +kernel, fun a b ha hb hab => gpow_xor_gpow_ne_zero ha hb hab,
    fun x => ⟨halve_toNat x, halve_double x, double_halve x⟩,
    fun a x => ⟨halveTimes_eq_gmul a x, gpow_gmul_halveTimes a 1⟩,
    fun c y hc => ⟨gmul_inverse hc, fun hy => eq_of_gmul_eq_one (gmul_inverse hc) hy⟩, by decide +kernel⟩
  exact ⟨gmul_zero x, gmul_one x, gmul_comm x y, gmul_assoc x y z, gmul_xor x y z⟩

end Sys2Proof.Machine
end

section
/-! The solve cases of Table 8-2: each equation is solved for the byte it is to give, and each case's value is that byte. -/

namespace Sys2Proof.Machine

/-! ## Sums of bytes over data indices -/

/-- The sum of the bytes that `w` gives the indices. -/
def xorSum (ds : List Nat) (w : Nat → Byte) : Byte := ds.foldr (fun d acc => w d ^^^ acc) 0

theorem xorSum_congr {ds : List Nat} {v w : Nat → Byte} (h : ∀ d ∈ ds, v d = w d) : xorSum ds v = xorSum ds w := by
  induction ds with
  | nil => rfl
  | cons d ds ih =>
    have hrest := ih fun e he => h e (List.mem_cons_of_mem d he)
    rw [xorSum, xorSum, List.foldr_cons, List.foldr_cons, h d List.mem_cons_self]
    exact congrArg _ hrest

/-- One index's byte taken out of a sum over indices none of which comes twice. -/
theorem xorSum_filter_ne {ds : List Nat} (hds : ds.Nodup) {a : Nat} (ha : a ∈ ds) (w : Nat → Byte) :
    xorSum ds w = w a ^^^ xorSum (ds.filter (· != a)) w := by
  have hperm : ds.Perm (a :: ds.filter (· != a)) := by
    rw [← hds.erase_eq_filter]
    exact List.perm_cons_erase ha
  refine hperm.foldr_eq' (fun x _ y _ acc => ?_) 0
  ac_rfl

/-- The cancellation that rearranges a parity equation (R157). -/
theorem xor_xor_cancel_left (x y : Byte) : x ^^^ (x ^^^ y) = y := by
  rw [← BitVec.xor_assoc, BitVec.xor_self, BitVec.zero_xor]

theorem xor_eq_iff (x y z : Byte) : x ^^^ y = z ↔ x = z ^^^ y := by
  constructor
  · rintro rfl
    rw [BitVec.xor_assoc, BitVec.xor_self, BitVec.xor_zero]
  · rintro rfl
    rw [BitVec.xor_assoc, BitVec.xor_self, BitVec.xor_zero]

/-! ## The places of a stripe by role -/

section Stripe

variable {p : Profile} {s : Nat} {r : Nat → Byte} {c : Column}

/-- The position that holds the strip of a role. -/
def Profile.place (p : Profile) (s : Nat) : StripRole → Nat
  | .p => p.pPos s
  | .q => p.qPos s
  | .data d => p.dataPos s d

/-- The roles of a stripe: P, Q and the data indices below N − 2. -/
def Profile.HasRole (p : Profile) : StripRole → Prop
  | .p => True
  | .q => True
  | .data d => d < p.n - 2

theorem Profile.role_place (h : 4 ≤ p.n) {k : StripRole} (hk : p.HasRole k) : p.role s (p.place s k) = k := by
  cases k with
  | p => exact if_pos rfl
  | q => exact (if_neg (p.pPos_ne_qPos s h).symm).trans (if_pos rfl)
  | data d =>
    obtain ⟨hlt, hp, hq⟩ := p.dataPos_avoids s h hk
    have hd := p.dataPos_injective s h (p.dataIndex_lt s h hlt hp hq) hk (p.dataPos_dataIndex s h hlt hp hq)
    exact (p.role_data s h hlt hp hq).trans (congrArg _ hd)

theorem Profile.place_lt (h : 4 ≤ p.n) {k : StripRole} (hk : p.HasRole k) : p.place s k < p.n := by
  cases k with
  | p => exact p.pPos_lt s h
  | q => exact p.qPos_lt s h
  | data d => exact (p.dataPos_avoids s h hk).1

/-- Every position holds the strip of one role (R6). -/
theorem Profile.exists_role (h : 4 ≤ p.n) {x : Nat} (hx : x < p.n) : ∃ k, p.HasRole k ∧ x = p.place s k := by
  by_cases hp : x = p.pPos s
  · exact ⟨.p, trivial, hp⟩
  by_cases hq : x = p.qPos s
  · exact ⟨.q, trivial, hq⟩
  exact ⟨.data (p.dataIndex s x), p.dataIndex_lt s h hx hp hq, (p.dataPos_dataIndex s h hx hp hq).symm⟩

/-! ## The bytes read and the bytes of the stripe -/

/-- The bytes read are those of the row `r` but for the strips of the roles `out`. -/
def Column.Shows (c : Column) (p : Profile) (s : Nat) (r : Nat → Byte) (out : List StripRole) : Prop :=
  ∀ k, p.HasRole k → k ∉ out → c.getD (p.place s k) 0 = r (p.place s k)

theorem Column.Shows.mono {out out' : List StripRole} (h : c.Shows p s r out) (hsub : out ⊆ out') : c.Shows p s r out' :=
  fun k hk hout => h k hk fun hin => hout (hsub hin)

/-- The bytes of the positions that are neither F nor missing show the row but for the strips of F and of the others missing. -/
theorem Column.shows_of_read (h : 4 ≤ p.n) {f : Nat} {missing : List Nat}
    (hread : ∀ y, y < p.n → y ≠ f → y ∉ missing → c.getD y 0 = r y) :
    c.Shows p s r (p.role s f :: (missing.filter (· != f)).map (p.role s)) := by
  intro k hk hout
  obtain ⟨hf, hothers⟩ := not_or.1 (mt List.mem_cons.2 hout)
  have hrole : p.role s (p.place s k) = k := Profile.role_place h hk
  have hne : p.place s k ≠ f := fun heq => hf (by rw [← heq, hrole])
  refine hread _ (p.place_lt h hk) hne fun hin => hothers (List.mem_map.2 ⟨_, ?_, hrole⟩)
  exact List.mem_filter.2 ⟨hin, bne_iff_ne.2 hne⟩

/-! ## Sums of the bytes read -/

theorem Profile.mem_dataExcept {out : List Nat} {d : Nat} : d ∈ p.dataExcept out ↔ d < p.n - 2 ∧ d ∉ out := by
  simp [Profile.dataExcept]

/-- The data index taken out of a sum of which it is a part. -/
theorem xorSum_dataExcept {a : Nat} (ha : a < p.n - 2) {out : List Nat} (hout : a ∉ out) (w : Nat → Byte) :
    xorSum (p.dataExcept out) w = w a ^^^ xorSum (p.dataExcept (a :: out)) w := by
  have hnodup : (p.dataExcept out).Nodup := List.nodup_range.filter _
  rw [xorSum_filter_ne hnodup (Profile.mem_dataExcept.2 ⟨ha, hout⟩) w]
  congr 2
  simp only [Profile.dataExcept, List.filter_filter]
  refine List.filter_congr fun d _ => ?_
  simp [bne, beq_eq_decide]

theorem xorSum_range (p : Profile) (w : Nat → Byte) : xorSum (List.range (p.n - 2)) w = xorSum (p.dataExcept []) w := by
  simp [Profile.dataExcept]

theorem Column.Shows.sumP {out : List StripRole} (h : c.Shows p s r out) {ds : List Nat}
    (hds : ∀ d, .data d ∈ out → d ∈ ds) :
    c.sumP p s (p.dataExcept ds) = xorSum (p.dataExcept ds) fun d => r (p.dataPos s d) := by
  refine xorSum_congr fun d hd => ?_
  obtain ⟨hlt, hout⟩ := Profile.mem_dataExcept.1 hd
  exact h (.data d) hlt (mt (hds d) hout)

theorem Column.Shows.sumQ {out : List StripRole} (h : c.Shows p s r out) {ds : List Nat}
    (hds : ∀ d, .data d ∈ out → d ∈ ds) :
    c.sumQ p s (p.dataExcept ds) = xorSum (p.dataExcept ds) fun d => gmul (gpow d) (r (p.dataPos s d)) := by
  refine xorSum_congr fun d hd => ?_
  obtain ⟨hlt, hout⟩ := Profile.mem_dataExcept.1 hd
  exact congrArg _ (h (.data d) hlt (mt (hds d) hout))

/-! ## Each equation solved for one byte (R164 to R166, R168 to R170) -/

theorem Column.Shows.recomputeP_iff (h : c.Shows p s r [.p, .q]) :
    c.sumP p s (p.dataExcept []) = r (p.pPos s) ↔ PEquation p s r := by
  rw [h.sumP (by simp), ← xorSum_range]
  exact eq_comm

theorem Column.Shows.recomputeQ_iff (h : c.Shows p s r [.p, .q]) :
    c.sumQ p s (p.dataExcept []) = r (p.qPos s) ↔ QEquation p s r := by
  rw [h.sumQ (by simp), ← xorSum_range]
  exact eq_comm

theorem pEquation_iff {a : Nat} (ha : a < p.n - 2) : PEquation p s r ↔
    r (p.pPos s) = r (p.dataPos s a) ^^^ xorSum (p.dataExcept [a]) fun d => r (p.dataPos s d) := by
  rw [← xorSum_dataExcept ha List.not_mem_nil fun d => r (p.dataPos s d), ← xorSum_range]
  rfl

theorem qEquation_iff {a : Nat} (ha : a < p.n - 2) : QEquation p s r ↔
    r (p.qPos s) = gmul (gpow a) (r (p.dataPos s a)) ^^^
      xorSum (p.dataExcept [a]) fun d => gmul (gpow d) (r (p.dataPos s d)) := by
  rw [← xorSum_dataExcept ha List.not_mem_nil fun d => gmul (gpow d) (r (p.dataPos s d)), ← xorSum_range]
  rfl

theorem Column.Shows.fromP_iff {a : Nat} (ha : a < p.n - 2) (h : c.Shows p s r [.data a, .q]) :
    c.fromP p s a = r (p.dataPos s a) ↔ PEquation p s r := by
  have hp : c.p p s = r (p.pPos s) := h .p trivial (by simp)
  rw [Column.fromP, hp, h.sumP (by simp), pEquation_iff ha, xor_eq_iff]

theorem Column.Shows.fromQ_iff {a : Nat} (ha : a < p.n - 2) (h : c.Shows p s r [.data a, .p]) :
    c.fromQ p s a = r (p.dataPos s a) ↔ QEquation p s r := by
  have hq : c.q p s = r (p.qPos s) := h .q trivial (by simp)
  have hdivide (x y : Byte) : halveTimes a x = y ↔ x = gmul (gpow a) y :=
    ⟨by rintro rfl; exact (gpow_gmul_halveTimes a x).symm, by rintro rfl; exact halveTimes_gpow_gmul a y⟩
  rw [Column.fromQ, hdivide, hq, h.sumQ (by simp), qEquation_iff ha, xor_eq_iff]

/-- Data a from Q, and then P (R168). -/
theorem Column.Shows.pThroughQ {a : Nat} (ha : a < p.n - 2) (h : c.Shows p s r [.data a, .p]) (hr : ParityHolds p s r) :
    (SolveCase.pThroughQ a).value p s c = r (p.pPos s) := by
  obtain ⟨hp, hq⟩ := hr
  rw [SolveCase.value, (h.fromQ_iff ha).2 hq, h.sumP (by simp), (pEquation_iff ha).1 hp]

/-- Data a from P, and then Q (R169). -/
theorem Column.Shows.qThroughP {a : Nat} (ha : a < p.n - 2) (h : c.Shows p s r [.data a, .q]) (hr : ParityHolds p s r) :
    (SolveCase.qThroughP a).value p s c = r (p.qPos s) := by
  obtain ⟨hp, hq⟩ := hr
  rw [SolveCase.value, (h.fromP_iff ha).2 hp, h.sumQ (by simp), (qEquation_iff ha).1 hq]

/-! ## Two data strips (R167) -/

/-- What the two equations leave for two data bytes: their sum, and the sum of their weighted values. -/
theorem Column.Shows.twoData_sums {a b : Nat} (ha : a < p.n - 2) (hb : b < p.n - 2) (hab : a ≠ b)
    (h : c.Shows p s r [.data a, .data b]) (hr : ParityHolds p s r) :
    c.p p s ^^^ c.sumP p s (p.dataExcept [a, b]) = r (p.dataPos s a) ^^^ r (p.dataPos s b) ∧
      c.q p s ^^^ c.sumQ p s (p.dataExcept [a, b]) =
        gmul (gpow a) (r (p.dataPos s a)) ^^^ gmul (gpow b) (r (p.dataPos s b)) := by
  obtain ⟨hp, hq⟩ := hr
  have hcp : c.p p s = r (p.pPos s) := h .p trivial (by simp)
  have hcq : c.q p s = r (p.qPos s) := h .q trivial (by simp)
  have ha' : a ∉ [b] := by simpa using hab
  refine ⟨?_, ?_⟩
  · rw [hcp, h.sumP (by simp), xor_eq_iff, (pEquation_iff hb).1 hp, xorSum_dataExcept ha ha']
    ac_rfl
  · rw [hcq, h.sumQ (by simp), xor_eq_iff, (qEquation_iff hb).1 hq, xorSum_dataExcept ha ha']
    ac_rfl

/-- Two equations in two unknown bytes, solved for the first. -/
theorem two_unknowns {ga gb x y : Byte} (h : ga ^^^ gb ≠ 0) :
    gmul (gmul gb (x ^^^ y) ^^^ (gmul ga x ^^^ gmul gb y)) (inverse (ga ^^^ gb)) = x := by
  have hsum : gmul gb (x ^^^ y) ^^^ (gmul ga x ^^^ gmul gb y) = gmul x (ga ^^^ gb) := by
    calc gmul gb (x ^^^ y) ^^^ (gmul ga x ^^^ gmul gb y)
        = gmul gb y ^^^ (gmul gb y ^^^ (gmul ga x ^^^ gmul gb x)) := by rw [gmul_xor]; ac_rfl
      _ = gmul ga x ^^^ gmul gb x := xor_xor_cancel_left _ _
      _ = gmul x (ga ^^^ gb) := by rw [gmul_xor, gmul_comm x, gmul_comm x]
  rw [hsum, gmul_assoc, gmul_inverse h, gmul_one]

theorem Column.Shows.twoData {a b : Nat} (hn : p.n ≤ 16) (ha : a < p.n - 2) (hb : b < p.n - 2) (hab : a ≠ b)
    (h : c.Shows p s r [.data a, .data b]) (hr : ParityHolds p s r) (wantLow : Bool) :
    (SolveCase.twoData a b (inverse (gpow a ^^^ gpow b)) wantLow).value p s c =
      if wantLow then r (p.dataPos s a) else r (p.dataPos s b) := by
  obtain ⟨hsum, hweighted⟩ := h.twoData_sums ha hb hab hr
  have hlow := two_unknowns (x := r (p.dataPos s a)) (y := r (p.dataPos s b))
    (gpow_xor_gpow_ne_zero (a := a) (b := b) (by omega) (by omega) hab)
  simp only [SolveCase.value, hsum, hweighted, hlow]
  cases wantLow with
  | true => rfl
  | false =>
    simp only [Bool.false_eq_true, if_false]
    rw [BitVec.xor_comm (r (p.dataPos s a)), xor_eq_iff]

/-- F's data byte d, with data e missing too (R167). -/
theorem Column.Shows.twoDataCase {d e : Nat} (hn : p.n ≤ 16) (hd : d < p.n - 2) (he : e < p.n - 2) (hde : d ≠ e)
    (h : c.Shows p s r [.data d, .data e]) (hr : ParityHolds p s r) :
    (twoDataCase d e).value p s c = r (p.dataPos s d) := by
  unfold Machine.twoDataCase
  split
  · exact h.twoData hn hd he hde hr true
  · exact (h.mono (by simp)).twoData hn he hd hde.symm hr false

/-! ## The case that fits (R163) -/

/-- The case with F alone missing, by F's role. -/
def aloneCase : StripRole → SolveCase
  | .data a => .dataFromP a
  | .p => .recomputeP
  | .q => .recomputeQ

/-- The case with one position besides F missing, by the two roles. -/
def pairCase : StripRole → StripRole → SolveCase
  | .data d, .data e => twoDataCase d e
  | .data a, .p => .dataFromQ a
  | .p, .data a => .pThroughQ a
  | .data a, .q => .dataFromP a
  | .q, .data a => .qThroughP a
  | .p, _ => .recomputeP
  | .q, _ => .recomputeQ

theorem solveCase_alone {f : Nat} {missing : List Nat} (h : missing.filter (· != f) = []) :
    solveCase p s f missing = aloneCase (p.role s f) := by
  rw [solveCase, h]
  rfl

theorem solveCase_pair {f x : Nat} {missing : List Nat} (h : missing.filter (· != f) = [x]) :
    solveCase p s f missing = pairCase (p.role s f) (p.role s x) := by
  rw [solveCase, h]
  rfl

theorem solveCase_fill {f : Nat} {missing : List Nat} (h : 2 ≤ (missing.filter (· != f)).length) :
    solveCase p s f missing = .fill := by
  unfold solveCase
  match hm : missing.filter (· != f) with
  | [] => simp [hm] at h
  | [x] => simp [hm] at h
  | _ :: _ :: _ => rfl

/-- One position besides F missing: the case gives F's byte (R167 to R170). -/
theorem pairCase_value (hn : p.n ≤ 16) {kf kx : StripRole} (hf : p.HasRole kf) (hx : p.HasRole kx) (hne : kf ≠ kx)
    (h : c.Shows p s r [kf, kx]) (hr : ParityHolds p s r) : (pairCase kf kx).value p s c = r (p.place s kf) := by
  obtain ⟨hp, hq⟩ := id hr
  cases kf with
  | data a =>
    cases kx with
    | data e => exact h.twoDataCase hn hf hx (fun e => hne (congrArg _ e)) hr
    | p => exact (h.fromQ_iff hf).2 hq
    | q => exact (h.fromP_iff hf).2 hp
  | p =>
    cases kx with
    | data a => exact (h.mono (by simp)).pThroughQ hx hr
    | p => exact absurd rfl hne
    | q => exact h.recomputeP_iff.2 hp
  | q =>
    cases kx with
    | data a => exact (h.mono (by simp)).qThroughP hx hr
    | p => exact (h.mono (by simp)).recomputeQ_iff.2 hq
    | q => exact absurd rfl hne

/-- The equation that gives F's byte with F alone missing: P, or Q where F holds Q. -/
def AloneEquation (p : Profile) (s : Nat) (r : Nat → Byte) : StripRole → Prop
  | .q => QEquation p s r
  | _ => PEquation p s r

/-- F alone missing: the value is F's byte exactly when the equation it is from holds, and then the cross-check decides the other
equation (R164 to R166). -/
theorem aloneCase_decides {kf : StripRole} (hf : p.HasRole kf) (h : c.Shows p s r [kf]) :
    ((aloneCase kf).value p s c = r (p.place s kf) ↔ AloneEquation p s r kf) ∧
      ((aloneCase kf).value p s c = r (p.place s kf) → ((aloneCase kf).agrees p s c = true ↔ ParityHolds p s r)) := by
  cases kf with
  | data a =>
    have hp := (h.mono (out' := [.data a, .q]) (by simp)).fromP_iff hf
    have hq := (h.mono (out' := [.data a, .p]) (by simp)).fromQ_iff hf
    refine ⟨hp, fun hv => ?_⟩
    have hv' : c.fromP p s a = r (p.dataPos s a) := hv
    rw [aloneCase, SolveCase.agrees, beq_iff_eq, hv', hq, ParityHolds, and_iff_right (hp.1 hv')]
  | p =>
    have hs := h.mono (out' := [.p, .q]) (by simp)
    have hcq : c.q p s = r (p.qPos s) := h .q trivial (by simp)
    refine ⟨hs.recomputeP_iff, fun hv => ?_⟩
    rw [aloneCase, SolveCase.agrees, beq_iff_eq, hcq, hs.recomputeQ_iff, ParityHolds, and_iff_right (hs.recomputeP_iff.1 hv)]
  | q =>
    have hs := h.mono (out' := [.p, .q]) (by simp)
    have hcp : c.p p s = r (p.pPos s) := h .p trivial (by simp)
    refine ⟨hs.recomputeQ_iff, fun hv => ?_⟩
    rw [aloneCase, SolveCase.agrees, beq_iff_eq, hcp, hs.recomputeP_iff, ParityHolds, and_iff_left (hs.recomputeQ_iff.1 hv)]

theorem ParityHolds.aloneEquation (h : ParityHolds p s r) (k : StripRole) : AloneEquation p s r k := by
  obtain ⟨hp, hq⟩ := h
  cases k with
  | q => exact hq
  | p => exact hp
  | data d => exact hp

theorem aloneEquation_place (h : 4 ≤ p.n) {k : StripRole} (hk : p.HasRole k) (he : AloneEquation p s r k) :
    (p.place s k ≠ p.qPos s → PEquation p s r) ∧ (p.place s k = p.qPos s → QEquation p s r) := by
  cases k with
  | q => exact ⟨fun hne => absurd rfl hne, fun _ => he⟩
  | p => exact ⟨fun _ => he, fun heq => absurd heq (p.pPos_ne_qPos s h)⟩
  | data d => exact ⟨fun _ => he, fun heq => absurd heq (p.dataPos_avoids s h hk).2.2⟩

end Stripe

/-- Settles O53: the bytes read show the stripe's but for the strips of the missing roles, and the case by those roles gives F's
byte; with F alone missing the cross-check decides the row completed with that byte. -/
theorem rcdRecoversTheSpareByte : Obligations.RcdRecoversTheSpareByte := by
  refine ⟨fun p s f missing c read h hn hf hone hr hread => ?_, fun p s f missing read h hn hf halone => ?_⟩
  · obtain ⟨kf, hkf, rfl⟩ := p.exists_role (s := s) h hf
    have hshow := Column.shows_of_read (s := s) h hread
    rw [Profile.role_place h hkf] at hshow
    rcases hone with halone | ⟨x, hx, hpair⟩
    · rw [halone] at hshow
      obtain ⟨hvalue, hagrees⟩ := aloneCase_decides hkf hshow
      rw [solveCase_alone halone, Profile.role_place h hkf]
      have hv := hvalue.2 (hr.aloneEquation kf)
      exact ⟨hv, fun _ => (hagrees hv).2 hr⟩
    · have hxf : x ≠ p.place s kf := by
        have hin : x ∈ missing.filter (· != p.place s kf) := hpair ▸ List.mem_singleton_self x
        exact bne_iff_ne.1 (List.mem_filter.1 hin).2
      obtain ⟨kx, hkx, rfl⟩ := p.exists_role (s := s) h hx
      have hroles : p.role s (p.place s kx) = kx := Profile.role_place h hkx
      rw [hpair, List.map_singleton, hroles] at hshow
      rw [solveCase_pair hpair, Profile.role_place h hkf, hroles]
      refine ⟨pairCase_value hn hkf hkx (fun heq => hxf (by rw [heq])) hshow hr, fun halone => ?_⟩
      rw [hpair] at halone
      cases halone
  · intro full
    obtain ⟨kf, hkf, rfl⟩ := p.exists_role (s := s) h hf
    have hshow : read.Shows p s full [kf] := by
      have hread := Column.shows_of_read (s := s) (c := read) (r := full) (missing := missing) h
        fun y _ hne _ => (if_neg hne).symm
      rwa [halone, Profile.role_place h hkf] at hread
    obtain ⟨hvalue, hagrees⟩ := aloneCase_decides hkf hshow
    have hfull : (solveCase p s (p.place s kf) missing).value p s read = full (p.place s kf) := (if_pos rfl).symm
    rw [solveCase_alone halone, Profile.role_place h hkf] at hfull ⊢
    obtain ⟨hp, hq⟩ := aloneEquation_place h hkf (hvalue.1 hfull)
    exact ⟨hp, hq, hagrees hfull⟩

end Sys2Proof.Machine
end

section
/-! RCD takes a block (R123, R161, R162, R164 to R172): the bytes it writes, what joins the stripe's masks, and the entry into
WRITING after the last block. -/

namespace Sys2Proof.Machine

/-! ## The missing set (R162) -/

theorem State.isMissing_iff (s : State) (cell : ReadCell) (b x : Nat) : s.isMissing cell b x = true ↔
    (s.ses.failedPos = some x ∨ s.ses.faultedSurvivor = some x) ∨
      cell.status = .missing ∨ ∃ mask, cell.status = .part mask ∧ mask.getLsbD b = true := by
  rw [State.isMissing, Bool.or_eq_true, s.isExcluded_iff]
  cases cell.status <;> simp [Mask.holds]

theorem getElem?_getD_nil {α : Type} (rows : List (List α)) (i x : Nat) :
    (rows.getD i [])[x]? = (rows[i]?).bind (·[x]?) := by
  rw [List.getD_eq_getElem?_getD]
  cases rows[i]? with
  | none => rfl
  | some row => rfl

/-- A position without a cell in the read record is missing only where it is not read. -/
theorem State.mem_missingSet (n : Fin 4) (s : State) (i b x : Nat) : x ∈ s.missingSet n i b ↔ x < s.profile.n ∧
    (s.ses.failedPos = some x ∨ s.ses.faultedSurvivor = some x ∨
      ∃ cell, (s.lanes[n].reads[i]?).bind (·[x]?) = some cell ∧
        (cell.status = .missing ∨ ∃ mask, cell.status = .part mask ∧ mask.getLsbD b = true)) := by
  rw [State.missingSet, List.mem_filter, List.mem_range, State.isMissing_iff, or_assoc, getElem?_getD_nil]
  cases (s.lanes[n].reads[i]?).bind (·[x]?) with
  | none => simp
  | some cell => simp

/-! ## The bytes of a block (R164 to R172) -/

theorem mapColumns_eq_map {α : Type} (f : Column → α) (n : Nat) (strips : List (List Byte)) :
    mapColumns f n strips = (List.range n).map fun i => f (strips.map fun bytes => bytes.getD i 0) := by
  induction n generalizing strips with
  | zero => rfl
  | succ n ih =>
    have hhead (bytes : List Byte) : bytes.headD 0 = bytes.getD 0 0 := by cases bytes <;> rfl
    have htail (bytes : List Byte) (i : Nat) : bytes.tail.getD i 0 = bytes.getD (i + 1) 0 := by cases bytes <;> rfl
    rw [mapColumns, ih, List.range_succ_eq_map, List.map_cons, List.map_map]
    simp only [hhead, List.map_map, Function.comp_def, htail, Nat.succ_eq_add_one]

/-- RCD reads the lane's buffers byte by byte (R160). -/
theorem State.column_blockStrips {s : State} (h : s.mem.wf = true) (n : Fin 4) (place b : Nat) {i : Nat} (hi : i < 4096) :
    (s.blockStrips n place b).map (fun bytes => bytes.getD i 0) = s.columnAt n place b i := by
  have hrising : Memory.rising s.mem = true := (Bool.and_eq_true_iff.1 h).1
  rw [State.blockStrips, List.map_map, State.columnAt]
  exact List.map_congr_left fun x _ => Memory.getD_bytesAt hrising hi

theorem State.mapColumns_blockStrips {α : Type} {s : State} (h : s.mem.wf = true) (f : Column → α) (n : Fin 4) (place b : Nat) :
    mapColumns f blockBytes (s.blockStrips n place b) = (List.range 4096).map fun i => f (s.columnAt n place b i) := by
  rw [mapColumns_eq_map]
  exact List.map_congr_left fun i hi => congrArg f (s.column_blockStrips h n place b (List.mem_range.1 hi))

theorem getD_fillBytes (kind : FillKind) (stripe b : Nat) {i : Nat} (hi : i < 4096) :
    (fillBytes kind stripe b).getD i 0 = fillByte kind stripe b i := by
  rw [List.getD_eq_getElem?_getD]
  cases kind with
  | zero =>
    rw [fillBytes, List.getElem?_replicate, blockBytes, if_pos hi]
    rfl
  | marked =>
    rw [fillBytes, fillByte]
    rcases Nat.lt_trichotomy i 4 with hlt | rfl | hgt
    · rw [if_pos hlt, List.append_assoc, List.getElem?_append_left (by rwa [length_leBytes]), leBytes_eq_map,
        List.getElem?_map, List.getElem?_range hlt]
      rfl
    · rfl
    · have hfront : (leBytes 4 stripe ++ leBytes 1 b).length = 5 := by rw [List.length_append, length_leBytes, length_leBytes]
      rw [if_neg (by omega), if_neg (by omega), List.getElem?_append_right (by omega), hfront, List.getElem?_replicate, blockBytes,
        if_pos (by omega), Option.getD_some]

theorem State.getD_solvedBytes {s : State} (h : s.mem.wf = true) (k : SolveCase) (n : Fin 4) (place stripe b : Nat) {i : Nat}
    (hi : i < 4096) : (s.solvedBytes k n place stripe b).getD i 0 =
      if k = .fill then fillByte (s.ses.fillKind.getD .zero) stripe b i
      else k.value s.profile stripe (s.columnAt n place b i) := by
  rw [State.solvedBytes]
  split
  · exact getD_fillBytes _ _ _ hi
  · rw [State.mapColumns_blockStrips h]
    simp [List.getD_eq_getElem?_getD, hi]

/-- A block is suspect where F alone is missing, the check is ON, and one byte disagrees (R164 to R166). -/
theorem State.isSuspect_iff {s : State} (h : s.mem.wf = true) (k : SolveCase) (missing : List Nat) (n : Fin 4)
    (place stripe b : Nat) : s.isSuspect k missing n place stripe b = true ↔
      missing.filter (· != s.spare) = [] ∧ s.rcd.check = true ∧
        ((List.range 4096).any fun i => !k.agrees s.profile stripe (s.columnAt n place b i)) = true := by
  rw [State.isSuspect, State.mapColumns_blockStrips h, List.all_map, List.not_all_eq_any_not, Bool.and_eq_true, Bool.and_eq_true,
    List.isEmpty_iff, and_comm (a := s.rcd.check = true), and_assoc]
  rfl

/-! ## The results (R164 to R166, R171) -/

/-- A block is lost exactly with two or more others missing (R163). -/
theorem solveCase_eq_fill_iff {p : Profile} {s f : Nat} {missing : List Nat} :
    solveCase p s f missing = .fill ↔ 2 ≤ (missing.filter (· != f)).length := by
  refine ⟨fun hfill => ?_, solveCase_fill⟩
  match hm : missing.filter (· != f) with
  | [] =>
    rw [solveCase_alone hm] at hfill
    cases hrole : p.role s f <;> rw [hrole] at hfill <;> cases hfill
  | [x] =>
    have htwo (d e : Nat) : twoDataCase d e ≠ .fill := by
      unfold twoDataCase
      split <;> exact SolveCase.noConfusion
    rw [solveCase_pair hm] at hfill
    cases hf : p.role s f <;> cases hx : p.role s x <;> rw [hf, hx] at hfill
    case data.data d e => exact absurd hfill (htwo d e)
    all_goals cases hfill
  | _ :: _ :: _ => simp

theorem StripeResult.addBlock_eq {l q : Bool} {lost suspect : Prop} [Decidable lost] [Decidable suspect]
    (hl : l = true ↔ lost) (hq : q = true ↔ suspect) (r : StripeResult) (b : Nat) (others : List Nat) :
    r.addBlock l q b others =
      if lost then
        { r with lost := r.lost ||| BitVec.twoPow 64 b
                 contributors := (List.range 16).filter fun x => r.contributors.contains x || others.contains x }
      else if suspect then { r with suspect := r.suspect ||| BitVec.twoPow 64 b }
      else r :=
  if_congr hl rfl (if_congr hq rfl rfl)

/-! ## The entry into WRITING (R121, R123) -/

/-- Requests for other positions leave a position as it was. -/
theorem State.submitAll_pos_other {requests : List Request} {x : Nat} (h : ∀ r ∈ requests, r.position ≠ x) (s : State) :
    (s.submitAll requests).mru.pos x = s.mru.pos x := by
  induction requests generalizing s with
  | nil => rfl
  | cons r rest ih =>
    have hrest := ih (fun r' h' => h r' (List.mem_cons_of_mem r h')) (s.submit r)
    exact hrest.trans ((s.submit_submitted r).others x (h r List.mem_cons_self).symm)

section Writes

variable {s : State} {n : Fin 4} {b : Batch}

theorem State.mem_writeRequests {r : Request} : r ∈ s.writeRequests n b ↔ ∃ i, i < b.length ∧
    ∃ e ∈ s.extents (b.first + i) s.spare,
      r = newRequest .write s.spare e (bufferAt s.lanes[n].bufs s.profile.n i s.spare) (.lane n) := by
  simp only [State.writeRequests, State.stripRequests, List.mem_flatMap, List.mem_map, List.mem_range, eq_comm (a := r)]

theorem State.writeRequests_order : (s.writeRequests n b).map (fun r => (r.address, r.firstBlock)) =
    (List.range b.length).flatMap (fun i => (s.extents (b.first + i) s.spare).map fun e => (e.address, e.firstBlock)) := by
  rw [State.writeRequests, List.map_flatMap]
  simp only [State.stripRequests, List.map_map]
  rfl

/-- A write asks for what it was submitted with, at the spare. -/
theorem State.writeRequests_plain {r : Request} (h : r ∈ s.writeRequests n b) : r.work = r ∧ r.position = s.spare := by
  obtain ⟨i, -, e, -, rfl⟩ := State.mem_writeRequests.1 h
  exact ⟨rfl, rfl⟩

/-- The lane's record when it enters WRITING. -/
def State.laneWriting (s : State) (n : Fin 4) (b : Batch) (results : List StripeResult) : Lane :=
  { s.lanes[n] with stage := .writing, results := results, outstanding := (s.writeRequests n b).length }

theorem State.enterWriting_of_batch (h : s.lanes[n].batch = some b) (results : List StripeResult) :
    s.enterWriting n results = (s.updLane n fun _ => s.laneWriting n b results).submitAll (s.writeRequests n b) := by
  rw [State.enterWriting, h]
  rfl

/-- The writes stand behind what the spare's queue held, and no other position is touched (R123, R136). -/
theorem State.enterWriting_mru (h : s.lanes[n].batch = some b) (results : List StripeResult) :
    (s.spare < s.mru.positions.length →
      ((s.enterWriting n results).mru.pos s.spare).works = (s.mru.pos s.spare).works ++ s.writeRequests n b) ∧
    ∀ x, x ≠ s.spare → (s.enterWriting n results).mru.pos x = s.mru.pos x := by
  rw [State.enterWriting_of_batch h]
  refine ⟨fun hx => ?_, fun x hx => ?_⟩
  · have hall : (s.writeRequests n b).filter (·.position == s.spare) = s.writeRequests n b :=
      List.filter_eq_self.2 fun r hr => beq_iff_eq.2 (State.writeRequests_plain hr).2
    have hworks := State.submitAll_works (fun r hr => (State.writeRequests_plain hr).1)
      (s := s.updLane n fun _ => s.laneWriting n b results) (requests := s.writeRequests n b) hx
    rwa [hall] at hworks
  · exact State.submitAll_pos_other (fun r hr => by rw [(State.writeRequests_plain hr).2]; exact hx.symm) _

end Writes

/-! ## The block RCD takes (R161) -/

section Taken

variable {n : Fin 4} {s : State} {c : SolveContext} {b : Batch}

/-- The case that fits the context's next block. -/
def State.nextCase (s : State) (n : Fin 4) (c : SolveContext) (b : Batch) : SolveCase :=
  solveCase s.profile (b.first + c.stripe) s.spare (s.missingSet n c.stripe c.block)

/-- The buffer address of F's block. -/
def State.spareBlock (s : State) (n : Fin 4) (c : SolveContext) : Nat :=
  blockAddress (bufferAt s.lanes[n].bufs s.profile.n c.stripe s.spare) c.block

/-- F's block has been written. -/
def State.blockWritten (s : State) (n : Fin 4) (c : SolveContext) (b : Batch) : State :=
  s.writeMem (s.spareBlock n c) (s.solvedBytes (s.nextCase n c b) n c.stripe (b.first + c.stripe) c.block)

/-- The results with the block added. -/
def State.resultsAfter (s : State) (n : Fin 4) (c : SolveContext) (b : Batch) : List StripeResult :=
  let missing := s.missingSet n c.stripe c.block
  c.results.modify c.stripe fun r => r.addBlock (s.nextCase n c b = .fill)
    (s.isSuspect (s.nextCase n c b) missing n c.stripe (b.first + c.stripe) c.block) c.block (missing.filter (· != s.spare))

theorem State.takeBlock_of_none (h : s.rcd.contexts[n] = none) : s.takeBlock n = s := by
  rw [State.takeBlock, h]

theorem State.takeBlock_more (hc : s.rcd.contexts[n] = some c) (hb : s.lanes[n].batch = some b) {i j : Nat}
    (hnext : nextPlace s.profile.l b.length c.stripe c.block = some (i, j)) :
    s.takeBlock n =
      (s.blockWritten n c b).setContext n (some { stripe := i, block := j, results := s.resultsAfter n c b }) := by
  simp only [State.takeBlock, hc, hb]
  split
  · rename_i i' j' hplace
    obtain ⟨rfl, rfl⟩ := Prod.mk.inj (Option.some.inj (hplace.symm.trans hnext))
    rfl
  · rename_i hplace
    cases hplace.symm.trans hnext

theorem State.takeBlock_last (hc : s.rcd.contexts[n] = some c) (hb : s.lanes[n].batch = some b)
    (hnext : nextPlace s.profile.l b.length c.stripe c.block = none) :
    s.takeBlock n = ((s.blockWritten n c b).setContext n none).enterWriting n (s.resultsAfter n c b) := by
  simp only [State.takeBlock, hc, hb]
  split
  · rename_i hplace
    cases hplace.symm.trans hnext
  · rfl

/-- Beyond F's block, MRU, the messages sent, the lane's record and its context nothing changes. -/
theorem State.takeBlock_frame (hc : s.rcd.contexts[n] = some c) (hb : s.lanes[n].batch = some b) :
    ∃ m o l context, s.takeBlock n = { s with
      mem := (s.blockWritten n c b).mem
      mru := m
      sent := o
      lanes := s.lanes.set n l
      rcd := { s.rcd with contexts := s.rcd.contexts.set n context } } := by
  cases hnext : nextPlace s.profile.l b.length c.stripe c.block with
  | some place =>
    obtain ⟨i, j⟩ := place
    rw [State.takeBlock_more hc hb hnext]
    refine ⟨s.mru, s.sent, s.lanes[n], some { stripe := i, block := j, results := s.resultsAfter n c b }, ?_⟩
    rw [Fin.getElem_fin, Vector.set_getElem_self]
    rfl
  | none =>
    rw [State.takeBlock_last hc hb hnext, State.enterWriting_of_batch (s := (s.blockWritten n c b).setContext n none) hb]
    obtain ⟨m, o, h⟩ := State.submitAll_only (s.writeRequests n b)
      (((s.blockWritten n c b).setContext n none).updLane n fun _ => s.laneWriting n b (s.resultsAfter n c b))
    exact ⟨m, o, s.laneWriting n b (s.resultsAfter n c b), none, h⟩

/-- What taking a block leaves unchanged. -/
theorem State.takeBlock_keeps (hc : s.rcd.contexts[n] = some c) (hb : s.lanes[n].batch = some b) :
    let t := s.takeBlock n
    BlocksKept s t ∧ EventsKept s t ∧ t.now = s.now ∧ (∀ m : Fin 4, m ≠ n → t.lanes[m] = s.lanes[m]) ∧
      ∀ m : Fin 4, m ≠ n → t.rcd.contexts[m] = s.rcd.contexts[m] := by
  intro t
  obtain ⟨m, o, l, context, ht⟩ := State.takeBlock_frame hc hb
  change t = _ at ht
  have hval {m : Fin 4} (h : m ≠ n) : n.val ≠ m.val := fun e => h (Fin.ext e.symm)
  rw [ht]
  exact ⟨⟨rfl, rfl, rfl, rfl, rfl, rfl, rfl, rfl, rfl, rfl, rfl, rfl, rfl, rfl⟩, .of_mgp rfl, rfl,
    fun m hm => by simp [hval hm], fun m hm => by simp [hval hm]⟩

/-- The bytes of F's block are those of the case that fits, or of the fill, and no other byte changes (R163 to R172). -/
theorem State.takeBlock_read (hc : s.rcd.contexts[n] = some c) (hb : s.lanes[n].batch = some b) (hmem : s.mem.wf = true) :
    (∀ i, i < 4096 → (s.takeBlock n).mem.read (s.spareBlock n c + i) =
      if s.nextCase n c b = .fill then fillByte (s.ses.fillKind.getD .zero) (b.first + c.stripe) c.block i
      else (s.nextCase n c b).value s.profile (b.first + c.stripe) (s.columnAt n c.stripe c.block i)) ∧
    ∀ x, x < s.spareBlock n c ∨ s.spareBlock n c + 4096 ≤ x → (s.takeBlock n).mem.read x = s.mem.read x := by
  obtain ⟨m, o, l, context, ht⟩ := State.takeBlock_frame hc hb
  have hlength := s.length_solvedBytes (s.nextCase n c b) n c.stripe (b.first + c.stripe) c.block
  rw [blockBytes] at hlength
  rw [ht]
  refine ⟨fun i hi => ?_, fun x hx => ?_⟩
  · rw [← State.getD_solvedBytes hmem (s.nextCase n c b) n c.stripe (b.first + c.stripe) c.block hi]
    refine (Memory.read_write _ _ _ _).trans ?_
    rw [hlength, if_pos (by omega), Nat.add_sub_cancel_left]
    rfl
  · exact Memory.read_write_outside (by rwa [hlength])

/-- A block that is not the last: the context goes on, and neither the lane nor MRU does anything. -/
theorem State.takeBlock_continues (hc : s.rcd.contexts[n] = some c) (hb : s.lanes[n].batch = some b) {i j : Nat}
    (hnext : nextPlace s.profile.l b.length c.stripe c.block = some (i, j)) :
    (s.takeBlock n).lanes[n] = s.lanes[n] ∧ (s.takeBlock n).mru = s.mru ∧
      (s.takeBlock n).rcd.contexts[n] = some { stripe := i, block := j, results := s.resultsAfter n c b } := by
  rw [State.takeBlock_more hc hb hnext]
  exact ⟨rfl, rfl, by simp⟩

/-- The last block: the context is gone, and the lane has entered WRITING and submitted its writes (R121, R123). -/
theorem State.takeBlock_solved (hc : s.rcd.contexts[n] = some c) (hb : s.lanes[n].batch = some b)
    (hnext : nextPlace s.profile.l b.length c.stripe c.block = none) :
    (s.takeBlock n).rcd.contexts[n] = none ∧ (s.takeBlock n).lanes[n] = s.laneWriting n b (s.resultsAfter n c b) ∧
      (s.spare < s.mru.positions.length →
        ((s.takeBlock n).mru.pos s.spare).works = (s.mru.pos s.spare).works ++ s.writeRequests n b) ∧
      ∀ x, x ≠ s.spare → (s.takeBlock n).mru.pos x = s.mru.pos x := by
  set solved := (s.blockWritten n c b).setContext n none with hsolved
  have hbatch : solved.lanes[n].batch = some b := hb
  rw [State.takeBlock_last hc hb hnext, ← hsolved]
  refine ⟨?_, ?_, State.enterWriting_mru hbatch _⟩
  · rw [State.enterWriting_of_batch hbatch]
    obtain ⟨m, o, h⟩ := State.submitAll_only (solved.writeRequests n b)
      (solved.updLane n fun _ => solved.laneWriting n b (s.resultsAfter n c b))
    rw [h, hsolved]
    simp [State.updLane]
  · rw [State.enterWriting_of_batch hbatch, State.submitAll_lanes, State.updLane_get_self]
    rfl

end Taken

/-- Settles O54: the event of the row is the block taken, which ends with the next place or with the lane in WRITING. -/
theorem rcdTakesTheNextBlock : Obligations.RcdTakesTheNextBlock := by
  refine ⟨fun n s h => ?_, fun n s i b x => s.mem_missingSet n i b x, fun n s c b hc hb hmem => ?_⟩
  · exact congrArg Host.Outcome.next (State.takeBlock_of_none (s := s.beginEvent) h)
  intro stripe missing others case' lost disagrees suspect results a next
  have hlost : case' = .fill ↔ lost := solveCase_eq_fill_iff
  have hresults : s.beginEvent.resultsAfter n c b = results :=
    congrArg (c.results.modify c.stripe) (funext fun r =>
      StripeResult.addBlock_eq (decide_eq_true_iff.trans hlost)
        (State.isSuspect_iff (s := s.beginEvent) hmem case' missing n c.stripe stripe c.block) r c.block others)
  obtain ⟨hread, houtside⟩ := State.takeBlock_read (s := s.beginEvent) hc hb hmem
  obtain ⟨hblocks, hevents, hnow, hlanes, hcontexts⟩ := State.takeBlock_keeps (s := s.beginEvent) hc hb
  refine ⟨s.beginEvent.takeBlock n, rfl, fun i hi => (hread i hi).trans (if_congr hlost rfl rfl), houtside, hblocks, hevents,
    hnow, hlanes, hcontexts, fun i j hnext => ?_, fun hnext => ?_⟩
  · obtain ⟨hlane, hmru, hcontext⟩ := State.takeBlock_continues (s := s.beginEvent) hc hb hnext
    rw [hresults] at hcontext
    exact ⟨hlane, hmru, hcontext⟩
  · obtain ⟨hcontext, hlane, hworks, hothers⟩ := State.takeBlock_solved (s := s.beginEvent) hc hb hnext
    rw [hresults] at hlane
    exact ⟨hcontext, hlane, fun r => State.mem_writeRequests, State.writeRequests_order,
      fun hspare hpositions => hworks (hpositions ▸ hspare), hothers⟩

end Sys2Proof.Machine
end

section
/-! FORGIVE: its checks in their order, and the record that an accepted one retires (R181, R182). -/

namespace Sys2Proof.Machine

/-- A held claim covers the stripe (R105). -/
theorem Slk.heldClaimCovers_iff (k : Slk) (stripe : Nat) :
    k.heldClaimCovers stripe = true ↔
      ∃ e ∈ k.held, e.owner.isClaim = true ∧ e.first ≤ stripe ∧ stripe < e.first + e.count := by
  simp only [Slk.heldClaimCovers, LockEntry.covers, List.any_eq_true, Bool.and_eq_true, decide_eq_true_eq]

section Forgive

variable {s : State} {stripe : Nat}

/-- The state when the record of the stripe has been retired, and its region counts it no more (R65, R182). -/
def State.retired (stripe : Nat) (s : State) : State :=
  { s with
    lrl := { records := s.lrl.records.filter fun r => r.stripe != stripe }
    rgt := { s.rgt with regions := s.rgt.regions.modify (stripe / s.profile.rs) fun x =>
      { x with recordCount := x.recordCount - 1 } } }

theorem State.retire_of_record {r : Record} (h : s.lrl.find stripe = some r) : s.retire stripe = (s.retired stripe, true) := by
  rw [State.retire, h]
  rfl

section Open

variable (hopen : s.ses.state.isOpen = true)

include hopen

theorem takeForgive_of_range (h : s.profile.t ≤ stripe) : takeForgive stripe s = (s, .refuse .refusedRange) := by
  rw [takeForgive, hopen, if_neg (by decide), if_pos h]

section Stripe

variable (hstripe : stripe < s.profile.t)

include hstripe

theorem takeForgive_of_none (h : s.lrl.find stripe = none) : takeForgive stripe s = (s, .refuse .refusedRange) := by
  rw [takeForgive, hopen, if_neg (by decide), if_neg (Nat.not_le.2 hstripe), h]

theorem takeForgive_of_covered {r : Record} (h : s.lrl.find stripe = some r) (hclaim : s.slk.heldClaimCovers stripe = true) :
    takeForgive stripe s = (s, .refuse .refusedBusy) := by
  rw [takeForgive, hopen, if_neg (by decide), if_neg (Nat.not_le.2 hstripe), h]
  exact if_pos hclaim

/-- The length answered is that of the list before the holders are served (R182). -/
theorem takeForgive_of_record {r : Record} (h : s.lrl.find stripe = some r) (hclaim : ¬s.slk.heldClaimCovers stripe = true) :
    takeForgive stripe s =
      ((s.retired stripe).afterRetirement, .done (forgivePayload r (s.retired stripe).lrl.records.length)) := by
  rw [takeForgive, hopen, if_neg (by decide), if_neg (Nat.not_le.2 hstripe), h]
  dsimp only
  rw [if_neg hclaim, State.retire_of_record h]

end Stripe

end Open

end Forgive

/-- Settles O31: the checks in their order, and then the state without the record, in which the holders are served. -/
theorem forgiveRetiresOneRecord : Obligations.ForgiveRetiresOneRecord := by
  intro tag stripe s hs hst n covered range
  have hopen : s.beginEvent.ses.state.isOpen = true := (SessionState.isOpen_iff _).2 hst
  have hfits : (HostCommand.forgive n).fits := stripe.isLt
  have hcovered : s.beginEvent.slk.heldClaimCovers n = true ↔ covered := Slk.heldClaimCovers_iff _ n
  refine ⟨fun hn => becomes_of_runCommand hs hfits tag (takeForgive_of_range hopen hn),
    fun hn hnone => becomes_of_runCommand hs hfits tag (takeForgive_of_none hopen hn ?_), fun r hn hr => ⟨fun hc => ?_, fun hc => ?_⟩⟩
  · exact List.find?_eq_none.2 fun r hr => by simpa using hnone r hr
  · exact becomes_of_runCommand hs hfits tag (takeForgive_of_covered hopen hn hr (hcovered.2 hc))
  · have htaken := takeForgive_of_record hopen hn hr (mt hcovered.1 hc)
    intro kept retired done
    refine ⟨fun hnobody => becomes_of_runCommand (u := retired) hs hfits tag (htaken.trans ?_), ?_⟩
    · obtain ⟨hstays, -⟩ := holdersServedInOrder
      rw [hstays (s.beginEvent.retired n) hnobody]
      rfl
    · refine (hostCommand_taken hs hfits tag).trans ?_
      rw [runCommand, htaken]
      rfl

end Sys2Proof.Machine
end

section
/-! One offer to a list with room and to a full one, and the lane that is turned away (R30, R125, R126, R176, R177, R179). -/

namespace Sys2Proof.Machine

/-- A lane in HOLDING stands at the tail of the holding order (R126). -/
def State.holding (n : Fin 4) (s : State) : State :=
  { s with
    lanes := s.lanes.set n { s.lanes[n] with stage := .holding }
    holdingOrder := s.holdingOrder ++ [n] }

section Holding

variable {s : State}

theorem State.enterHolding_of_running (h : s.ses.state = .running) (n : Fin 4) :
    s.enterHolding n = (s.holding n).entering .suspended := if_pos h

theorem State.enterHolding_of_not_running (h : s.ses.state ≠ .running) (n : Fin 4) : s.enterHolding n = s.holding n := if_neg h

/-- The lane stands in HOLDING at the tail of the order, whether the session leaves RUNNING or not (R126). -/
theorem State.enterHolding_holds (n : Fin 4) (s : State) :
    (s.enterHolding n).lanes = s.lanes.set n { s.lanes[n] with stage := .holding } ∧
      (s.enterHolding n).holdingOrder = s.holdingOrder ++ [n] := by
  by_cases h : s.ses.state = .running
  · rw [State.enterHolding_of_running h]
    exact ⟨rfl, rfl⟩
  · rw [State.enterHolding_of_not_running h]
    exact ⟨rfl, rfl⟩

/-- A full list turns the first offer away, and with it the rest (R125, R179). -/
theorem State.offerAll_of_full (h : 256 ≤ s.lrl.records.length) (n : Fin 4) {l : List Nat} (hl : l ≠ []) :
    State.offerAll n l s = (s.noting (Event.bit .listFull), false) := by
  obtain ⟨stripe, rest, rfl⟩ := List.exists_cons_of_ne_nil hl
  rw [State.offerAll, State.offer_of_full h]
  rfl

/-- A lane with an offer to make enters HOLDING when the list is full (R125, R126). -/
theorem State.enterSettling_of_full (h : 256 ≤ s.lrl.records.length) {n : Fin 4} (hoffers : s.lanes[n].firstOffers ≠ []) :
    s.enterSettling n = ((s.settling n).noting (Event.bit .listFull)).enterHolding n :=
  State.enterSettling_of_refused (State.offerAll_of_full (s := s.settling n) h n hoffers)

/-- A lane's record when it has settled and holds: its stage and its offers alone have changed. -/
theorem State.settling_holding (n : Fin 4) (s : State) :
    (s.settling n).lanes.set n { (s.settling n).lanes[n] with stage := .holding } =
      s.lanes.set n { s.lanes[n] with stage := .holding, offers := s.lanes[n].firstOffers } := by
  have hself : (s.settling n).lanes[n] = { s.lanes[n] with stage := .settling, offers := s.lanes[n].firstOffers } :=
    State.updLane_get_self n _ s
  rw [hself]
  exact Vector.set_set _ n.isLt

end Holding

/-- Settles O41: an offer by whether the list is full, and a lane's entry into HOLDING by whether the session is RUNNING. -/
theorem offersAndHolding : Obligations.OffersAndHolding := by
  refine ⟨fun r s hroom horder hnew => ?_, fun r s hfull => State.offer_of_full hfull r, ?_⟩
  · refine ⟨insertRecord r s.lrl.records, insertRecord_pairwise hnew horder.1, fun x => ?_, State.offer_of_room hroom r⟩
    rw [(insertRecord_perm hnew).mem_iff, List.mem_cons]
  · intro n s b hb hfull offers hoffers t
    have hfirst : s.lanes[n].firstOffers = offers := Lane.firstOffers_of_batch hb
    set turned := (s.settling n).noting (Event.bit .listFull)
    have ht : t = turned.enterHolding n := State.enterSettling_of_full hfull (by rwa [hfirst])
    obtain ⟨hlanes, horder⟩ := turned.enterHolding_holds n
    replace hlanes := hlanes.trans (s.settling_holding n)
    rw [← ht, hfirst] at hlanes
    rw [← ht] at horder
    have hnoted : Noted s turned (Event.bit .listFull) := ⟨rfl, rfl, rfl⟩
    refine ⟨by rw [hlanes]; exact Vector.getElem_set_self _, horder, fun m hm => ?_, ?_⟩
    · rw [hlanes]
      exact Vector.getElem_set_ne _ _ fun h => hm (Fin.ext h.symm)
    by_cases hst : s.ses.state = .running
    · rw [ht, State.enterHolding_of_running (s := turned) hst, if_pos hst, if_pos hst]
      exact ⟨rfl, hnoted.trans ⟨rfl, rfl, rfl⟩, rfl, rfl, rfl, rfl, rfl, rfl⟩
    · rw [ht, State.enterHolding_of_not_running (s := turned) hst, if_neg hst, if_neg hst]
      exact ⟨rfl, hnoted, rfl, rfl, rfl, rfl, rfl, rfl⟩

end Sys2Proof.Machine
end

section
/-! The record list and the schedule queue, each by itself: what every operation of LRL and of RGT keeps of their order (R46, R47,
R174, R176). -/

namespace Sys2Proof.Machine

/-! ## The record list (R174, R176) -/

theorem mem_insertRecord {x r : Record} {records : List Record} (h : x ∈ insertRecord r records) : x = r ∨ x ∈ records := by
  induction records with
  | nil => exact .inl (List.mem_singleton.1 h)
  | cons y rest ih =>
    rw [insertRecord] at h
    split at h
    · exact List.mem_cons.1 h
    · split at h
      · exact (List.mem_cons.1 h).imp_right (List.mem_cons_of_mem y)
      · rcases List.mem_cons.1 h with rfl | h
        · exact .inr List.mem_cons_self
        · exact (ih h).imp_right (List.mem_cons_of_mem y)

/-- The list stays in ascending order, also where the stripe has a record already (log 17). -/
theorem insertRecord_ascending (r : Record) {records : List Record} (h : records.Pairwise fun a b => a.stripe < b.stripe) :
    (insertRecord r records).Pairwise fun a b => a.stripe < b.stripe := by
  induction records with
  | nil => exact List.pairwise_singleton _ _
  | cons y rest ih =>
    obtain ⟨hfirst, hsorted⟩ := List.pairwise_cons.1 h
    rw [insertRecord]
    split
    · rename_i hlt
      exact List.pairwise_cons.2 ⟨List.forall_mem_cons.2 ⟨hlt, fun x hx => hlt.trans (hfirst x hx)⟩, h⟩
    · split
      · rename_i heq
        exact List.pairwise_cons.2 ⟨fun x hx => heq ▸ hfirst x hx, hsorted⟩
      · refine List.pairwise_cons.2 ⟨fun x hx => ?_, ih hsorted⟩
        rcases mem_insertRecord hx with rfl | hx
        · omega
        · exact hfirst x hx

theorem length_insertRecord_le (r : Record) (records : List Record) :
    (insertRecord r records).length ≤ records.length + 1 := by
  induction records with
  | nil => exact le_rfl
  | cons y rest ih =>
    rw [insertRecord]
    split
    · exact le_rfl
    · split
      · exact Nat.le_succ _
      · exact Nat.succ_le_succ ih

/-! ## The schedule queue (R46, R47) -/

/-- RGT's queue holds exactly the STALE regions, each once. -/
def Rgt.QueueFits (g : Rgt) : Prop := g.queue.Nodup ∧ ∀ r, r ∈ g.queue ↔ g.isStale r = true

theorem State.queueHoldsStale_iff (s : State) : s.QueueHoldsStale ↔ s.rgt.QueueFits := Iff.rfl

/-- The states of the regions, by number. -/
def Rgt.states (g : Rgt) : List RegionState := g.regions.map Region.state

theorem Rgt.isStale_iff (g : Rgt) (r : Nat) : g.isStale r = true ↔ g.states[r]? = some .stale := by
  rw [Rgt.isStale, Rgt.states, List.getElem?_map]
  cases g.regions[r]? <;> simp

/-- A change of one region that is none of its state. -/
theorem map_state_modify {f : Region → Region} (hf : ∀ x, (f x).state = x.state) (regions : List Region) (n : Nat) :
    (regions.modify n f).map Region.state = regions.map Region.state := by
  refine List.ext_getElem? fun r => ?_
  rw [List.getElem?_map, List.getElem?_map, List.getElem?_modify]
  cases regions[r]? with
  | none => simp
  | some x =>
    by_cases hr : n = r
    · simp [hr, hf]
    · simp [hr]

theorem map_state_foldl_modify {f : Region → Region} (hf : ∀ x, (f x).state = x.state) (l : List Nat) (regions : List Region) :
    (l.foldl (fun rs n => rs.modify n f) regions).map Region.state = regions.map Region.state := by
  induction l generalizing regions with
  | nil => rfl
  | cons n rest ih => exact (ih _).trans (map_state_modify hf regions n)

section Queue

variable {g g' : Rgt}

/-- A new order of the same queue, with every region in the state it was in. -/
theorem Rgt.QueueFits.reorder (h : g.QueueFits) (honce : g'.queue.Nodup) (hqueue : ∀ r, r ∈ g'.queue ↔ r ∈ g.queue)
    (hstates : g'.states = g.states) : g'.QueueFits := by
  refine ⟨honce, fun r => ?_⟩
  rw [hqueue, h.2, Rgt.isStale_iff, Rgt.isStale_iff, hstates]

theorem Rgt.QueueFits.of_same (h : g.QueueFits) (hqueue : g'.queue = g.queue) (hstates : g'.states = g.states) : g'.QueueFits :=
  h.reorder (hqueue ▸ h.1) (fun r => by rw [hqueue]) hstates

/-- A change of one region that is none of its state. -/
theorem Rgt.QueueFits.modify (h : g.QueueFits) {f : Region → Region} (hf : ∀ x, (f x).state = x.state) (n : Nat) :
    ({ g with regions := g.regions.modify n f } : Rgt).QueueFits := h.of_same rfl (map_state_modify hf g.regions n)

theorem Rgt.queueFits_empty (heat : Nat) : (Rgt.empty heat).QueueFits :=
  ⟨List.nodup_nil, fun _ => iff_of_false List.not_mem_nil Bool.false_ne_true⟩

/-- The queue that OPEN_SESSION builds holds every region, each once, and each is STALE (R44). -/
theorem Rgt.queueFits_build {p : Profile} {start : Nat} (h : start < p.regionCount) (g : Rgt) : (g.build p start).QueueFits := by
  have hmem (r : Nat) : r ∈ initialQueue p.regionCount start ↔ r < p.regionCount := by
    rw [initialQueue, List.mem_append, List.mem_range'_1, List.mem_range]
    omega
  have hstale (r : Nat) : (g.build p start).isStale r = true ↔ r < p.regionCount := by
    rw [Rgt.isStale_iff, Rgt.states, Rgt.build, List.map_map, List.getElem?_map, Option.map_eq_some_iff]
    constructor
    · rintro ⟨x, hx, -⟩
      exact List.length_range (n := p.regionCount) ▸ (List.getElem?_eq_some_iff.1 hx).1
    · exact fun hr => ⟨r, List.getElem?_range hr, rfl⟩
  refine ⟨List.nodup_append.2 ⟨List.nodup_range', List.nodup_range, fun a ha b hb hab => ?_⟩, fun r => (hmem r).trans (hstale r).symm⟩
  rw [List.mem_range'_1] at ha
  rw [List.mem_range] at hb
  omega

/-- The region at the head leaves the queue when it becomes ACTIVE (R58). -/
theorem Rgt.QueueFits.activate (h : g.QueueFits) {n : Nat} {rest : List Nat} (hq : g.queue = n :: rest) :
    (g.activate n).QueueFits := by
  obtain ⟨honce, hmem⟩ := h
  rw [hq] at honce
  obtain ⟨hn, hrest⟩ := List.nodup_cons.1 honce
  have hqueue : (g.activate n).queue = rest := by rw [Rgt.activate, hq, List.tail_cons]
  refine ⟨by rwa [hqueue], fun r => ?_⟩
  rw [hqueue]
  by_cases hr : r = n
  · subst hr
    refine iff_of_false hn ?_
    cases hx : g.regions[r]? <;> simp [Rgt.isStale, Rgt.activate, hx]
  · have hsame : (g.activate n).isStale r = g.isStale r := by simp [Rgt.isStale, Rgt.activate, Ne.symm hr]
    rw [hsame, ← hmem, hq, List.mem_cons, or_iff_right hr]

/-- A batch is handed out, and the region it is taken from is no longer STALE (R58, R59). -/
theorem Rgt.QueueFits.nextBatch (h : g.QueueFits) {rs b : Nat} {x : Batch × Rgt} (hx : g.nextBatch rs b = some x) :
    x.2.QueueFits := by
  have taken {u : Rgt} (hu : u.QueueFits) {region : Nat} (ht : u.takeBatch rs b region = some x) : x.2.QueueFits := by
    unfold Rgt.takeBatch at ht
    split at ht
    · cases ht
    · cases ht
      refine hu.modify ?_ region
      exact fun _ => rfl
  unfold Rgt.nextBatch Rgt.chooseRegion at hx
  split at hx
  · exact taken h hx
  · split at hx
    · cases hx
    · rename_i hq
      exact taken (h.activate hq) hx

/-- The region completion test makes an ACTIVE region REBUILT (R63). -/
theorem Rgt.QueueFits.tested (h : g.QueueFits) (held : Bool) (region : Nat) : (g.tested held region).QueueFits := by
  cases hr : g.regions[region]? with
  | none => rwa [Rgt.tested, hr]
  | some x =>
    rw [Rgt.tested_of_region hr]
    split
    · rename_i hdone
      refine ⟨h.1, fun r => (h.2 r).trans ?_⟩
      by_cases hn : region = r
      · subst hn
        simp [Rgt.isStale, hr, hdone.1]
      · simp [Rgt.isStale, hn]
    · exact h

theorem Rgt.QueueFits.counted (h : g.QueueFits) (held : Bool) (b : Batch) : (g.counted held b).QueueFits :=
  (h.tested held b.region).of_same rfl rfl

/-- The regions that a contribution moves to the head stand in the queue already (R53). -/
theorem Rgt.QueueFits.contribute (h : g.QueueFits) (rs s1 s2 : Nat) : (g.contribute rs s1 s2).QueueFits := by
  have hin : ∀ r ∈ g.promoted rs s1 s2, r ∈ g.queue := fun r hr =>
    (h.2 r).2 (List.mem_filter.1 (List.mem_filter.1 hr).1).2
  rw [Rgt.contribute_eq]
  refine h.reorder ?_ (fun r => ?_) ?_
  · refine List.nodup_append.2 ⟨Rgt.promoted_ascending.imp Nat.ne_of_lt, h.1.filter _, fun a ha b hb hab => ?_⟩
    have hb := (List.mem_filter.1 hb).2
    rw [← hab] at hb
    simp [ha] at hb
  · rw [List.mem_append, List.mem_filter]
    by_cases hr : r ∈ g.promoted rs s1 s2
    · simp [hr, hin r hr]
    · simp [hr]
  · exact (map_state_foldl_modify (f := fun x => { x with heat := 0 }) (fun _ => rfl) _ _).trans
      (map_state_foldl_modify (f := Region.warm) (fun _ => rfl) _ _)

end Queue

end Sys2Proof.Machine
end

section
/-! What a lane's work, the end of a session, a fault, a settlement, a completion or a timeout keeps of the record list and of the
schedule queue (O58). -/

namespace Sys2Proof.Machine

/-! ## The two invariants from one state to the next -/

/-- What O58 says of the states before and after a step, as a relation that composes. -/
structure State.ListsKept (s t : State) : Prop where
  records : s.RecordsInOrder → t.RecordsInOrder
  queue : s.rgt.QueueFits → t.rgt.QueueFits

theorem State.ListsKept.refl (s : State) : s.ListsKept s := ⟨id, id⟩

theorem State.ListsKept.trans {s t u : State} (h : s.ListsKept t) (h' : t.ListsKept u) : s.ListsKept u :=
  ⟨h'.records ∘ h.records, h'.queue ∘ h.queue⟩

section Same

variable {s t : State}

/-- LRL is as it was, and RGT keeps its queue. -/
theorem State.ListsKept.of_rgt (hlrl : t.lrl = s.lrl) (hqueue : s.rgt.QueueFits → t.rgt.QueueFits) : s.ListsKept t := by
  refine ⟨?_, hqueue⟩
  unfold State.RecordsInOrder
  rw [hlrl]
  exact id

theorem State.ListsKept.of_same (hlrl : t.lrl = s.lrl) (hrgt : t.rgt = s.rgt) : s.ListsKept t :=
  .of_rgt hlrl (by rw [hrgt]; exact id)

/-- A first step that touches neither LRL nor RGT. -/
theorem State.ListsKept.behind {v : State} (h : v.ListsKept t) (hlrl : v.lrl = s.lrl) (hrgt : v.rgt = s.rgt) :
    s.ListsKept t := (State.ListsKept.of_same hlrl hrgt).trans h

theorem WorkOnly.lists (h : WorkOnly s t) : s.ListsKept t := by
  obtain ⟨m, o, l, k, a, r, b, e, q, c, rfl⟩ := h
  exact .of_same rfl rfl

theorem LocksOnly.lists (h : LocksOnly s t) : s.ListsKept t := h.work.lists

theorem MruOnly.lists (h : MruOnly s t) : s.ListsKept t := h.work.lists

theorem SessionOnly.lists (h : SessionOnly s t) : s.ListsKept t := by
  obtain ⟨st, m, rfl⟩ := h
  exact .of_same rfl rfl

theorem State.FaultKeeps.lists (h : s.FaultKeeps t) : s.ListsKept t := .of_same h.lrl h.rgt

end Same

/-! ## Records (R65, R177 to R180) -/

theorem State.updRegion_lists {f : Region → Region} (hf : ∀ x, (f x).state = x.state) (n : Nat) (s : State) :
    s.ListsKept (s.updRegion n f) := .of_rgt rfl fun h => h.modify hf n

theorem State.countRecord_lists (stripe : Nat) (s : State) : s.ListsKept (s.countRecord stripe) := by
  refine State.updRegion_lists ?_ _ s
  exact fun _ => rfl

theorem State.uncountRecord_lists (stripe : Nat) (s : State) : s.ListsKept (s.uncountRecord stripe) := by
  refine State.updRegion_lists ?_ _ s
  exact fun _ => rfl

/-- A list with room for a record stays in order when it takes one. -/
theorem State.offer_lists (r : Record) (s : State) : s.ListsKept (s.offer r).1 := by
  by_cases h : s.lrl.records.length < 256
  · have inserted : s.ListsKept (s.updLrl fun l => { l with records := insertRecord r l.records }) :=
      ⟨fun ⟨horder, _⟩ => ⟨insertRecord_ascending r horder, (length_insertRecord_le r _).trans h⟩, id⟩
    rw [State.offer_of_room h]
    exact (inserted.trans (State.countRecord_lists _ _)).trans (State.setEvent_session _ _).lists
  · rw [State.offer_of_full (Nat.not_lt.1 h)]
    exact .of_same rfl rfl

theorem State.retire_lists (stripe : Nat) (s : State) : s.ListsKept (s.retire stripe).1 := by
  have filtered : s.ListsKept (s.updLrl fun l => { l with records := l.records.filter fun r => r.stripe != stripe }) :=
    ⟨fun ⟨horder, hlength⟩ => ⟨horder.filter _, (List.length_filter_le _ _).trans hlength⟩, id⟩
  unfold State.retire
  split
  · exact filtered.trans (State.uncountRecord_lists _ _)
  · exact .refl s

theorem State.retireAll_lists (l : List Nat) (s : State) : s.ListsKept (State.retireAll l s).1 := by
  induction l generalizing s with
  | nil => exact .refl s
  | cons stripe rest ih => exact (s.retire_lists stripe).trans (ih _)

theorem State.offerAll_lists (n : Fin 4) (l : List Nat) (s : State) : s.ListsKept (State.offerAll n l s).1 := by
  induction l generalizing s with
  | nil => exact .refl s
  | cons stripe rest ih =>
    have h := s.offer_lists (s.lanes[n].recordOf stripe)
    simp only [State.offerAll]
    split
    · exact (h.trans (State.updLane_only n _ _).lists).trans (ih _)
    · exact h

theorem State.offerAll_lists_of_eq {n : Fin 4} {l : List Nat} {s t : State} {accepted : Bool}
    (h : State.offerAll n l s = (t, accepted)) : s.ListsKept t := by
  have hkept := State.offerAll_lists n l s
  rwa [h] at hkept

/-! ## Batches (R56 to R63, R129) -/

theorem State.serveLane_lists {n : Fin 4} {s t : State} (h : s.serveLane n = some t) : s.ListsKept t := by
  unfold State.serveLane at h
  obtain ⟨x, hx, rfl⟩ := Option.map_eq_some_iff.1 h
  have handed : s.ListsKept (s.updRgt fun _ => x.2) := .of_rgt rfl fun hq => hq.nextBatch hx
  exact handed.trans ((State.updLane_only n _ _).work.trans (State.requestBuffers_only _ _)).lists

theorem State.passOver_lists (l : List (Fin 4)) (s : State) : s.ListsKept (State.passOver l s) := by
  induction l generalizing s with
  | nil => exact .refl s
  | cons n rest ih =>
    simp only [State.passOver]
    split
    · split
      · exact .refl s
      · rename_i h
        exact (State.serveLane_lists h).trans (ih _)
    · exact ih _

theorem State.stepPass_lists (s : State) : s.ListsKept s.stepPass := by
  unfold State.stepPass
  split
  · cases h : s.serveLane 0 with
    | none => exact .refl s
    | some t => exact State.serveLane_lists h
  · exact .refl s

theorem State.passAfterBatch_lists (n : Fin 4) (returned : Bool) (s : State) : s.ListsKept (s.passAfterBatch n returned) := by
  unfold State.passAfterBatch
  split
  · split
    · exact State.passOver_lists _ s
    · exact State.passOver_lists _ s
  · exact .refl s

theorem State.endBatch_lists (n : Fin 4) (s : State) : s.ListsKept (s.endBatch n) := by
  cases hb : s.lanes[n].batch with
  | none =>
    rw [State.endBatch, hb]
    exact .refl s
  | some b =>
    have reported : s.ListsKept (s.batchReported n b) := .of_rgt (s.batchReported_lrl n b) fun h => by
      rw [State.batchReported_rgt]
      exact h.counted _ b
    rw [State.endBatch_eq hb]
    exact (reported.trans (State.exitTests_session _).lists).trans (State.passAfterBatch_lists _ _ _)

theorem State.enterHolding_lists (n : Fin 4) (s : State) : s.ListsKept (s.enterHolding n) := by
  by_cases h : s.ses.state = .running
  · rw [State.enterHolding_of_running h]
    exact .of_same rfl rfl
  · rw [State.enterHolding_of_not_running h]
    exact .of_same rfl rfl

theorem State.enterSettling_lists (n : Fin 4) (s : State) : s.ListsKept (s.enterSettling n) := by
  have settling : s.ListsKept (s.settling n) := (s.updLane_only n _).lists
  obtain ⟨v, accepted, hall⟩ : ∃ v a, State.offerAll n s.lanes[n].firstOffers (s.settling n) = (v, a) := ⟨_, _, rfl⟩
  have offered := settling.trans (State.offerAll_lists_of_eq hall)
  cases accepted with
  | true =>
    rw [State.enterSettling_of_accepted hall]
    exact offered.trans (v.endBatch_lists n)
  | false =>
    rw [State.enterSettling_of_refused hall]
    exact offered.trans (v.enterHolding_lists n)

theorem State.serveHolders_lists (l : List (Fin 4)) (s : State) : s.ListsKept (State.serveHolders l s) := by
  induction l generalizing s with
  | nil => exact .refl s
  | cons n rest ih =>
    simp only [State.serveHolders]
    split
    · rename_i t hoffers
      have left : t.ListsKept { t with holdingOrder := rest } := .of_same rfl rfl
      exact (((State.offerAll_lists_of_eq hoffers).trans left).trans (State.endBatch_lists n _)).trans (ih _)
    · rename_i hoffers
      exact State.offerAll_lists_of_eq hoffers

theorem State.afterRetirement_lists (s : State) : s.ListsKept s.afterRetirement := State.serveHolders_lists _ s

/-! ## RCD and settlements (R25 to R27, R118, R123, R161) -/

theorem State.takeBlock_lists (n : Fin 4) (s : State) : s.ListsKept (s.takeBlock n) := by
  unfold State.takeBlock
  split
  · simp only
    split
    · exact .of_same rfl rfl
    · exact (State.enterWriting_only n _ _).lists.behind rfl rfl
  · exact .refl s

theorem State.settleRead_lists (n : Fin 4) (r : Request) (o : Settlement) (s : State) : s.ListsKept (s.settleRead n r o) := by
  unfold State.settleRead
  split
  · simp only
    split
    · exact .of_same rfl rfl
    · exact .of_same rfl rfl
  · exact .refl s

theorem State.settleWrite_lists (n : Fin 4) (s : State) : s.ListsKept (s.settleWrite n) := by
  unfold State.settleWrite
  split
  · simp only
    split
    · exact (State.updLane_only n _ _).lists.trans (State.enterSettling_lists n _)
    · exact (State.updLane_only n _ _).lists
  · exact .refl s

theorem State.finishQualification_lists (s : State) : s.ListsKept s.finishQualification := by
  have returned : s.ListsKept ((s.returnSet s.ses.qualSet).updSes fun e => { e with qualSet := [], qualProgress := none }) :=
    .of_same rfl rfl
  exact ((returned.trans (State.scanBuffers_only _).lists).trans (State.changeState_session _ _).lists).trans
    (State.setEvent_session _ _).lists

theorem State.settleQualification_lists (o : Settlement) (s : State) : s.ListsKept (s.settleQualification o) := by
  unfold State.settleQualification
  split
  · exact .refl s
  · split
    · exact .refl s
    · exact (s.beginReadBack_only _).lists
    · unfold State.attemptOutcome
      split
      · split
        · exact (s.beginAttempt_only _).lists
        · exact s.finishQualification_lists
      · split
        · exact (s.beginAttempt_only _).lists
        · exact (s.endSession_faultKeeps _ _).lists

/-- Whoever a settlement is reported to. -/
theorem State.settle_lists (r : Request) (o : Settlement) (s : State) : s.ListsKept (s.settle r o) := by
  unfold State.settle
  split
  · exact .refl s
  · exact s.settleQualification_lists o
  · split
    · exact s.settleWrite_lists _
    · exact s.settleRead_lists _ _ _

/-! ## Completions and timeouts (R142 to R152) -/

theorem State.endWith_lists {report : State → State} (h : ∀ s : State, s.ListsKept (report s)) (x : Nat) (s : State) :
    s.ListsKept (s.endWith x report) :=
  ((h s).trans (State.serveTagWait_only _).lists).trans (State.decideAfterFree_only x _).lists

theorem State.completeRequest_lists (r : Request) (status : CompletionStatus) (mask : Mask) (s : State) :
    s.ListsKept (s.completeRequest r status mask) := by
  have settles (o : Settlement) (u : State) : u.ListsKept (u.endWith r.position (State.settle r o)) :=
    State.endWith_lists (fun v => v.settle_lists r o) _ u
  have fails (u : State) : u.ListsKept (u.endWith r.position (State.endSession .failed .spareUnwritable)) :=
    State.endWith_lists (fun v => (v.endSession_faultKeeps _ _).lists) _ u
  have resent (again : Request) (u : State) : u.ListsKept ((u.requeueHead again).issueDecision r.position) :=
    ((u.requeueHead_only again).trans (State.issueDecision_only _ _)).lists
  have counted : s.ListsKept (s.setTimeouts r.position 0) := (s.setTimeouts_only _ _).lists
  cases status with
  | good =>
    simp only [State.completeRequest, State.completeGood]
    exact counted.trans (settles _ _)
  | medium =>
    simp only [State.completeRequest, State.completeMedium]
    split
    · exact counted.trans (settles _ _)
    · split
      · exact counted.trans (fails _)
      · exact counted.trans (resent _ _)
  | defer =>
    simp only [State.completeRequest, State.completeDefer]
    split
    · exact resent _ s
    · split
      · exact fails s
      · exact settles _ s
  | lost =>
    simp only [State.completeRequest, State.completeLost]
    exact (s.serveTagWait_only.lists.trans (State.takeFault_faultKeeps _ _).lists).trans (State.decideAfterFree_only _ _).lists

theorem State.endQuarantine_lists (tag : Nat) (s : State) : s.ListsKept (s.endQuarantine tag) :=
  (((s.removeQuarantined_only tag).work.trans (State.reportQuarantineEnd_only _)).trans
    ((State.serveTagWait_only _).trans (State.decideAll_only _)).work).lists

theorem State.takeCompletion_lists (tag : Nat) (status : Byte) (mask : Mask) (data : List Byte) (s : State) :
    s.ListsKept (s.takeCompletion tag status mask data) := by
  unfold State.takeCompletion
  split
  · exact .refl s
  · split
    · exact ((s.landData_only _ _).trans (State.leaveOutstanding_only _ _ _).work).lists.trans
        (State.completeRequest_lists _ _ _ _)
    · split
      · exact (s.landData_only _ _).lists.trans (State.endQuarantine_lists _ _)
      · exact .refl s

theorem State.serveTimedOut_lists (r : Request) (s : State) : s.ListsKept (s.serveTimedOut r) := by
  unfold State.serveTimedOut
  split
  · exact (s.requeueHead_only _).lists
  · exact s.settle_lists r _

theorem State.timeOut_lists (r : Request) (tag : Nat) (s : State) : s.ListsKept (s.timeOut r tag) := by
  unfold State.timeOut
  simp only
  refine State.ListsKept.trans ?_ (State.issueDecision_only _ _).lists
  split
  · exact (State.serveTimedOut_lists r _).behind rfl rfl
  · exact (State.takeFault_faultKeeps r.position _).lists.behind rfl rfl

end Sys2Proof.Machine
end

section
/-! What each command, each port and each event of time keeps of the record list and of the schedule queue, and so what a step keeps
(O58). -/

namespace Sys2Proof.Machine

/-! ## The commands (Table 10-2) -/

section Commands

variable {s t : State}

/-- The record list is empty, and there is no region table (R42, R43, R174). -/
theorem State.ListsKept.of_empty {heat : Nat} (hlrl : t.lrl.records = []) (hrgt : t.rgt = Rgt.empty heat) : s.ListsKept t := by
  refine ⟨fun _ => ?_, fun _ => ?_⟩
  · rw [State.RecordsInOrder, hlrl]
    exact ⟨.nil, Nat.zero_le _⟩
  · rw [hrgt]
    exact Rgt.queueFits_empty heat

theorem takeSetGeometry_lists (n l t rs k : Nat) (s : State) : s.ListsKept (takeSetGeometry n l t rs k s).1 := by
  unfold takeSetGeometry
  simp only
  split
  · exact .refl s
  · split
    · exact .of_same rfl rfl
    · exact .refl s

theorem takeSetSegments_lists (x f : Nat) (elements : List SegmentElement) (s : State) :
    s.ListsKept (takeSetSegments x f elements s).1 := by
  unfold takeSetSegments
  split
  · exact .refl s
  · split
    · exact .refl s
    · split
      · exact .refl s
      · split
        · exact .refl s
        · split
          · exact .refl s
          · simp only
            split
            · exact .refl s
            · exact .of_same rfl rfl

theorem takeOpenSession_lists (f b lanes fill start aq kq skipQual : Nat) (s : State) :
    s.ListsKept (takeOpenSession f b lanes fill start aq kq skipQual s).1 := by
  unfold takeOpenSession
  split
  · exact .refl s
  · split
    · exact .refl s
    · exact .refl s
    · rename_i p kind _ _
      split
      · exact .refl s
      · rename_i hfields
        have hstart : start < p.regionCount := by omega
        have opened (st : SessionState) (skip : Bool) :
            s.ListsKept ((((s.updSes fun _ => Ses.opened p.n f b lanes kind aq kq skip).updRgt
              (Rgt.build p start)).zeroTimeouts).changeState st) := .of_rgt rfl fun _ => Rgt.queueFits_build hstart s.rgt
        simp only
        split
        · exact .refl s
        · split
          · exact opened _ _
          · exact (opened _ _).trans (State.requestBuffers_only _ _).lists

/-- A region that passes the checks of R48 stands in the queue, once. -/
theorem State.mem_queue_of_reorder {n : Nat} (h : s.reorderProblem n = none) (hq : s.rgt.QueueFits) : n ∈ s.rgt.queue := by
  refine (hq.2 n).2 (by_contra fun hstale => ?_)
  unfold State.reorderProblem at h
  split at h
  · cases h
  · split at h
    · cases h
    · rw [if_pos (by simpa using hstale)] at h
      cases h

/-- The queue has a new order, in which the region stands first or last (R48, R49). -/
theorem State.reordered_lists {n : Nat} {queue : List Nat} (h : s.reorderProblem n = none)
    (hqueue : queue.Perm (n :: s.rgt.queue.filter (· != n))) : s.ListsKept (s.reordered n queue) := by
  refine .of_rgt rfl fun hq => hq.reorder ?_ (fun r => ?_) ?_
  · exact hqueue.nodup_iff.2 (List.nodup_cons.2 ⟨by simp, hq.1.filter _⟩)
  · have hn := State.mem_queue_of_reorder h hq
    refine hqueue.mem_iff.trans ?_
    by_cases hr : r = n
    · simp [hr, hn]
    · simp [hr]
  · refine map_state_modify ?_ s.rgt.regions n
    exact fun _ => rfl

theorem takePromote_lists (n : Nat) (s : State) : s.ListsKept (takePromote n s).1 := by
  cases h : s.reorderProblem n with
  | none =>
    rw [takePromote_of_stale h]
    exact State.reordered_lists h (.refl _)
  | some reply =>
    rw [(reorder_of_problem h).1]
    exact .refl s

theorem takeDemote_lists (n : Nat) (s : State) : s.ListsKept (takeDemote n s).1 := by
  cases h : s.reorderProblem n with
  | none =>
    rw [takeDemote_of_stale h]
    exact State.reordered_lists h (List.perm_append_singleton _ _)
  | some reply =>
    rw [(reorder_of_problem h).2]
    exact .refl s

theorem takeSetLanes_lists (count : Nat) (s : State) : s.ListsKept (takeSetLanes count s).1 := by
  unfold takeSetLanes
  simp only
  split
  · exact (State.passOver_lists _ _).behind rfl rfl
  · exact .of_same rfl rfl

theorem takeForgive_lists (stripe : Nat) (s : State) : s.ListsKept (takeForgive stripe s).1 := by
  unfold takeForgive
  split
  · exact .refl s
  · split
    · exact .refl s
    · split
      · exact .refl s
      · split
        · exact .refl s
        · exact (s.retire_lists stripe).trans (State.afterRetirement_lists _)

end Commands

/-- Every command of Table 10-2. -/
theorem runCommand_lists (c : HostCommand) (s : State) : s.ListsKept (runCommand c s).1 := by
  cases c with
  | setGeometry n l t rs k => exact takeSetGeometry_lists n l t rs k s
  | setSegments position first elements => exact takeSetSegments_lists position first elements s
  | openSession f b lanes fill startRegion aq kq skipQual =>
    exact takeOpenSession_lists f b lanes fill startRegion aq kq skipQual s
  | start =>
    simp only [runCommand, takeStart]
    split
    · exact (s.changeState_session _).lists.trans (State.passOver_lists _ _)
    · exact .refl s
  | pause =>
    simp only [runCommand, takePause]
    split
    · exact ((s.changeState_session _).trans (State.drainingExit_session _)).lists
    · exact .refl s
  | resume =>
    simp only [runCommand, takeResume]
    split
    · exact (s.changeState_session _).lists.trans (State.passOver_lists _ _)
    · exact .refl s
  | step =>
    simp only [runCommand, takeStep]
    split
    · exact ((s.changeState_session _).lists.trans (State.stepPass_lists _)).trans (State.steppingExit_session _).lists
    · exact .refl s
  | abort =>
    simp only [runCommand, takeAbort]
    split
    · exact (s.endSession_faultKeeps _ _).lists
    · exact .refl s
  | closeSession =>
    simp only [runCommand, takeCloseSession]
    split
    · exact .of_empty rfl rfl
    · exact .refl s
  | promote region => exact takePromote_lists region s
  | demote region => exact takeDemote_lists region s
  | memberDown position =>
    simp only [runCommand, takeMemberDown]
    split
    · exact .refl s
    · split
      · exact .refl s
      · exact (s.takeFault_faultKeeps _).lists
  | setPace w window =>
    simp only [runCommand, takeSetPace]
    exact ((s.updMru_only _).trans (State.decideAll_only _)).lists
  | setTimeout ms => exact .of_same rfl rfl
  | setHeat h => exact .of_rgt rfl fun hq => hq.of_same rfl rfl
  | setLanes count => exact takeSetLanes_lists count s
  | setCheck setting =>
    simp only [runCommand, takeSetCheck]
    split
    · exact .refl s
    · split
      · exact .refl s
      · exact .of_same rfl rfl
  | setEventEnables events => exact .of_same rfl rfl
  | ackEvents events => exact .of_same rfl rfl
  | getStatus => exact .refl s
  | getRegion region =>
    simp only [runCommand, takeGetRegion]
    split
    · exact .refl s
    · split <;> exact .refl s
  | listRecords first maxCount =>
    simp only [runCommand, takeListRecords]
    split
    · exact .refl s
    · split <;> exact .refl s
  | forgive stripe => exact takeForgive_lists stripe s
  | resetEngine => exact .of_empty rfl rfl

/-! ## The Management Port (R191 to R193) -/

theorem State.takeMessage_lists (m : CommandMessage) (s : State) : s.ListsKept (s.takeMessage m) := by
  have run : s.ListsKept (runDecoded (decodeCommand m.opcode m.params) s).1 := by
    cases decodeCommand m.opcode m.params with
    | unknown => exact .refl s
    | badLength => exact .refl s
    | command c => exact runCommand_lists c s
  exact run.trans (.of_same rfl rfl)

theorem State.takeCommandsFuel_lists (fuel : Nat) (s : State) : s.ListsKept (s.takeCommandsFuel fuel) := by
  induction fuel generalizing s with
  | zero => exact .refl s
  | succ fuel ih =>
    simp only [State.takeCommandsFuel]
    split
    · exact .refl s
    · split
      · refine State.ListsKept.trans ?_ (ih _)
        exact (State.takeMessage_lists _ _).behind rfl rfl
      · exact .refl s

theorem State.commandArrives_lists (m : CommandMessage) (s : State) : s.ListsKept (s.commandArrives m) := by
  have queued : s.ListsKept (s.beginEvent.queueCommand m) := by
    unfold State.queueCommand
    split
    · exact .of_same rfl rfl
    · exact .of_same rfl rfl
  exact queued.trans (State.takeCommandsFuel_lists _ _)

theorem State.readResponse_lists (s : State) : s.ListsKept s.readResponse := by
  unfold State.readResponse
  split
  · exact .of_same rfl rfl
  · exact (State.takeCommandsFuel_lists _ _).behind rfl rfl

/-! ## The Route Port (R70 to R72) -/

/-- A heat contribution reaches the schedule queue, and not the record list (R81). -/
theorem State.contribute_lists (first count : Nat) (s : State) : s.ListsKept (s.contribute first count) :=
  .of_rgt rfl fun h => h.contribute _ _ _

theorem State.takeQuery_lists (tag : Byte) (first count : Nat) (s : State) : s.ListsKept (s.takeQuery tag first count) := by
  unfold State.takeQuery
  split
  · exact (s.answer_only _).lists
  · exact (s.answer_only _).lists.trans (State.contribute_lists _ _ _)

theorem State.takeClaim_lists (tag : Byte) (first count : Nat) (s : State) : s.ListsKept (s.takeClaim tag first count) := by
  unfold State.takeClaim
  split
  · exact (s.answer_only _).lists
  · simp only
    split
    · exact (State.contribute_lists _ _ _).behind rfl rfl
    · exact (State.contribute_lists _ _ _).behind rfl rfl

theorem State.releaseHeld_lists (tag : Byte) (e : LockEntry) (listed : List Nat) (s : State) :
    s.ListsKept (s.releaseHeld tag e listed) := by
  obtain ⟨t, number, hall⟩ : ∃ t number, State.retireAll (e.overwritten listed) s = (t, number) := ⟨_, _, rfl⟩
  have retired := State.retireAll_lists (e.overwritten listed) s
  rw [hall] at retired
  have scanned := retired.trans (((t.dropHeld_only (.claim tag)).trans (State.answer_only (releasedAnswer tag number) _)).trans
    (State.scanLocks_only _)).lists
  rw [State.releaseHeld_of_retired hall]
  split
  · exact scanned
  · exact scanned.trans (State.afterRetirement_lists _)

theorem State.takeRelease_lists (tag : Byte) (listed : List Nat) (s : State) : s.ListsKept (s.takeRelease tag listed) := by
  unfold State.takeRelease
  split
  · exact (s.answer_only _).lists
  · split
    · exact (s.answer_only _).lists
    · split
      · exact s.releaseHeld_lists _ _ _
      · split
        · exact (State.scanLocks_only _).lists.behind rfl rfl
        · exact (s.answer_only _).lists

theorem State.takeRequest_lists (r : RouteRequest) (s : State) : s.ListsKept (s.takeRequest r) := by
  unfold State.takeRequest
  split
  · exact s.takeQuery_lists _ _ _
  · split
    · exact s.takeClaim_lists _ _ _
    · split
      · exact s.takeRelease_lists _ _
      · exact .of_same rfl rfl

theorem State.takeRequestsFuel_lists (fuel : Nat) (s : State) : s.ListsKept (s.takeRequestsFuel fuel) := by
  induction fuel generalizing s with
  | zero => exact .refl s
  | succ fuel ih =>
    simp only [State.takeRequestsFuel]
    split
    · exact .refl s
    · split
      · refine State.ListsKept.trans ?_ (ih _)
        exact (State.takeRequest_lists _ _).behind rfl rfl
      · exact .refl s

theorem State.requestArrives_lists (r : RouteRequest) (s : State) : s.ListsKept (s.requestArrives r) := by
  have queued : s.ListsKept (s.beginEvent.queueRequest r) := by
    unfold State.queueRequest
    split
    · exact .of_same rfl rfl
    · exact .of_same rfl rfl
  exact queued.trans (State.takeRequestsFuel_lists _ _)

theorem State.readAnswer_lists (s : State) : s.ListsKept s.readAnswer := by
  unfold State.readAnswer
  split
  · exact .of_same rfl rfl
  · exact (State.takeRequestsFuel_lists _ _).behind rfl rfl

/-! ## Time, and the step -/

theorem State.runTimeEvent_lists (e : TimeEvent) (s : State) : s.ListsKept (s.runTimeEvent e) := by
  cases e with
  | timeout tag =>
    simp only [State.runTimeEvent]
    split
    · exact .refl s
    · exact s.timeOut_lists _ tag
  | quarantineEnd tag => exact s.endQuarantine_lists tag
  | pacing x => exact ((s.setExpiry_only x none).trans (State.issueDecision_only x _)).lists

theorem State.takeTimeEvent_lists (e : TimeEvent) (s : State) : s.ListsKept (s.takeTimeEvent e) := by
  unfold State.takeTimeEvent
  split
  · exact .of_same rfl rfl
  · exact (State.runTimeEvent_lists e _).behind rfl rfl

theorem State.Occurs.lists {s t : State} (h : s.Occurs t) : s.ListsKept t := by
  cases h with
  | reset => exact .of_empty rfl rfl
  | nothing => exact .of_same rfl rfl
  | tick => exact .of_same rfl rfl
  | commandArrives m => exact s.commandArrives_lists m
  | readResponse => exact s.beginEvent.readResponse_lists.behind rfl rfl
  | requestArrives r => exact s.requestArrives_lists r
  | readAnswer => exact s.beginEvent.readAnswer_lists.behind rfl rfl
  | takeCompletion tag status mask data => exact (s.beginEvent.takeCompletion_lists tag status mask data).behind rfl rfl
  | takeBlock n => exact (s.beginEvent.takeBlock_lists n).behind rfl rfl
  | takeTimeEvent e => exact s.takeTimeEvent_lists e

/-- Settles O58: whatever occurs at a step keeps the record list and the schedule queue in order, and so does taking a command off
the queue. -/
theorem recordsAndQueueStayOrdered : Obligations.RecordsAndQueueStayOrdered := by
  intro s t h
  obtain ⟨k, hk⟩ := step_occurs h
  have kept : s.ListsKept t := hk.lists.behind rfl rfl
  rw [State.queueHoldsStale_iff, State.queueHoldsStale_iff]
  exact ⟨kept.records, kept.queue⟩

end Sys2Proof.Machine
end

section
/-! The bytes of the messages (R205 to R211): fields of whole bytes, what is read from a message that arrives, and what the part
sends. -/

namespace Sys2Proof.Machine

/-! ## Fields of whole bytes (R205) -/

theorem extractLsb'_byte {n : Nat} (v : BitVec n) (o : Nat) : v.extractLsb' o 8 = BitVec.ofNat 8 (v.toNat / 2 ^ o) := by
  rw [BitVec.extractLsb', Nat.shiftRight_eq_div_pow]

theorem bytes16_eq_leBytes (v : BitVec 16) : bytes16 v = leBytes 2 v.toNat := by
  simp only [bytes16, leBytes, extractLsb'_byte, Nat.reducePow, Nat.div_one]

theorem bytes48_eq_leBytes (v : BitVec 48) : bytes48 v = leBytes 6 v.toNat := by
  simp only [bytes48, leBytes, extractLsb'_byte, Nat.div_div_eq_div_mul, Nat.reducePow, Nat.reduceMul, Nat.div_one]

/-- A field of one byte. -/
theorem leBytes_one (v : Nat) : leBytes 1 v = [BitVec.ofNat 8 v] := rfl

theorem leBytes_byte (b : Byte) : leBytes 1 b.toNat = [b] := by rw [leBytes_one, BitVec.ofNat_toNat, BitVec.setWidth_eq]

theorem leNat_lt (bytes : List Byte) : leNat bytes < 256 ^ bytes.length := by
  induction bytes with
  | nil => exact Nat.one_pos
  | cons b rest ih =>
    have hb := b.isLt
    rw [leNat, List.length_cons, Nat.pow_succ]
    omega

/-- Nothing of a number is written beyond the width of its field. -/
theorem leBytes_mod (w v : Nat) : leBytes w (v % 256 ^ w) = leBytes w v := by
  induction w generalizing v with
  | zero => rfl
  | succ w ih =>
    have hlow : BitVec.ofNat 8 (v % 256 ^ (w + 1)) = BitVec.ofNat 8 v := by
      apply BitVec.eq_of_toNat_eq
      rw [BitVec.toNat_ofNat, BitVec.toNat_ofNat]
      exact Nat.mod_mod_of_dvd v (Dvd.intro_left (256 ^ w) (Nat.pow_succ ..).symm)
    have hhigh : v % 256 ^ (w + 1) / 256 = v / 256 % 256 ^ w := by
      rw [Nat.pow_succ, Nat.mul_comm, Nat.mod_mul_right_div_self]
    rw [leBytes, leBytes, hlow, hhigh, ih]

/-- A word as wide as the field holds what is written into it. -/
theorem leBytes_ofNat {n w : Nat} (h : 2 ^ n = 256 ^ w) (v : Nat) : leBytes w (BitVec.ofNat n v).toNat = leBytes w v := by
  rw [BitVec.toNat_ofNat, h, leBytes_mod]

/-- The bytes of the word that bytes hold. -/
theorem leBytes_ofNat_leNat {n w : Nat} (h : 2 ^ n = 256 ^ w) {bytes : List Byte} (hw : bytes.length = w) :
    leBytes w (BitVec.ofNat n (leNat bytes)).toNat = bytes := by
  subst hw
  rw [leBytes_ofNat h, leBytes_leNat]

theorem bytes16_ofNat_leNat (b0 b1 : Byte) : bytes16 (BitVec.ofNat 16 (leNat [b0, b1])) = [b0, b1] :=
  (bytes16_eq_leBytes _).trans (leBytes_ofNat_leNat rfl rfl)

theorem bytes32_ofNat_leNat (b0 b1 b2 b3 : Byte) : bytes32 (BitVec.ofNat 32 (leNat [b0, b1, b2, b3])) = [b0, b1, b2, b3] :=
  (bytes32_eq_leBytes _).trans (leBytes_ofNat_leNat rfl rfl)

/-! ## Commands (R205) -/

theorem CommandMessage.read_commandMessage (tag : BitVec 16) (opcode : Byte) {params : List Byte} (h : params.length ≤ 255) :
    CommandMessage.read (commandMessage tag opcode params) = some { tag := tag, opcode := opcode, params := params } := by
  have hlength : params.length = (BitVec.ofNat 8 params.length).toNat := by
    rw [BitVec.toNat_ofNat]
    omega
  have htag : BitVec.ofNat 16 (leNat (bytes16 tag)) = tag := by
    rw [bytes16_eq_leBytes, leNat_leBytes tag.isLt, BitVec.ofNat_toNat, BitVec.setWidth_eq]
  refine (if_pos hlength).trans ?_
  rw [← bytes16, htag]
  rfl

/-- A command message is read from the bytes that spell it, and from no others. -/
theorem CommandMessage.read_eq_some {bytes : List Byte} {m : CommandMessage} :
    CommandMessage.read bytes = some m ↔ bytes = commandMessage m.tag m.opcode m.params ∧ m.params.length ≤ 255 := by
  refine ⟨fun h => ?_, fun ⟨hbytes, hlength⟩ => hbytes ▸ CommandMessage.read_commandMessage m.tag m.opcode hlength⟩
  unfold CommandMessage.read at h
  split at h
  case h_2 => cases h
  rename_i t0 t1 opcode length params
  split at h
  case isFalse => cases h
  rename_i hlength
  obtain rfl := Option.some.inj h
  refine ⟨?_, hlength ▸ Nat.le_of_lt_succ length.isLt⟩
  rw [commandMessage, bytes16_ofNat_leNat, hlength, BitVec.ofNat_toNat, BitVec.setWidth_eq]
  rfl

theorem exec_commandArrival (tag : BitVec 16) (opcode : Byte) {params : List Byte} (h : params.length ≤ 255) (s : State) :
    exec (.commandArrival (commandMessage tag opcode params)) s =
      .next (s.commandArrives { tag := tag, opcode := opcode, params := params }) :=
  execCommandArrival_of_read (CommandMessage.read_commandMessage tag opcode h) s

/-! ## Route requests and completions (R207, R209) -/

/-- Stripe numbers are written back as they were read, 4 bytes each. -/
theorem flatMap_bytes32_readStripes (count : Nat) {list : List Byte} (h : list.length = 4 * count) :
    (readStripes list).flatMap bytes32 = list := by
  induction count generalizing list with
  | zero => rw [List.length_eq_zero_iff.1 h]; rfl
  | succ count ih =>
    match list, h with
    | b0 :: b1 :: b2 :: b3 :: rest, h =>
      have hrest : rest.length = 4 * count := by
        simp only [List.length_cons] at h
        omega
      rw [readStripes, List.flatMap_cons, ih hrest, bytes32_ofNat_leNat]
      rfl

/-- A route request is read from the bytes that spell it, and from no others. -/
theorem RouteRequest.read_eq_some {bytes : List Byte} {r : RouteRequest} :
    RouteRequest.read bytes = some r ↔ bytes = routeMessage r ∧ ListsAsCounted r := by
  refine ⟨fun h => ?_, fun ⟨hbytes, hlist⟩ => hbytes ▸ RouteRequest.read_routeMessage hlist⟩
  unfold RouteRequest.read at h
  split at h
  case h_2 => cases h
  rename_i kind tag count overs f0 f1 f2 f3 list
  split at h
  case isFalse => cases h
  rename_i hlength
  obtain rfl := Option.some.inj h
  have hspelled : (readStripes list).flatMap bytes32 = list →
      kind :: tag :: count :: overs :: f0 :: f1 :: f2 :: f3 :: list =
        [kind, tag, count, overs] ++ bytes32 (BitVec.ofNat 32 (leNat [f0, f1, f2, f3])) ++ (readStripes list).flatMap bytes32 := by
    intro hlist
    rw [bytes32_ofNat_leNat, hlist]
    rfl
  by_cases hk : kind = 3
  · rw [listBytes, if_pos hk] at hlength
    refine ⟨hspelled (flatMap_bytes32_readStripes _ hlength), fun _ => ?_, fun hne => absurd hk hne⟩
    exact Laws.WellFormedRows.length_readStripes _ _ hlength
  · rw [listBytes, if_neg hk] at hlength
    obtain rfl := List.length_eq_zero_iff.1 hlength
    exact ⟨hspelled rfl, fun heq => absurd heq hk, fun _ => rfl⟩

/-- A completion is read from the 11 bytes that spell it, and from no others. -/
theorem Completion.read_eq_some {bytes : List Byte} {c : Completion} :
    Completion.read bytes = some c ↔ bytes = [c.tag, c.status, c.position] ++ bytes64 c.mask := by
  constructor
  · intro h
    unfold Completion.read at h
    split at h
    case h_2 => cases h
    rename_i tag status position mask
    split at h
    case isFalse => cases h
    rename_i hlength
    obtain rfl := Option.some.inj h
    rw [bytes64_eq, leBytes_ofNat_leNat rfl hlength]
    rfl
  · rintro rfl
    have hlength : (bytes64 c.mask).length = 8 := by rw [bytes64_eq, length_leBytes]
    simp [Completion.read, hlength, leNat_bytes64]

/-- Settles O10: each kind of message is read from its own bytes only, and a command from its own parameters. -/
theorem messagesReadAsWritten : Obligations.MessagesReadAsWritten :=
  ⟨fun _ _ => CommandMessage.read_eq_some, fun _ => decodeCommand_of_fits, fun _ _ => RouteRequest.read_eq_some,
    fun _ _ => Completion.read_eq_some⟩

/-! ## The rows of the table (R205, R207) -/

section Rows

variable (tag : BitVec 16) (s : State)

/-- A row of one host command is the arrival of the bytes that spell it. -/
theorem hostCommand_eq_arrival {c : HostCommand} {opcode : Byte} {params : List Byte} (hopcode : c.opcode = opcode)
    (hparams : c.params = params) (hlength : params.length ≤ 255) :
    hostCommand tag c s = exec (.commandArrival (commandMessage tag opcode params)) s := by
  rw [exec_commandArrival tag opcode hlength, hostCommand, HostCommand.message, hopcode, hparams]

/-- A command without parameters. -/
theorem hostCommand_eq_arrival_nil {c : HostCommand} {opcode : Byte} (hopcode : c.opcode = opcode) (hparams : c.params = []) :
    hostCommand tag c s = exec (.commandArrival (commandMessage tag opcode [])) s :=
  hostCommand_eq_arrival tag s hopcode hparams (Nat.zero_le _)

/-- A command of one parameter byte. -/
theorem hostCommand_eq_arrival_byte {c : HostCommand} {opcode : Byte} {v : Byte} (hopcode : c.opcode = opcode)
    (hparams : c.params = leBytes 1 v.toNat) : hostCommand tag c s = exec (.commandArrival (commandMessage tag opcode [v])) s :=
  hostCommand_eq_arrival tag s hopcode (hparams.trans (leBytes_byte v)) (Nat.le_add_left 1 254)

/-- A command of one 16-bit parameter. -/
theorem hostCommand_eq_arrival_bytes16 {c : HostCommand} {opcode : Byte} {v : BitVec 16} (hopcode : c.opcode = opcode)
    (hparams : c.params = leBytes 2 v.toNat) :
    hostCommand tag c s = exec (.commandArrival (commandMessage tag opcode (bytes16 v))) s :=
  hostCommand_eq_arrival tag s hopcode (hparams.trans (bytes16_eq_leBytes v).symm) (Nat.le_add_left 2 253)

theorem exec_setGeometry_eq_arrival (n l : Byte) (t rs : BitVec 32) (k : Byte) :
    exec (.setGeometry tag n l t rs k) s =
      exec (.commandArrival (commandMessage tag 0x01 ([n, l] ++ bytes32 t ++ bytes32 rs ++ [k]))) s := by
  refine hostCommand_eq_arrival tag s rfl ?_ (Nat.le_add_left 11 244)
  rw [HostCommand.params, leBytes_byte, leBytes_byte, leBytes_byte, bytes32_eq_leBytes, bytes32_eq_leBytes]
  rfl

theorem exec_setSegments_eq_arrival (x f : Byte) {elements : List SegmentElement} (h : elements.length ≤ 31) :
    exec (.setSegments tag x f elements) s =
      exec (.commandArrival (commandMessage tag 0x02 ([x, f, BitVec.ofNat 8 elements.length] ++
        elements.flatMap fun e => bytes48 e.base ++ [e.kind, e.unread]))) s := by
  have hspelled : (elements.flatMap fun e => bytes48 e.base ++ [e.kind, e.unread]) = elements.flatMap elementBytes :=
    List.flatMap_congr fun e _ => by rw [bytes48_eq_leBytes, elementBytes]
  rw [hspelled]
  refine hostCommand_eq_arrival tag s rfl ?_ ?_
  · rw [HostCommand.params, leBytes_byte, leBytes_byte, leBytes_one]
    rfl
  · rw [List.length_append, length_elements]
    simp only [List.length_cons, List.length_nil]
    omega

theorem exec_openSession_eq_arrival (f b lanes fill : Byte) (start : BitVec 16) (aq : BitVec 48) (kq skip : Byte) :
    exec (.openSession tag f b lanes fill start aq kq skip) s = exec (.commandArrival
      (commandMessage tag 0x03 ([f, b, lanes, fill] ++ bytes16 start ++ bytes48 aq ++ [kq, skip]))) s := by
  refine hostCommand_eq_arrival tag s rfl ?_ (Nat.le_add_left 14 241)
  rw [HostCommand.params, leBytes_byte, leBytes_byte, leBytes_byte, leBytes_byte, leBytes_byte, leBytes_byte, bytes16_eq_leBytes,
    bytes48_eq_leBytes]
  rfl

theorem exec_setPace_eq_arrival (w : Byte) (window : BitVec 16) :
    exec (.setPace tag w window) s = exec (.commandArrival (commandMessage tag 0x0D ([w] ++ bytes16 window))) s := by
  refine hostCommand_eq_arrival tag s rfl ?_ (Nat.le_add_left 3 252)
  rw [HostCommand.params, leBytes_byte, bytes16_eq_leBytes]

theorem exec_listRecords_eq_arrival (first : BitVec 32) (max : Byte) :
    exec (.listRecords tag first max) s = exec (.commandArrival (commandMessage tag 0x16 (bytes32 first ++ [max]))) s := by
  refine hostCommand_eq_arrival tag s rfl ?_ (Nat.le_add_left 5 250)
  rw [HostCommand.params, leBytes_byte, bytes32_eq_leBytes]

theorem exec_forgive_eq_arrival (stripe : BitVec 32) :
    exec (.forgive tag stripe) s = exec (.commandArrival (commandMessage tag 0x17 (bytes32 stripe))) s :=
  hostCommand_eq_arrival tag s rfl (bytes32_eq_leBytes stripe).symm (Nat.le_add_left 4 251)

/-- No list follows a QUERY or a CLAIM. -/
theorem rangeRequest_counted {kind : Byte} (h : kind ≠ 3) (t count : Byte) (first : BitVec 32) :
    ListsAsCounted (rangeRequest kind t count first) := ⟨fun h' => absurd h' h, fun _ => rfl⟩

/-- Byte 3 of a RELEASE is the length of its list (log 19). -/
theorem exec_release_eq_arrival (t : Byte) {listed : List (BitVec 32)} (h : listed.length ≤ 255) :
    exec (.release t listed) s =
      exec (.routeRequestArrival (routeMessage ⟨3, t, 0, BitVec.ofNat 8 listed.length, 0, listed⟩)) s := by
  have hcounted : ListsAsCounted ⟨3, t, 0, BitVec.ofNat 8 listed.length, 0, listed⟩ := by
    refine ⟨fun _ => ?_, fun hne => absurd rfl hne⟩
    show listed.length = (BitVec.ofNat 8 listed.length).toNat
    rw [BitVec.toNat_ofNat]
    omega
  rw [exec_routeRequestArrival hcounted]
  show Host.Outcome.next (s.requestArrives (releaseRequest t listed)) = _
  rw [releaseRequest, Nat.min_eq_right h]
  rfl

end Rows

/-- Settles O9: each row's message is the one its meaning sends, field by field. -/
theorem rowsSpellTheirMessages : Obligations.RowsSpellTheirMessages := fun tag s =>
  ⟨exec_setGeometry_eq_arrival tag s, fun x f _ => exec_setSegments_eq_arrival tag s x f, exec_openSession_eq_arrival tag s,
    hostCommand_eq_arrival_nil tag s rfl rfl, hostCommand_eq_arrival_nil tag s rfl rfl, hostCommand_eq_arrival_nil tag s rfl rfl,
    hostCommand_eq_arrival_nil tag s rfl rfl, hostCommand_eq_arrival_nil tag s rfl rfl, hostCommand_eq_arrival_nil tag s rfl rfl,
    fun _ => hostCommand_eq_arrival_bytes16 tag s rfl rfl, fun _ => hostCommand_eq_arrival_bytes16 tag s rfl rfl,
    fun _ => hostCommand_eq_arrival_byte tag s rfl rfl, exec_setPace_eq_arrival tag s,
    fun _ => hostCommand_eq_arrival_bytes16 tag s rfl rfl, fun _ => hostCommand_eq_arrival_bytes16 tag s rfl rfl,
    fun _ => hostCommand_eq_arrival_byte tag s rfl rfl, fun _ => hostCommand_eq_arrival_byte tag s rfl rfl,
    fun _ => hostCommand_eq_arrival_bytes16 tag s rfl rfl, fun _ => hostCommand_eq_arrival_bytes16 tag s rfl rfl,
    hostCommand_eq_arrival_nil tag s rfl rfl, fun _ => hostCommand_eq_arrival_bytes16 tag s rfl rfl,
    exec_listRecords_eq_arrival tag s, exec_forgive_eq_arrival tag s, hostCommand_eq_arrival_nil tag s rfl rfl,
    fun _ _ _ => (exec_routeRequestArrival (rangeRequest_counted (by decide) _ _ _) s).symm,
    fun _ _ _ => (exec_routeRequestArrival (rangeRequest_counted (by decide) _ _ _) s).symm,
    fun t _ => exec_release_eq_arrival s t, fun _ h => (exec_routeRequestArrival h s).symm⟩

/-! ## What the part sends (R206, R208 to R211) -/

/-- Bit b of a mask stands in byte b / 8 of its bytes (R210). -/
theorem getLsbD_bytes64 (m : Mask) {b : Nat} (h : b < 64) : ((bytes64 m).getD (b / 8) 0).getLsbD (b % 8) = m.getLsbD b := by
  have hbyte : (bytes64 m).getD (b / 8) 0 = m.extractLsb' (8 * (b / 8)) 8 := by
    have hlt : b / 8 < 8 := by omega
    simp [bytes64, List.getD_eq_getElem?_getD, hlt]
  rw [hbyte, BitVec.getLsbD_extractLsb', decide_eq_true (Nat.mod_lt b (by decide)), Bool.true_and, Nat.div_add_mod]

/-- A position joins a set that is built up from `acc`. -/
theorem getLsbD_foldl_twoPow (positions : List Nat) (acc : BitVec 16) {x : Nat} (h : x < 16) :
    (positions.foldl (fun acc x => acc ||| BitVec.twoPow 16 x) acc).getLsbD x = true ↔ acc.getLsbD x = true ∨ x ∈ positions := by
  induction positions generalizing acc with
  | nil => simp
  | cons y rest ih =>
    rw [List.foldl_cons, ih, BitVec.getLsbD_or, BitVec.getLsbD_twoPow, Bool.or_eq_true, Bool.and_eq_true,
      decide_eq_true_eq, decide_eq_true_eq, List.mem_cons, or_assoc]
    exact or_congr_right (or_congr_left ⟨fun ⟨_, hy⟩ => hy.symm, fun hx => ⟨hx ▸ h, hx.symm⟩⟩)

theorem getLsbD_positionSet (positions : List Nat) {x : Nat} (h : x < 16) :
    (positionSet positions).getLsbD x = true ↔ x ∈ positions := by
  rw [positionSet, getLsbD_foldl_twoPow positions 0 h]
  simp

theorem Response.bytes_eq (r : Response) :
    r.bytes = bytes16 r.tag ++ [BitVec.ofNat 8 r.reply.code.toNat, BitVec.ofNat 8 r.reply.reason.toNat] ++
      bytes16 (BitVec.ofNat 16 r.reply.payload.length) ++ r.reply.payload := by
  rw [Response.bytes, bytes16_eq_leBytes, bytes16_eq_leBytes, leBytes_ofNat rfl, leBytes_one, leBytes_one,
    List.append_assoc (leBytes 2 _) [_] [_]]
  rfl

theorem Answer.bytes_eq (a : Answer) :
    a.bytes = [a.tag, a.kind, BitVec.ofNat 8 a.status.toNat, BitVec.ofNat 8 a.number] ++ bytes32 (BitVec.ofNat 32 a.stripe) ++
      a.entries.flatMap fun e => BitVec.ofNat 8 e.disposition.toNat :: (bytes64 e.lost ++ bytes64 e.suspect) := by
  have hentry (e : DispositionEntry) :
      e.bytes = BitVec.ofNat 8 e.disposition.toNat :: (bytes64 e.lost ++ bytes64 e.suspect) := by
    rw [DispositionEntry.bytes, bytes64_eq, bytes64_eq, leBytes_one, List.append_assoc]
    rfl
  rw [Answer.bytes, bytes32_eq_leBytes, leBytes_ofNat rfl, leBytes_one, leBytes_one, funext hentry]
  rfl

theorem Record.bytes_eq (r : Record) :
    r.bytes =
      bytes32 (BitVec.ofNat 32 r.stripe) ++ bytes64 r.lost ++ bytes64 r.suspect ++ bytes16 (positionSet r.contributors) := by
  rw [Record.bytes, bytes32_eq_leBytes, leBytes_ofNat rfl, bytes64_eq, bytes64_eq, bytes16_eq_leBytes]
  rfl

theorem Request.bytes_eq (r : Request) (tag : Nat) :
    r.bytes tag = [BitVec.ofNat 8 tag, BitVec.ofNat 8 r.position, (if r.kind = .write ∨ r.kind = .qwrite then 0x01 else 0x00),
        BitVec.ofNat 8 r.blocks] ++ bytes48 (BitVec.ofNat 48 r.address) ++
      bytes32 (BitVec.ofNat 32 (r.buf.val * 262144 + r.firstBlock * 4096)) := by
  have hdirection : leBytes 1 (if r.kind.isWrite then 1 else 0) =
      [if r.kind = .write ∨ r.kind = .qwrite then 0x01 else 0x00] := by
    cases r.kind with
    | read | qread => rfl
    | write | qwrite => rfl
  rw [Request.bytes, hdirection, bytes48_eq_leBytes, leBytes_ofNat rfl, bytes32_eq_leBytes, leBytes_ofNat rfl, leBytes_one,
    leBytes_one, leBytes_one]
  rfl

/-- Settles O32: the codes are tables, and each layout puts its fields side by side. -/
theorem messageCodesAndLayouts : Obligations.MessageCodesAndLayouts := by
  refine ⟨fun w v => ⟨length_leBytes w v, fun i hi => ?_, rfl, rfl⟩, fun m b hb => ⟨?_, getLsbD_bytes64 m hb⟩, ⟨rfl, rfl⟩,
    ⟨rfl, rfl⟩, ⟨rfl, rfl, rfl, rfl, rfl, rfl⟩, by decide, Response.bytes_eq, Answer.bytes_eq, Record.bytes_eq,
    fun positions x hx => getLsbD_positionSet positions hx, Request.bytes_eq⟩
  · simp [leBytes_eq_map, hi]
  · rw [bytes64_eq, length_leBytes]

end Sys2Proof.Machine
end

section
/-! The Management Port: a command message joins the command queue or is discarded, commands are taken from the head while the
response queue has room, and the host reads the responses. -/

namespace Sys2Proof.Machine

/-! ## The command queue (R191) -/

theorem State.queueCommand_of_room {s : State} (h : s.mgp.commands.length < 16) (m : CommandMessage) :
    s.queueCommand m = { s with mgp := { s.mgp with commands := s.mgp.commands ++ [m] } } := if_pos h

theorem State.queueCommand_of_full {s : State} (h : 16 ≤ s.mgp.commands.length) (m : CommandMessage) :
    s.queueCommand m = s.noting (Event.bit .commandOverrun) := (if_neg (Nat.not_lt.2 h)).trans (s.setEvent_eq_noting _)

/-! ## The taking of commands (R192) -/

/-- The one response to a command taken: its queue is left, and the response joins the tail of the other. -/
theorem State.takeMessage_responded (m : CommandMessage) (s : State) :
    Responded s (s.takeMessage m) m.tag (runDecoded (decodeCommand m.opcode m.params) s).2 := by
  obtain ⟨-, -, -, hcommands, -⟩ := runDecoded_only (decodeCommand m.opcode m.params) s
  exact ⟨hcommands, s.takeMessage_responses m⟩

theorem State.takeCommands_of_nil {s : State} (h : s.mgp.commands = []) : s.takeCommands = s := by
  rw [State.takeCommands, h]
  rfl

/-- The head command leaves the queue and is taken; taking it leaves the rest of the queue, so that the fuel suffices. -/
theorem State.takeCommands_of_cons {s : State} {m : CommandMessage} {rest : List CommandMessage} (h : s.mgp.commands = m :: rest)
    (hroom : s.mgp.responses.length < 16) :
    s.takeCommands = (({ s with mgp := { s.mgp with commands := rest } } : State).takeMessage m).takeCommands := by
  have hdrop : s.updMgp Mgp.dropHead = { s with mgp := { s.mgp with commands := rest } } := by
    simp only [State.updMgp, Mgp.dropHead, h, List.tail_cons]
  obtain ⟨hrest, -⟩ := ({ s with mgp := { s.mgp with commands := rest } } : State).takeMessage_responded m
  rw [State.takeCommands, State.takeCommands, hrest, h, List.length_cons]
  simp only [State.takeCommandsFuel, h, if_pos (show s.mgp.responses.length < responseCapacity from hroom), hdrop]

theorem State.takeCommands_of_no_room {s : State} (h : 16 ≤ s.mgp.responses.length) : s.takeCommands = s := by
  have hroom : ¬s.mgp.responses.length < responseCapacity := Nat.not_lt.2 h
  cases hq : s.mgp.commands with
  | nil => exact State.takeCommands_of_nil hq
  | cons m rest =>
    rw [State.takeCommands, hq]
    simp only [List.length_cons, State.takeCommandsFuel, hq, if_neg hroom]

/-- Settles O6: MGP takes the head while there is room, and each command taken has its response. -/
theorem commandsTakenInOrder : Obligations.CommandsTakenInOrder :=
  ⟨fun _ h => h.elim State.takeCommands_of_nil State.takeCommands_of_no_room, fun _ _ _ => State.takeCommands_of_cons,
    fun m s => ⟨_, s.takeMessage_responded m⟩⟩

/-- Settles O5: with room the command joins the tail, and otherwise the event is noted; then MGP takes what it can. -/
theorem commandQueuesOrIsDiscarded : Obligations.CommandQueuesOrIsDiscarded := by
  intro m s hlength done
  have hdone : done = .next (s.commandArrives m) := exec_commandArrival m.tag m.opcode hlength s
  rw [hdone]
  refine ⟨fun hroom => ⟨_, rfl, ?_⟩, fun hfull => ?_⟩
  · rw [State.commandArrives, State.queueCommand_of_room (s := s.beginEvent) hroom]
    rfl
  have hdiscarded : s.commandArrives m = (s.beginEvent.noting (Event.bit .commandOverrun)).takeCommands := by
    rw [State.commandArrives, State.queueCommand_of_full (s := s.beginEvent) hfull]
  rw [hdiscarded]
  refine ⟨⟨_, rfl, rfl⟩, fun hresponses => ⟨_, rfl, ?_⟩⟩
  rw [State.takeCommands_of_no_room (s := s.beginEvent.noting _) hresponses]
  rfl

/-! ## The reading of responses (R193) -/

theorem exec_responseRead_of_nil {s : State} (h : s.mgp.responses = []) :
    exec .responseRead s = .next { s with sent := [.response [0, 0, 0, 0, 0, 0]] } := by
  show Host.Outcome.next s.beginEvent.readResponse = _
  rw [State.readResponse, State.beginEvent_mgp, h]
  rfl

theorem exec_responseRead_of_cons {s : State} {r : Response} {rest : List Response} (h : s.mgp.responses = r :: rest) :
    exec .responseRead s =
      .next ({ s with mgp := { s.mgp with responses := rest }, sent := [.response r.bytes] } : State).takeCommands := by
  show Host.Outcome.next s.beginEvent.readResponse = _
  rw [State.readResponse, State.beginEvent_mgp, h]
  rfl

/-- Settles O7: with nothing to take behind it, a read leaves the rest of the responses. -/
theorem responseReadFromHead : Obligations.ResponseReadFromHead := by
  refine fun s => ⟨exec_responseRead_of_nil, fun r rest h => ⟨exec_responseRead_of_cons h, fun _ hcommands => ?_⟩⟩
  exact (exec_responseRead_of_cons h).trans (congrArg Host.Outcome.next (State.takeCommands_of_nil hcommands))

/-! ## The parameters that a message carries (R194, R205) -/

/-- The bytes of a field are those that stand in the message at its place. -/
theorem leBytes_fieldAt {p : List Byte} {o w : Nat} (h : o + w ≤ p.length) : leBytes w (fieldAt p o w) = (p.drop o).take w := by
  have hlength : ((p.drop o).take w).length = w := by
    rw [List.length_take, List.length_drop]
    omega
  have hbytes := leBytes_leNat ((p.drop o).take w)
  rwa [hlength] at hbytes

/-- The parameters up to a field, and the field behind them. -/
theorem take_append_fieldAt {p : List Byte} {o w : Nat} (h : o + w ≤ p.length) :
    p.take o ++ leBytes w (fieldAt p o w) = p.take (o + w) := by rw [leBytes_fieldAt h, List.take_add]

/-- A field that begins the parameters. -/
theorem leBytes_fieldAt_zero {p : List Byte} {w : Nat} (h : w ≤ p.length) : leBytes w (fieldAt p 0 w) = p.take w := by
  rw [leBytes_fieldAt (by omega), List.drop_zero]

/-- A field that is all there is. -/
theorem leBytes_fieldAt_all {p : List Byte} {w : Nat} (h : p.length = w) : leBytes w (fieldAt p 0 w) = p := by
  rw [leBytes_fieldAt_zero h.ge, List.take_of_length_le h.le]

/-- Elements are written back as they were read, 8 bytes each (R205). -/
theorem flatMap_elementBytes_decodeElements (count : Nat) {list : List Byte} (h : list.length = 8 * count) :
    (decodeElements list).flatMap elementBytes = list ∧ (decodeElements list).length = count := by
  induction count generalizing list with
  | zero =>
    rw [List.length_eq_zero_iff.1 h]
    exact ⟨rfl, rfl⟩
  | succ count ih =>
    match list, h with
    | b0 :: b1 :: b2 :: b3 :: b4 :: b5 :: kind :: unread :: rest, h =>
      have hlength : rest.length = 8 * count := by
        simp only [List.length_cons] at h
        omega
      obtain ⟨hbytes, hcount⟩ := ih hlength
      have hbase : leBytes 6 (BitVec.ofNat 48 (leNat [b0, b1, b2, b3, b4, b5])).toNat = [b0, b1, b2, b3, b4, b5] :=
        leBytes_ofNat_leNat rfl rfl
      rw [decodeElements, List.flatMap_cons, hbytes, List.length_cons, hcount, elementBytes, hbase]
      exact ⟨rfl, rfl⟩

/-- What R194 makes of an opcode and parameters of the length Table 10-3 gives: the command with that code and those parameters. -/
def SpellsCommand (opcode : Byte) (p : List Byte) (c : HostCommand) : Prop := c.opcode = opcode ∧ c.params = p

section Fixed

variable {p : List Byte}

theorem spells_setGeometry (h : p.length = 11) : SpellsCommand 0x01 p
    (.setGeometry (fieldAt p 0 1) (fieldAt p 1 1) (fieldAt p 2 4) (fieldAt p 6 4) (fieldAt p 10 1)) := by
  refine ⟨rfl, ?_⟩
  rw [HostCommand.params, leBytes_fieldAt_zero (by omega), take_append_fieldAt (by omega), take_append_fieldAt (by omega),
    take_append_fieldAt (by omega), take_append_fieldAt (by omega), List.take_of_length_le (by omega)]

theorem spells_openSession (h : p.length = 14) : SpellsCommand 0x03 p
    (.openSession (fieldAt p 0 1) (fieldAt p 1 1) (fieldAt p 2 1) (fieldAt p 3 1) (fieldAt p 4 2) (fieldAt p 6 6) (fieldAt p 12 1)
      (fieldAt p 13 1)) := by
  refine ⟨rfl, ?_⟩
  rw [HostCommand.params, leBytes_fieldAt_zero (by omega), take_append_fieldAt (by omega), take_append_fieldAt (by omega),
    take_append_fieldAt (by omega), take_append_fieldAt (by omega), take_append_fieldAt (by omega), take_append_fieldAt (by omega),
    take_append_fieldAt (by omega), List.take_of_length_le (by omega)]

theorem spells_setPace (h : p.length = 3) : SpellsCommand 0x0D p (.setPace (fieldAt p 0 1) (fieldAt p 1 2)) := by
  refine ⟨rfl, ?_⟩
  rw [HostCommand.params, leBytes_fieldAt_zero (by omega), take_append_fieldAt (by omega), List.take_of_length_le (by omega)]

theorem spells_listRecords (h : p.length = 5) : SpellsCommand 0x16 p (.listRecords (fieldAt p 0 4) (fieldAt p 4 1)) := by
  refine ⟨rfl, ?_⟩
  rw [HostCommand.params, leBytes_fieldAt_zero (by omega), take_append_fieldAt (by omega), List.take_of_length_le (by omega)]

end Fixed

/-- Every code but SET_SEGMENTS is a length check on one command (Table 10-3), which is then the message's own. -/
theorem decodeCommand_of_fixed {code length : Nat} (h : (code, length) ∈ parameterLengths) {opcode : Byte}
    (hcode : opcode.toNat = code) (p : List Byte) :
    ∃ c, decodeCommand opcode p = withLength length p c ∧ (p.length = length → SpellsCommand opcode p c) := by
  obtain rfl : opcode = BitVec.ofNat 8 code := by rw [← hcode, BitVec.ofNat_toNat, BitVec.setWidth_eq]
  have bare {c : HostCommand} (hp : c.params = []) (hl : p.length = 0) : SpellsCommand c.opcode p c :=
    ⟨rfl, hp.trans (List.length_eq_zero_iff.1 hl).symm⟩
  have field {c : HostCommand} {w : Nat} (hp : c.params = leBytes w (fieldAt p 0 w)) (hl : p.length = w) :
      SpellsCommand c.opcode p c := ⟨rfl, hp.trans (leBytes_fieldAt_all hl)⟩
  simp only [parameterLengths, List.mem_cons, List.not_mem_nil, or_false, Prod.mk.injEq] at h
  rcases h with ⟨rfl, rfl⟩ | ⟨rfl, rfl⟩ | ⟨rfl, rfl⟩ | ⟨rfl, rfl⟩ | ⟨rfl, rfl⟩ | ⟨rfl, rfl⟩ | ⟨rfl, rfl⟩ | ⟨rfl, rfl⟩ |
    ⟨rfl, rfl⟩ | ⟨rfl, rfl⟩ | ⟨rfl, rfl⟩ | ⟨rfl, rfl⟩ | ⟨rfl, rfl⟩ | ⟨rfl, rfl⟩ | ⟨rfl, rfl⟩ | ⟨rfl, rfl⟩ | ⟨rfl, rfl⟩ |
    ⟨rfl, rfl⟩ | ⟨rfl, rfl⟩ | ⟨rfl, rfl⟩ | ⟨rfl, rfl⟩ | ⟨rfl, rfl⟩ | ⟨rfl, rfl⟩
  · exact ⟨_, rfl, spells_setGeometry⟩
  · exact ⟨_, rfl, spells_openSession⟩
  · exact ⟨.start, rfl, bare rfl⟩
  · exact ⟨.pause, rfl, bare rfl⟩
  · exact ⟨.resume, rfl, bare rfl⟩
  · exact ⟨.step, rfl, bare rfl⟩
  · exact ⟨.abort, rfl, bare rfl⟩
  · exact ⟨.closeSession, rfl, bare rfl⟩
  · exact ⟨.promote _, rfl, field rfl⟩
  · exact ⟨.demote _, rfl, field rfl⟩
  · exact ⟨.memberDown _, rfl, field rfl⟩
  · exact ⟨_, rfl, spells_setPace⟩
  · exact ⟨.setTimeout _, rfl, field rfl⟩
  · exact ⟨.setHeat _, rfl, field rfl⟩
  · exact ⟨.setLanes _, rfl, field rfl⟩
  · exact ⟨.setCheck _, rfl, field rfl⟩
  · exact ⟨.setEventEnables _, rfl, field rfl⟩
  · exact ⟨.ackEvents _, rfl, field rfl⟩
  · exact ⟨.getStatus, rfl, bare rfl⟩
  · exact ⟨.getRegion _, rfl, field rfl⟩
  · exact ⟨_, rfl, spells_listRecords⟩
  · exact ⟨.forgive _, rfl, field rfl⟩
  · exact ⟨.resetEngine, rfl, bare rfl⟩

/-! ## The checks in the order of R194 -/

/-- No code of Table 10-2. -/
theorem decodeCommand_of_no_code {opcode : Byte} (h : opcode.toNat = 0 ∨ 24 < opcode.toNat) (p : List Byte) :
    decodeCommand opcode p = .unknown := by
  unfold decodeCommand
  split
  case h_25 => rfl
  all_goals omega

/-- The one code whose length the parameters give themselves, by the count in their byte 2. -/
theorem decodeCommand_of_setSegments {opcode : Byte} (hcode : opcode.toNat = 0x02) (p : List Byte) :
    decodeCommand opcode p =
      if 3 ≤ p.length ∧ p.length = 3 + 8 * fieldAt p 2 1 ∧ p.length ≤ 255 then
        .command (.setSegments (fieldAt p 0 1) (fieldAt p 1 1) (decodeElements (p.drop 3)))
      else .badLength := by
  obtain rfl : opcode = 0x02 := BitVec.eq_of_toNat_eq hcode
  rfl

theorem fieldAt_byte {p : List Byte} {o : Nat} (h : o < p.length) : fieldAt p o 1 = (p.getD o 0).toNat := by
  rw [fieldAt, List.drop_eq_getElem_cons h, List.getD_eq_getElem _ _ h]
  simp only [List.take_succ_cons, List.take_zero, leNat, Nat.mul_zero, Nat.add_zero]

/-- The parameters of SET_SEGMENTS, when their length is the one they give themselves. -/
theorem spells_setSegments {p : List Byte} (hthree : 3 ≤ p.length) (hlength : p.length = 3 + 8 * fieldAt p 2 1) :
    SpellsCommand 0x02 p (.setSegments (fieldAt p 0 1) (fieldAt p 1 1) (decodeElements (p.drop 3))) := by
  have hlist : (p.drop 3).length = 8 * fieldAt p 2 1 := by
    rw [List.length_drop]
    omega
  obtain ⟨hbytes, hcount⟩ := flatMap_elementBytes_decodeElements _ hlist
  refine ⟨rfl, ?_⟩
  rw [HostCommand.params, hbytes, hcount, leBytes_fieldAt_zero (by omega), take_append_fieldAt (by omega),
    take_append_fieldAt hthree, List.take_append_drop]

theorem parameterLengths_listed : ∀ code < 25, 1 ≤ code → code ≠ 2 → ∃ entry ∈ parameterLengths, entry.1 = code := by decide

theorem parameterLengths_unique :
    ∀ entry ∈ parameterLengths, ∀ other ∈ parameterLengths, entry.1 = other.1 → entry = other := by decide

theorem parameterLengths_codes : ∀ entry ∈ parameterLengths, 1 ≤ entry.1 ∧ entry.1 ≤ 24 := by decide

/-- What R194 makes of a message whose code is one of Table 10-2: its length is right and it is the command with that code and
those parameters, or its length is wrong. -/
theorem decodeCommand_of_code {m : CommandMessage} (hlow : 1 ≤ m.opcode.toNat) (hhigh : m.opcode.toNat ≤ 24) :
    (lengthFits m = true ∧ ∃ c, decodeCommand m.opcode m.params = .command c ∧ SpellsCommand m.opcode m.params c) ∨
      (lengthFits m = false ∧ decodeCommand m.opcode m.params = .badLength) := by
  by_cases hcode : m.opcode.toNat = 0x02
  · have hfits : lengthFits m = true ↔
        3 ≤ m.params.length ∧ m.params.length = 3 + 8 * fieldAt m.params 2 1 ∧ m.params.length ≤ 255 := by
      rw [lengthFits, if_pos hcode]
      simp only [Bool.and_eq_true, decide_eq_true_eq, and_assoc]
      exact and_congr_right fun hthree => by rw [fieldAt_byte hthree]
    have hopcode : m.opcode = 0x02 := BitVec.eq_of_toNat_eq hcode
    rw [decodeCommand_of_setSegments hcode]
    split
    next h => exact .inl ⟨hfits.2 h, _, rfl, hopcode ▸ spells_setSegments h.1 h.2.1⟩
    next h => exact .inr ⟨Bool.eq_false_iff.2 (mt hfits.1 h), rfl⟩
  · obtain ⟨⟨code, length⟩, hlisted, hopcode⟩ := parameterLengths_listed _ (Nat.lt_succ_of_le hhigh) hlow hcode
    obtain ⟨c, hdecoded, hspells⟩ := decodeCommand_of_fixed hlisted hopcode.symm m.params
    have hfits : lengthFits m = true ↔ m.params.length = length := by
      rw [lengthFits, if_neg hcode, List.contains_iff_mem]
      refine ⟨fun h => congrArg Prod.snd (parameterLengths_unique _ h _ hlisted hopcode.symm), fun h => ?_⟩
      rwa [h, ← hopcode]
    rw [hdecoded, withLength]
    split
    next h => exact .inl ⟨hfits.2 h, c, rfl, hspells h⟩
    next h => exact .inr ⟨Bool.eq_false_iff.2 (mt hfits.1 h), rfl⟩

/-- The length is right for codes of Table 10-2 only. -/
theorem code_of_lengthFits {m : CommandMessage} (h : lengthFits m = true) : 1 ≤ m.opcode.toNat ∧ m.opcode.toNat ≤ 24 := by
  by_cases hcode : m.opcode.toNat = 0x02
  · rw [hcode]
    decide
  · rw [lengthFits, if_neg hcode, List.contains_iff_mem] at h
    exact parameterLengths_codes _ h

/-- A message that is not a command is answered with a code alone, and changes nothing else. -/
theorem commandArrives_refused {s : State} (hs : s.HostReady) {m : CommandMessage} {code : ResultCode}
    (h : ∀ u, runDecoded (decodeCommand m.opcode m.params) u = (u, .refuse code)) :
    Becomes (.next (s.commandArrives m)) (s.respond m.tag { code := code, reason := .none, payload := [] }) := by
  refine ⟨_, rfl, ?_⟩
  rw [State.commandArrives_ready hs, State.takeMessage, h]
  rfl

/-- Settles O8: the opcode is checked first, then the length, and a message that passes both is the command it spells. -/
theorem decodeChecksInOrder : Obligations.DecodeChecksInOrder := by
  intro m s hlength hs done
  have hdone : done = .next (s.commandArrives m) := exec_commandArrival m.tag m.opcode hlength s
  rw [hdone]
  refine ⟨fun hcode => ?_, fun hlow hhigh hunfit => ?_, fun hfits => ?_⟩
  · have hrefused := commandArrives_refused hs (m := m) (code := .unknownCommand) fun u => by
      rw [decodeCommand_of_no_code hcode]
      rfl
    exact ⟨hrefused, hrefused⟩
  · refine commandArrives_refused hs fun u => ?_
    rcases decodeCommand_of_code hlow hhigh with ⟨hfits, -⟩ | ⟨-, hdecoded⟩
    · exact absurd hfits (Bool.eq_false_iff.1 hunfit)
    · rw [hdecoded]
      rfl
  · obtain ⟨hlow, hhigh⟩ := code_of_lengthFits hfits
    rcases decodeCommand_of_code hlow hhigh with ⟨-, c, hdecoded, hopcode, hparams⟩ | ⟨hunfit, -⟩
    · refine ⟨c, hopcode, hparams, ?_⟩
      rw [State.commandArrives_ready hs, State.takeMessage, hdecoded]
      rfl
    · exact absurd hfits (Bool.eq_false_iff.1 hunfit)

end Sys2Proof.Machine
end

section
/-! What a lane's work, the end of a session, a fault, a settlement, a completion or a timeout keeps of the event line and of the
room at the two ports (O55, O56). -/

namespace Sys2Proof.Machine

/-! ## Claims among lock entries (R87, R88) -/

theorem claimTags_append (a b : List LockEntry) : claimTags (a ++ b) = claimTags a ++ claimTags b := List.filterMap_append

/-- A lane's entry carries no claim's tag. -/
theorem claimTags_lane (n : Fin 4) (first count : Nat) :
    claimTags [{ owner := .lane n, first := first, count := count }] = [] := rfl

theorem claimTags_claim (tag : Byte) (first count : Nat) :
    claimTags [{ owner := .claim tag, first := first, count := count }] = [tag] := rfl

theorem claimTags_perm {a b : List LockEntry} (h : a.Perm b) : (claimTags a).Perm (claimTags b) := h.filterMap _

theorem claimTags_sublist {a b : List LockEntry} (h : a.Sublist b) : (claimTags a).Sublist (claimTags b) := h.filterMap _

theorem mem_claimTags {tag : Byte} {entries : List LockEntry} : tag ∈ claimTags entries ↔ ∃ e ∈ entries, e.owner = .claim tag := by
  rw [claimTags, List.mem_filterMap]
  refine exists_congr fun e => and_congr_right fun _ => ?_
  cases e.owner with
  | lane n => simp
  | claim other => simp

/-- What is kept of each claim among entries, and of no lane's entry, is as much as there are claims. -/
theorem length_filterMap_claims {α : Type} (f : LockEntry → Option α) (h : ∀ e, (f e).isSome = e.owner.isClaim)
    (entries : List LockEntry) : (entries.filterMap f).length = (entries.filter fun e => e.owner.isClaim).length := by
  rw [List.length_filterMap_eq_countP, ← List.countP_eq_length_filter]
  exact List.countP_congr fun e _ => by rw [h]

/-- There are as many tags as claims. -/
theorem length_claimTags (entries : List LockEntry) :
    (claimTags entries).length = (entries.filter fun e => e.owner.isClaim).length :=
  length_filterMap_claims _ (fun ⟨owner, _, _⟩ => by cases owner <;> rfl) entries

/-- A grant's fields are kept for claims only (R208). -/
theorem length_grantFields (entries : List LockEntry) :
    (entries.filterMap LockEntry.grantFields).length = (claimTags entries).length := by
  rw [length_claimTags]
  exact length_filterMap_claims _ (fun ⟨owner, _, _⟩ => by cases owner <;> rfl) entries

/-- Every waiting claim is answered at the end or the closing of a session (R106, R107). -/
theorem Slk.length_closingAnswers (k : Slk) (status : RouteStatus) :
    (k.closingAnswers status).length = (claimTags k.waiting).length := by
  rw [length_claimTags]
  exact length_filterMap_claims _ (fun ⟨owner, _, _⟩ => by cases owner <;> rfl) k.waiting

/-- The entries without those of one claim: its tag is gone, and no other. -/
theorem claimTags_drop (tag : Byte) (entries : List LockEntry) :
    claimTags (entries.filter fun e => e.owner != .claim tag) = (claimTags entries).filter (· != tag) := by
  induction entries with
  | nil => rfl
  | cons e rest ih =>
    rw [← List.singleton_append, List.filter_append, claimTags_append, claimTags_append, List.filter_append, ih]
    refine congrArg (· ++ _) ?_
    obtain ⟨owner, first, count⟩ := e
    cases owner with
    | lane n => rfl
    | claim other =>
      by_cases ht : other = tag
      · simp [ht, claimTags]
      · simp [ht, claimTags]

/-! ## From one state to the next -/

/-- The entries of the answer queue that are filled or reserved (R71). -/
def Rtu.taken (r : Rtu) : Nat := r.answers.length + r.reservations

/-- Each waiting claim has its reservation, at most 28 wait, and no two claims share a tag (R73, R88, R93). -/
structure State.ClaimsReserved (s : State) : Prop where
  reserved : s.rtu.reservations = (claimTags s.slk.waiting).length
  few : s.rtu.reservations ≤ 28
  once : (claimTags (s.slk.held ++ s.slk.waiting)).Nodup

theorem State.routeRoom_iff (s : State) : s.RouteRoom ↔ s.ClaimsReserved ∧ s.rtu.requests.length ≤ 32 ∧ s.rtu.taken ≤ 64 ∧
    (s.rtu.requests = [] ∨ s.rtu.taken = 64) :=
  ⟨fun ⟨hrequests, hreserved, hfew, htaken, hwait, honce⟩ => ⟨⟨hreserved, hfew, honce⟩, hrequests, htaken, hwait⟩,
    fun ⟨⟨hreserved, hfew, honce⟩, hrequests, htaken, hwait⟩ => ⟨hrequests, hreserved, hfew, htaken, hwait, honce⟩⟩

/-- The line still follows the event sets; MGP's queues and the request queue are the same, and so is the room in the answer
queue: a reservation that ends has become an answer. -/
structure State.PortsKept (s t : State) : Prop where
  events : EventsOnly s.mgp t.mgp
  line : s.LineFollows → t.LineFollows
  requests : t.rtu.requests = s.rtu.requests
  claims : s.ClaimsReserved → t.ClaimsReserved ∧ t.rtu.taken = s.rtu.taken

theorem State.PortsKept.refl (s : State) : s.PortsKept s := ⟨.refl _, id, rfl, fun h => ⟨h, rfl⟩⟩

theorem State.PortsKept.trans {s t u : State} (h : s.PortsKept t) (h' : t.PortsKept u) : s.PortsKept u where
  events := h.events.trans h'.events
  line := h'.line ∘ h.line
  requests := h'.requests.trans h.requests
  claims hs := ⟨(h'.claims (h.claims hs).1).1, (h'.claims (h.claims hs).1).2.trans (h.claims hs).2⟩

theorem State.PortsKept.foldl {α : Type} {f : State → α → State} (h : ∀ s a, State.PortsKept s (f s a)) (l : List α) (s : State) :
    s.PortsKept (l.foldl f s) := by
  induction l generalizing s with
  | nil => exact .refl s
  | cons a l ih => exact (h s a).trans (ih _)

section Same

variable {s t : State}

/-- RTU and SLK are the same, whatever the events. -/
theorem State.PortsKept.of_events (hevents : EventsOnly s.mgp t.mgp) (hline : s.LineFollows → t.LineFollows) (hrtu : t.rtu = s.rtu)
    (hslk : t.slk = s.slk) : s.PortsKept t := by
  refine ⟨hevents, hline, by rw [hrtu], fun ⟨hreserved, hfew, honce⟩ => ⟨⟨?_, ?_, ?_⟩, by rw [hrtu]⟩⟩
  · rw [hrtu, hslk]; exact hreserved
  · rw [hrtu]; exact hfew
  · rw [hslk]; exact honce

/-- MGP, RTU and SLK are the same. -/
theorem State.PortsKept.of_same (hmgp : t.mgp = s.mgp) (hrtu : t.rtu = s.rtu) (hslk : t.slk = s.slk) : s.PortsKept t := by
  refine .of_events (by rw [hmgp]; exact .refl _) ?_ hrtu hslk
  unfold State.LineFollows
  rw [hmgp]
  exact id

/-- A first step that leaves MGP, RTU and SLK alone. -/
theorem State.PortsKept.behind {v : State} (h : v.PortsKept t) (hmgp : v.mgp = s.mgp) (hrtu : v.rtu = s.rtu)
    (hslk : v.slk = s.slk) : s.PortsKept t := (State.PortsKept.of_same hmgp hrtu hslk).trans h

theorem WorkOnly.ports (h : WorkOnly s t) (hrtu : t.rtu = s.rtu) (hslk : t.slk = s.slk) : s.PortsKept t := by
  obtain ⟨m, o, l, k, a, r, b, e, q, c, rfl⟩ := h
  exact .of_same rfl hrtu hslk

theorem MruOnly.ports (h : MruOnly s t) : s.PortsKept t := by
  obtain ⟨m, o, rfl⟩ := h
  exact .of_same rfl rfl rfl

end Same

/-! ## Events and the session state (R199, R201) -/

theorem State.setEvent_ports (e : Event) (s : State) : s.PortsKept (s.setEvent e) :=
  .of_events (Mgp.setEvent_only e _) (fun _ => rfl) rfl rfl

theorem State.changeState_ports (st : SessionState) (s : State) : s.PortsKept (s.changeState st) :=
  .of_events (Mgp.setEvent_only _ _) (fun _ => rfl) rfl rfl

theorem State.complete_ports (s : State) : s.PortsKept s.complete := (s.changeState_ports _).trans (State.setEvent_ports _ _)

theorem State.completeOr_ports (st : SessionState) (s : State) : s.PortsKept (s.completeOr st) := by
  unfold State.completeOr
  split
  · exact s.complete_ports
  · exact s.changeState_ports _

theorem State.drainingExit_ports (s : State) : s.PortsKept s.drainingExit := by
  unfold State.drainingExit
  split
  · exact s.completeOr_ports _
  · exact .refl s

theorem State.steppingExit_ports (s : State) : s.PortsKept s.steppingExit := by
  unfold State.steppingExit
  split
  · exact (s.setEvent_ports _).trans (State.completeOr_ports _ _)
  · exact .refl s

theorem State.completionTest_ports (s : State) : s.PortsKept s.completionTest := by
  unfold State.completionTest
  split
  · split
    · exact s.complete_ports
    · exact .refl s
  · exact s.drainingExit_ports
  · exact s.steppingExit_ports
  · exact .refl s

theorem State.suspendedExit_ports (s : State) : s.PortsKept s.suspendedExit := by
  unfold State.suspendedExit
  split
  · split
    · exact s.complete_ports
    · exact s.changeState_ports _
  · exact .refl s

/-! ## SLK (R91, R95, R101) -/

section Locks

variable {s : State}

/-- A reservation that a scan ends has become the answer to its claim, which is now held (R91, R95). -/
theorem State.scanLocks_ports (s : State) : s.PortsKept s.scanLocks := by
  obtain ⟨granted, hruns, hgranted⟩ := s.scanLocks_scanned
  obtain ⟨written, hwritten, hfields, -⟩ := hgranted.answers
  have hheld := hgranted.held
  have hreservations := hgranted.reservations
  have hsplit := claimTags_perm hruns.perm
  obtain ⟨m, o, l, k, a, r, ht⟩ := hgranted.lanes.only
  rw [ht] at hruns hwritten hheld hreservations hsplit ⊢
  simp only [List.nil_append, claimTags_append] at hsplit
  rw [← length_claimTags] at hreservations
  have hcount := hsplit.length_eq
  have hlength : written.length = (claimTags granted).length := by
    rw [← length_grantFields, ← hfields, List.length_map]
  rw [List.length_append] at hcount
  refine ⟨.refl _, id, rfl, fun ⟨hreserved, hfew, honce⟩ => ⟨⟨?_, ?_, ?_⟩, ?_⟩⟩
  · show r = (claimTags k.waiting).length
    simp only at hreservations
    omega
  · show r ≤ 28
    simp only at hreservations
    omega
  · show (claimTags (k.held ++ k.waiting)).Nodup
    simp only at hheld
    rw [hheld, List.append_assoc, claimTags_append, claimTags_append]
    rw [claimTags_append] at honce
    exact (hsplit.append_left _).nodup_iff.2 honce
  · show a.length + r = s.rtu.answers.length + s.rtu.reservations
    simp only at hreservations hwritten
    rw [hwritten, List.length_append]
    omega

/-- A lane's entry joins the held table or the wait list. -/
theorem State.updSlk_ports {f : Slk → Slk} (hwaiting : claimTags (f s.slk).waiting = claimTags s.slk.waiting)
    (hheld : (claimTags (f s.slk).held).Sublist (claimTags s.slk.held)) : s.PortsKept (s.updSlk f) := by
  refine ⟨.refl _, id, rfl, fun ⟨hreserved, hfew, honce⟩ => ⟨⟨?_, hfew, ?_⟩, rfl⟩⟩
  · exact hreserved.trans (congrArg List.length hwaiting).symm
  · show (claimTags ((f s.slk).held ++ (f s.slk).waiting)).Nodup
    rw [claimTags_append, hwaiting]
    rw [claimTags_append] at honce
    exact honce.sublist (hheld.append_right _)

theorem State.enterReading_ports (n : Fin 4) (s : State) : s.PortsKept (s.enterReading n) :=
  (s.enterReading_only n).work.ports (s.enterReading_locks n).2 (s.enterReading_locks n).1

theorem State.enterWriting_ports (n : Fin 4) (results : List StripeResult) (s : State) :
    s.PortsKept (s.enterWriting n results) := by
  unfold State.enterWriting
  split
  · exact .refl s
  · exact (State.submitAll_only _ _).ports.behind rfl rfl rfl

theorem State.requestLaneLock_ports (n : Fin 4) (s : State) : s.PortsKept (s.requestLaneLock n) := by
  unfold State.requestLaneLock
  split
  · exact .refl s
  · rename_i b _
    simp only
    split
    · refine State.PortsKept.trans (State.updSlk_ports rfl ?_) (State.enterReading_ports n _)
      rw [claimTags_append, claimTags_lane, List.append_nil]
    · refine State.updSlk_ports ?_ (.refl _)
      rw [claimTags_append, claimTags_lane, List.append_nil]

theorem State.dropHeld_ports (o : LockOwner) (s : State) : s.PortsKept (s.dropHeld o) :=
  State.updSlk_ports rfl (claimTags_sublist List.filter_sublist)

/-- SLK's collections are emptied, and each waiting claim is answered through its reservation (R106, R107). -/
theorem State.emptyLocks_ports (status : RouteStatus) (s : State) : s.PortsKept (s.emptyLocks status) := by
  refine ⟨.refl _, id, rfl, fun ⟨hreserved, _, _⟩ => ⟨⟨rfl, Nat.zero_le _, List.nodup_nil⟩, ?_⟩⟩
  show (s.rtu.answers ++ s.slk.closingAnswers status).length + 0 = s.rtu.answers.length + s.rtu.reservations
  rw [List.length_append, Slk.length_closingAnswers, hreserved, Nat.add_zero]

end Locks

/-! ## Buffers, assignment and qualification -/

theorem State.beginAttempt_ports (q : QualProgress) (s : State) : s.PortsKept (s.beginAttempt q) := by
  unfold State.beginAttempt
  split
  · exact .of_same rfl rfl rfl
  · exact (State.submit_only _ _).ports.behind rfl rfl rfl

theorem State.beginReadBack_ports (q : QualProgress) (s : State) : s.PortsKept (s.beginReadBack q) := by
  unfold State.beginReadBack
  split
  · exact .of_same rfl rfl rfl
  · exact (State.submit_only _ _).ports.behind rfl rfl rfl

theorem State.resumeHeldStep_ports (s : State) : s.PortsKept s.resumeHeldStep := by
  unfold State.resumeHeldStep
  split
  · exact .refl s
  · split
    · exact .refl s
    · exact s.beginAttempt_ports _
    · exact s.beginReadBack_ports _

theorem State.grantBuffers_ports (r : BufRequest) (s : State) : s.PortsKept (s.grantBuffers r) := by
  unfold State.grantBuffers State.grantSet
  split
  · exact (State.requestLaneLock_ports _ _).behind rfl rfl rfl
  · simp only
    split
    · exact .of_same rfl rfl rfl
    · exact (State.beginAttempt_ports _ _).behind rfl rfl rfl

theorem State.requestBuffers_ports (r : BufRequest) (s : State) : s.PortsKept (s.requestBuffers r) := by
  unfold State.requestBuffers
  split
  · exact s.grantBuffers_ports r
  · exact .of_same rfl rfl rfl

theorem State.scanBuffersFrom_ports (l : List BufRequest) (s : State) : s.PortsKept (State.scanBuffersFrom l s) := by
  induction l generalizing s with
  | nil => exact .refl s
  | cons r rest ih =>
    simp only [State.scanBuffersFrom]
    split
    · exact ((State.grantBuffers_ports r _).trans (ih _)).behind rfl rfl rfl
    · exact .refl s

theorem State.scanBuffers_ports (s : State) : s.PortsKept s.scanBuffers := State.scanBuffersFrom_ports _ s

theorem State.serveLane_ports {n : Fin 4} {s t : State} (h : s.serveLane n = some t) : s.PortsKept t := by
  unfold State.serveLane at h
  obtain ⟨x, -, rfl⟩ := Option.map_eq_some_iff.1 h
  exact (State.requestBuffers_ports _ _).behind rfl rfl rfl

theorem State.passOver_ports (l : List (Fin 4)) (s : State) : s.PortsKept (State.passOver l s) := by
  induction l generalizing s with
  | nil => exact .refl s
  | cons n rest ih =>
    simp only [State.passOver]
    split
    · split
      · exact .refl s
      · rename_i h
        exact (State.serveLane_ports h).trans (ih _)
    · exact ih _

theorem State.stepPass_ports (s : State) : s.PortsKept s.stepPass := by
  unfold State.stepPass
  split
  · cases h : s.serveLane 0 with
    | none => exact .refl s
    | some t => exact State.serveLane_ports h
  · exact .refl s

/-! ## Records and the end of a batch (R125 to R129, R177 to R182) -/

theorem State.offer_ports (r : Record) (s : State) : s.PortsKept (s.offer r).1 := by
  unfold State.offer
  split
  · exact (State.setEvent_ports _ _).behind rfl rfl rfl
  · exact s.setEvent_ports _

theorem State.retire_ports (stripe : Nat) (s : State) : s.PortsKept (s.retire stripe).1 := by
  unfold State.retire
  split
  · exact .of_same rfl rfl rfl
  · exact .refl s

theorem State.retireAll_ports (l : List Nat) (s : State) : s.PortsKept (State.retireAll l s).1 := by
  induction l generalizing s with
  | nil => exact .refl s
  | cons stripe rest ih => exact (s.retire_ports stripe).trans (ih _)

theorem State.offerAll_ports (n : Fin 4) (l : List Nat) (s : State) : s.PortsKept (State.offerAll n l s).1 := by
  induction l generalizing s with
  | nil => exact .refl s
  | cons stripe rest ih =>
    have h := s.offer_ports (s.lanes[n].recordOf stripe)
    simp only [State.offerAll]
    split
    · exact h.trans ((ih _).behind rfl rfl rfl)
    · exact h

theorem State.offerAll_ports_of_eq {n : Fin 4} {l : List Nat} {s t : State} {accepted : Bool}
    (h : State.offerAll n l s = (t, accepted)) : s.PortsKept t := by
  have hkept := State.offerAll_ports n l s
  rwa [h] at hkept

theorem State.reportBatch_ports (b : Batch) (s : State) : s.PortsKept (s.reportBatch b) := by
  rw [State.reportBatch_eq]
  exact .of_same rfl rfl rfl

theorem State.passAfterBatch_ports (n : Fin 4) (returned : Bool) (s : State) : s.PortsKept (s.passAfterBatch n returned) := by
  unfold State.passAfterBatch
  split
  · split
    · exact State.passOver_ports _ s
    · exact State.passOver_ports _ s
  · exact .refl s

/-- Steps 1 to 4 of R129: the lane's lock is given up, and both wait lists are scanned. -/
theorem State.laneCleared_ports (n : Fin 4) (s : State) : s.PortsKept (s.laneCleared n) := by
  have locks : s.PortsKept (s.giveUpBatch n).scanLocks :=
    ((State.dropHeld_ports (.lane n) _).trans (State.scanLocks_ports _)).behind rfl rfl rfl
  have buffers : s.PortsKept ((s.giveUpBatch n).scanLocks.giveUpBuffers n).scanBuffers :=
    locks.trans ((State.scanBuffers_ports _).behind rfl rfl rfl)
  exact buffers.trans (.of_same rfl rfl rfl)

theorem State.endBatch_ports (n : Fin 4) (s : State) : s.PortsKept (s.endBatch n) := by
  cases hb : s.lanes[n].batch with
  | none =>
    rw [State.endBatch, hb]
    exact .refl s
  | some b =>
    rw [State.endBatch_eq hb]
    have reported := (s.laneCleared_ports n).trans (State.reportBatch_ports b _)
    have tested := (reported.trans (State.completionTest_ports _)).trans (State.suspendedExit_ports _)
    exact tested.trans (State.passAfterBatch_ports _ _ _)

theorem State.enterHolding_ports (n : Fin 4) (s : State) : s.PortsKept (s.enterHolding n) := by
  unfold State.enterHolding
  simp only
  split
  · exact (State.changeState_ports _ _).behind rfl rfl rfl
  · exact .of_same rfl rfl rfl

theorem State.enterSettling_ports (n : Fin 4) (s : State) : s.PortsKept (s.enterSettling n) := by
  have settling : s.PortsKept (s.settling n) := .of_same rfl rfl rfl
  obtain ⟨v, accepted, hall⟩ : ∃ v a, State.offerAll n s.lanes[n].firstOffers (s.settling n) = (v, a) := ⟨_, _, rfl⟩
  have offered := settling.trans (State.offerAll_ports_of_eq hall)
  cases accepted with
  | true =>
    rw [State.enterSettling_of_accepted hall]
    exact offered.trans (v.endBatch_ports n)
  | false =>
    rw [State.enterSettling_of_refused hall]
    exact offered.trans (v.enterHolding_ports n)

theorem State.serveHolders_ports (l : List (Fin 4)) (s : State) : s.PortsKept (State.serveHolders l s) := by
  induction l generalizing s with
  | nil => exact .refl s
  | cons n rest ih =>
    simp only [State.serveHolders]
    split
    · rename_i t hoffers
      have ended : t.PortsKept (({ t with holdingOrder := rest } : State).endBatch n) :=
        (State.endBatch_ports n _).behind rfl rfl rfl
      exact ((State.offerAll_ports_of_eq hoffers).trans ended).trans (ih _)
    · rename_i hoffers
      exact State.offerAll_ports_of_eq hoffers

theorem State.afterRetirement_ports (s : State) : s.PortsKept s.afterRetirement := State.serveHolders_ports _ s

/-! ## The end of a session and faults (R36 to R40) -/

theorem State.abandonAll_ports (s : State) : s.PortsKept s.abandonAll := by
  rw [s.abandonAll_abandoned.only]
  exact .of_same rfl rfl rfl

theorem State.endSession_ports (new : SessionState) (cause : Cause) (s : State) : s.PortsKept (s.endSession new cause) := by
  have emptied := s.abandonAll_ports.trans (State.emptyLocks_ports .spareVoid _)
  exact emptied.trans ((State.changeState_ports new _).behind rfl rfl rfl)

theorem State.faultLane_ports (x : Nat) (s : State) (n : Fin 4) : s.PortsKept (s.faultLane x n) := by
  unfold State.faultLane
  split
  · simp only
    split
    · exact .of_same rfl rfl rfl
    · exact .of_same rfl rfl rfl
  · exact .of_same rfl rfl rfl
  · exact .refl s

theorem State.markFaulted_ports (x : Nat) (s : State) : s.PortsKept (s.markFaulted x) :=
  (State.setEvent_ports _ _).behind rfl rfl rfl

theorem State.firstFault_ports (x : Nat) (s : State) : s.PortsKept (s.firstFault x) := by
  have marked : s.PortsKept ((s.markFaulted x).updSes fun e => { e with faultedSurvivor := some x }) :=
    (s.markFaulted_ports x).trans (.of_same rfl rfl rfl)
  exact (marked.trans (State.clearPosition_only x _).ports).trans (State.PortsKept.foldl (State.faultLane_ports x) allLanes _)

theorem State.takeFault_ports (x : Nat) (s : State) : s.PortsKept (s.takeFault x) := by
  unfold State.takeFault
  split
  · exact .refl s
  · split
    · exact .refl s
    · exact .refl s
    · exact s.endSession_ports _ _
    · split
      · exact s.firstFault_ports x
      · exact (s.markFaulted_ports x).trans (State.endSession_ports _ _ _)

/-! ## RCD and settlements (R25 to R27, R118, R123, R161) -/

theorem State.takeBlock_ports (n : Fin 4) (s : State) : s.PortsKept (s.takeBlock n) := by
  unfold State.takeBlock
  split
  · simp only
    split
    · exact .of_same rfl rfl rfl
    · exact (State.enterWriting_ports n _ _).behind rfl rfl rfl
  · exact .refl s

theorem State.settleRead_ports (n : Fin 4) (r : Request) (o : Settlement) (s : State) : s.PortsKept (s.settleRead n r o) := by
  unfold State.settleRead
  split
  · simp only
    split
    · exact .of_same rfl rfl rfl
    · exact .of_same rfl rfl rfl
  · exact .refl s

theorem State.settleWrite_ports (n : Fin 4) (s : State) : s.PortsKept (s.settleWrite n) := by
  unfold State.settleWrite
  split
  · simp only
    split
    · exact (State.enterSettling_ports n _).behind rfl rfl rfl
    · exact .of_same rfl rfl rfl
  · exact .refl s

theorem State.finishQualification_ports (s : State) : s.PortsKept s.finishQualification := by
  have scanned : s.PortsKept
      ((s.returnSet s.ses.qualSet).updSes fun e => { e with qualSet := [], qualProgress := none }).scanBuffers :=
    (State.scanBuffers_ports _).behind rfl rfl rfl
  exact (scanned.trans (State.changeState_ports _ _)).trans (State.setEvent_ports _ _)

theorem State.attemptOutcome_ports (q : QualProgress) (passed : Bool) (s : State) : s.PortsKept (s.attemptOutcome q passed) := by
  unfold State.attemptOutcome
  split
  · split
    · exact s.beginAttempt_ports _
    · exact s.finishQualification_ports
  · split
    · exact s.beginAttempt_ports _
    · exact s.endSession_ports _ _

theorem State.settleQualification_ports (o : Settlement) (s : State) : s.PortsKept (s.settleQualification o) := by
  unfold State.settleQualification
  split
  · exact .refl s
  · split
    · exact .refl s
    · exact s.beginReadBack_ports _
    · exact s.attemptOutcome_ports _ _

/-- Whoever a settlement is reported to. -/
theorem State.settle_ports (r : Request) (o : Settlement) (s : State) : s.PortsKept (s.settle r o) := by
  unfold State.settle
  split
  · exact .refl s
  · exact s.settleQualification_ports o
  · split
    · exact s.settleWrite_ports _
    · exact s.settleRead_ports _ _ _

/-! ## Completions and timeouts (R142 to R152) -/

theorem State.endWith_ports {report : State → State} (h : ∀ s : State, s.PortsKept (report s)) (x : Nat) (s : State) :
    s.PortsKept (s.endWith x report) :=
  (h s).trans ((State.serveTagWait_only _).trans (State.decideAfterFree_only x _)).ports

theorem State.completeRequest_ports (r : Request) (status : CompletionStatus) (mask : Mask) (s : State) :
    s.PortsKept (s.completeRequest r status mask) := by
  have settles (o : Settlement) (u : State) : u.PortsKept (u.endWith r.position (State.settle r o)) :=
    State.endWith_ports (State.settle_ports r o) _ u
  have fails (u : State) : u.PortsKept (u.endWith r.position (State.endSession .failed .spareUnwritable)) :=
    State.endWith_ports (State.endSession_ports _ _) _ u
  have resent (again : Request) (u : State) : u.PortsKept ((u.requeueHead again).issueDecision r.position) :=
    ((u.requeueHead_only again).trans (State.issueDecision_only _ _)).ports
  have counted : s.PortsKept (s.setTimeouts r.position 0) := (s.setTimeouts_only _ _).ports
  cases status with
  | good => exact counted.trans (settles .good _)
  | medium =>
    simp only [State.completeRequest, State.completeMedium]
    split
    · exact counted.trans (settles _ _)
    · split
      · exact counted.trans (fails _)
      · exact counted.trans (resent _ _)
  | defer =>
    simp only [State.completeRequest, State.completeDefer]
    split
    · exact resent _ s
    · split
      · exact fails s
      · exact settles _ s
  | lost =>
    simp only [State.completeRequest, State.completeLost]
    exact (s.serveTagWait_only.ports.trans (State.takeFault_ports _ _)).trans (State.decideAfterFree_only _ _).ports

theorem State.endQuarantine_ports (tag : Nat) (s : State) : s.PortsKept (s.endQuarantine tag) := by
  have told : s.PortsKept (s.removeQuarantined tag).reportQuarantineEnd :=
    ((State.scanBuffers_ports _).trans (State.resumeHeldStep_ports _)).behind rfl rfl rfl
  exact told.trans ((State.serveTagWait_only _).trans (State.decideAll_only _)).ports

theorem State.landData_ports (r : Request) (data : List Byte) (s : State) : s.PortsKept (s.landData r data) := by
  unfold State.landData
  split
  · exact .refl s
  · exact .of_same rfl rfl rfl

theorem State.takeCompletion_ports (tag : Nat) (status : Byte) (mask : Mask) (data : List Byte) (s : State) :
    s.PortsKept (s.takeCompletion tag status mask data) := by
  unfold State.takeCompletion
  split
  · exact .refl s
  · split
    · exact ((s.landData_ports _ data).trans (State.leaveOutstanding_only _ _ _).ports).trans (State.completeRequest_ports _ _ _ _)
    · split
      · exact (s.landData_ports _ data).trans (State.endQuarantine_ports _ _)
      · exact .refl s

theorem State.serveTimedOut_ports (r : Request) (s : State) : s.PortsKept (s.serveTimedOut r) := by
  unfold State.serveTimedOut
  split
  · exact (s.requeueHead_only _).ports
  · exact s.settle_ports r _

theorem State.timeOut_ports (r : Request) (tag : Nat) (s : State) : s.PortsKept (s.timeOut r tag) := by
  have counted : s.PortsKept ((((s.leaveOutstanding r.position tag).updMru fun m =>
      { m with quarantined := m.quarantined ++ [r.quarantine (s.now + m.timeout)] }).setEvent .memberTimeout).setTimeouts r.position
        (min 3 ((s.mru.pos r.position).timeouts + 1))) :=
    ((State.setEvent_ports .memberTimeout _).trans (State.setTimeouts_only _ _ _).ports).behind rfl rfl rfl
  unfold State.timeOut
  dsimp only
  refine State.PortsKept.trans ?_ (State.issueDecision_only _ _).ports
  split
  · exact counted.trans (State.serveTimedOut_ports r _)
  · exact counted.trans (State.takeFault_ports r.position _)

end Sys2Proof.Machine
end

section
/-! What each command, each port and each event of time keeps of the event line and of the room at the two ports, and so what a step
keeps (O55, O56). -/

namespace Sys2Proof.Machine

/-- What O55 and O56 say of a step: the line still follows the event sets, and both ports still have their room. -/
structure State.PortsHold (s t : State) : Prop where
  line : s.LineFollows → t.LineFollows
  host : s.HostQueuesFit → t.HostQueuesFit
  route : s.RouteRoom → t.RouteRoom

section Hold

variable {s t : State}

/-- MGP's queues are the same. -/
theorem State.HostQueuesFit.of_same (h : s.HostQueuesFit) (hcommands : t.mgp.commands = s.mgp.commands)
    (hresponses : t.mgp.responses = s.mgp.responses) : t.HostQueuesFit := by
  rw [State.HostQueuesFit, hcommands, hresponses]
  exact h

theorem State.HostQueuesFit.of_events (h : s.HostQueuesFit) (hevents : EventsOnly s.mgp t.mgp) : t.HostQueuesFit := by
  obtain ⟨status, line, hmgp⟩ := hevents
  exact h.of_same (by rw [hmgp]) (by rw [hmgp])

/-- The same requests wait, and the same room is left for their answers. -/
theorem State.RouteRoom.of_kept (h : s.RouteRoom) (hrequests : t.rtu.requests = s.rtu.requests)
    (hclaims : s.ClaimsReserved → t.ClaimsReserved ∧ t.rtu.taken = s.rtu.taken) : t.RouteRoom := by
  obtain ⟨hreserved, hlength, htaken, hwait⟩ := s.routeRoom_iff.1 h
  obtain ⟨hreserved', htaken'⟩ := hclaims hreserved
  refine t.routeRoom_iff.2 ⟨hreserved', ?_⟩
  rw [hrequests, htaken']
  exact ⟨hlength, htaken, hwait⟩

theorem State.PortsKept.hold (h : s.PortsKept t) : s.PortsHold t :=
  ⟨h.line, fun hs => hs.of_events h.events, fun hs => hs.of_kept h.requests h.claims⟩

/-- MGP alone has changed, and not its queues. -/
theorem State.PortsHold.of_mgp {m : Mgp} (hline : s.LineFollows → ({ s with mgp := m } : State).LineFollows)
    (hcommands : m.commands = s.mgp.commands) (hresponses : m.responses = s.mgp.responses) :
    s.PortsHold { s with mgp := m } := ⟨hline, fun hs => hs.of_same hcommands hresponses, id⟩

end Hold

/-! ## The commands (Table 10-2) -/

section Commands

variable (s : State)

theorem takeSetGeometry_ports (n l t rs k : Nat) : s.PortsKept (takeSetGeometry n l t rs k s).1 := by
  unfold takeSetGeometry
  dsimp only
  split
  · exact .refl s
  · split
    · exact .of_same rfl rfl rfl
    · exact .refl s

theorem takeSetSegments_ports (x f : Nat) (elements : List SegmentElement) : s.PortsKept (takeSetSegments x f elements s).1 := by
  unfold takeSetSegments
  split
  · exact .refl s
  · split
    · exact .refl s
    · split
      · exact .refl s
      · split
        · exact .refl s
        · split
          · exact .refl s
          · dsimp only
            split
            · exact .refl s
            · exact .of_same rfl rfl rfl

theorem takeOpenSession_ports (f b lanes fill start aq kq skipQual : Nat) :
    s.PortsKept (takeOpenSession f b lanes fill start aq kq skipQual s).1 := by
  unfold takeOpenSession
  split
  · exact .refl s
  · split
    · exact .refl s
    · exact .refl s
    · rename_i p kind _ _
      split
      · exact .refl s
      · have opened (st : SessionState) (skip : Bool) :
            s.PortsKept ((((s.updSes fun _ => Ses.opened p.n f b lanes kind aq kq skip).updRgt
              (Rgt.build p start)).zeroTimeouts).changeState st) := (State.changeState_ports st _).behind rfl rfl rfl
        dsimp only
        split
        · exact .refl s
        · split
          · exact opened _ _
          · exact (opened _ _).trans (State.requestBuffers_ports _ _)

theorem takeStart_ports : s.PortsKept (takeStart s).1 := by
  unfold takeStart
  split
  · exact (s.changeState_ports _).trans (State.passOver_ports _ _)
  · exact .refl s

theorem takePause_ports : s.PortsKept (takePause s).1 := by
  unfold takePause
  split
  · exact (s.changeState_ports _).trans (State.drainingExit_ports _)
  · exact .refl s

theorem takeResume_ports : s.PortsKept (takeResume s).1 := by
  unfold takeResume
  split
  · exact (s.changeState_ports _).trans (State.passOver_ports _ _)
  · exact .refl s

theorem takeStep_ports : s.PortsKept (takeStep s).1 := by
  unfold takeStep
  split
  · exact ((s.changeState_ports _).trans (State.stepPass_ports _)).trans (State.steppingExit_ports _)
  · exact .refl s

theorem takeAbort_ports : s.PortsKept (takeAbort s).1 := by
  unfold takeAbort
  split
  · exact s.endSession_ports _ _
  · exact .refl s

theorem takeCloseSession_ports : s.PortsKept (takeCloseSession s).1 := by
  unfold takeCloseSession
  split
  · exact (s.emptyLocks_ports .noSession).trans ((State.setEvent_ports _ _).behind rfl rfl rfl)
  · exact .refl s

theorem takePromote_ports (n : Nat) : s.PortsKept (takePromote n s).1 := by
  cases h : s.reorderProblem n with
  | none =>
    rw [takePromote_of_stale h]
    exact .of_same rfl rfl rfl
  | some reply =>
    rw [(reorder_of_problem h).1]
    exact .refl s

theorem takeDemote_ports (n : Nat) : s.PortsKept (takeDemote n s).1 := by
  cases h : s.reorderProblem n with
  | none =>
    rw [takeDemote_of_stale h]
    exact .of_same rfl rfl rfl
  | some reply =>
    rw [(reorder_of_problem h).2]
    exact .refl s

theorem takeMemberDown_ports (x : Nat) : s.PortsKept (takeMemberDown x s).1 := by
  unfold takeMemberDown
  split
  · exact .refl s
  · split
    · exact .refl s
    · exact s.takeFault_ports x

theorem takeSetPace_ports (w window : Nat) : s.PortsKept (takeSetPace w window s).1 := by
  simp only [takeSetPace]
  exact ((s.updMru_only _).trans (State.decideAll_only _)).ports

theorem takeSetTimeout_ports (ms : Nat) : s.PortsKept (takeSetTimeout ms s).1 := .of_same rfl rfl rfl

theorem takeSetHeat_ports (h : Nat) : s.PortsKept (takeSetHeat h s).1 := .of_same rfl rfl rfl

theorem takeSetLanes_ports (count : Nat) : s.PortsKept (takeSetLanes count s).1 := by
  unfold takeSetLanes
  dsimp only
  split
  · exact (State.passOver_ports _ _).behind rfl rfl rfl
  · exact .of_same rfl rfl rfl

theorem takeSetCheck_ports (setting : Nat) : s.PortsKept (takeSetCheck setting s).1 := by
  unfold takeSetCheck
  split
  · exact .refl s
  · split
    · exact .refl s
    · exact .of_same rfl rfl rfl

theorem takeGetRegion_ports (region : Nat) : s.PortsKept (takeGetRegion region s).1 := by
  unfold takeGetRegion
  split
  · exact .refl s
  · split <;> exact .refl s

theorem takeListRecords_ports (first maxCount : Nat) : s.PortsKept (takeListRecords first maxCount s).1 := by
  unfold takeListRecords
  split
  · exact .refl s
  · split <;> exact .refl s

theorem takeForgive_ports (stripe : Nat) : s.PortsKept (takeForgive stripe s).1 := by
  unfold takeForgive
  split
  · exact .refl s
  · split
    · exact .refl s
    · split
      · exact .refl s
      · split
        · exact .refl s
        · exact (s.retire_ports stripe).trans (State.afterRetirement_ports _)

theorem State.setEnables_hold (set : EventSet) : s.PortsHold (s.updMgp (Mgp.setEnables set)) := .of_mgp (fun _ => rfl) rfl rfl

theorem State.ackEvents_hold (set : EventSet) : s.PortsHold (s.updMgp (Mgp.ackEvents set)) := .of_mgp (fun _ => rfl) rfl rfl

/-- RESET_ENGINE keeps MGP's queues, empties RTU and SLK, and lets the line follow the new status set (R42). -/
theorem takeResetEngine_hold : s.PortsHold (takeResetEngine s).1 := by
  obtain ⟨-, -, -, hcommands, hresponses⟩ := runCommand_only .resetEngine s
  refine ⟨fun _ => ?_, fun hs => hs.of_same hcommands hresponses, fun _ => ?_⟩
  all_goals
    rw [takeResetEngine]
    generalize s.abandonAll.zeroTimeouts.forgetSession = u
  · rfl
  · exact ⟨Nat.zero_le _, rfl, Nat.zero_le _, Nat.zero_le _, .inl rfl, List.nodup_nil⟩

/-- Every command of Table 10-2. -/
theorem runCommand_hold (c : HostCommand) : s.PortsHold (runCommand c s).1 := by
  cases c with
  | setGeometry n l t rs k => exact (takeSetGeometry_ports s n l t rs k).hold
  | setSegments position first elements => exact (takeSetSegments_ports s position first elements).hold
  | openSession f b lanes fill startRegion aq kq skipQual =>
    exact (takeOpenSession_ports s f b lanes fill startRegion aq kq skipQual).hold
  | start => exact (takeStart_ports s).hold
  | pause => exact (takePause_ports s).hold
  | resume => exact (takeResume_ports s).hold
  | step => exact (takeStep_ports s).hold
  | abort => exact (takeAbort_ports s).hold
  | closeSession => exact (takeCloseSession_ports s).hold
  | promote region => exact (takePromote_ports s region).hold
  | demote region => exact (takeDemote_ports s region).hold
  | memberDown position => exact (takeMemberDown_ports s position).hold
  | setPace w window => exact (takeSetPace_ports s w window).hold
  | setTimeout ms => exact (takeSetTimeout_ports s ms).hold
  | setHeat h => exact (takeSetHeat_ports s h).hold
  | setLanes count => exact (takeSetLanes_ports s count).hold
  | setCheck setting => exact (takeSetCheck_ports s setting).hold
  | setEventEnables events => exact s.setEnables_hold (eventSetOf events)
  | ackEvents events => exact s.ackEvents_hold (eventSetOf events)
  | getStatus => exact (State.PortsKept.refl s).hold
  | getRegion region => exact (takeGetRegion_ports s region).hold
  | listRecords first maxCount => exact (takeListRecords_ports s first maxCount).hold
  | forgive stripe => exact (takeForgive_ports s stripe).hold
  | resetEngine => exact takeResetEngine_hold s

end Commands

/-! ## The Management Port (R191 to R193) -/

/-- A response joins its queue, and nothing else changes. -/
theorem State.takeMessage_ports (m : CommandMessage) (s : State) :
    (s.LineFollows → (s.takeMessage m).LineFollows) ∧ (s.RouteRoom → (s.takeMessage m).RouteRoom) := by
  have run : s.PortsHold (runDecoded (decodeCommand m.opcode m.params) s).1 := by
    cases decodeCommand m.opcode m.params with
    | unknown => exact (State.PortsKept.refl s).hold
    | badLength => exact (State.PortsKept.refl s).hold
    | command c => exact runCommand_hold s c
  exact ⟨run.line, run.route⟩

/-- MGP takes commands until none waits or no response has room. -/
theorem State.takeCommands_ports (commands : List CommandMessage) {s : State} (h : s.mgp.commands = commands) :
    (s.LineFollows → s.takeCommands.LineFollows) ∧ (s.RouteRoom → s.takeCommands.RouteRoom) ∧
      (commands.length ≤ 16 → s.mgp.responses.length ≤ 16 → s.takeCommands.HostQueuesFit) := by
  induction commands generalizing s with
  | nil =>
    rw [State.takeCommands_of_nil h]
    exact ⟨id, id, fun _ hr => ⟨by rw [h]; exact Nat.zero_le _, hr, .inl h⟩⟩
  | cons m rest ih =>
    rcases Nat.lt_or_ge s.mgp.responses.length 16 with hroom | hfull
    · rw [State.takeCommands_of_cons h hroom]
      obtain ⟨hrest, hresponses⟩ := ({ s with mgp := { s.mgp with commands := rest } } : State).takeMessage_responded m
      obtain ⟨hline, hroute⟩ := ({ s with mgp := { s.mgp with commands := rest } } : State).takeMessage_ports m
      obtain ⟨hlines, hroutes, hfits⟩ := ih hrest
      refine ⟨hlines ∘ hline, hroutes ∘ hroute, fun hc _ => hfits (Nat.le_of_succ_le hc) ?_⟩
      rw [hresponses, List.length_append, List.length_singleton]
      exact hroom
    · rw [State.takeCommands_of_no_room hfull]
      exact ⟨id, id, fun hc hr => ⟨h ▸ hc, hr, .inr (Nat.le_antisymm hr hfull)⟩⟩

theorem State.commandArrives_hold (m : CommandMessage) (s : State) : s.PortsHold (s.commandArrives m) := by
  rw [State.commandArrives]
  rcases Nat.lt_or_ge s.mgp.commands.length 16 with hroom | hfull
  · rw [State.queueCommand_of_room (s := s.beginEvent) hroom]
    obtain ⟨hline, hroute, hfits⟩ := State.takeCommands_ports _
      (s := { s.beginEvent with mgp := { s.mgp with commands := s.mgp.commands ++ [m] } }) rfl
    refine ⟨hline, fun ⟨_, hr, _⟩ => hfits ?_ hr, hroute⟩
    rw [List.length_append, List.length_singleton]
    exact hroom
  · rw [State.queueCommand_of_full (s := s.beginEvent) hfull]
    obtain ⟨hline, hroute, hfits⟩ := State.takeCommands_ports _ (s := s.beginEvent.noting (Event.bit .commandOverrun)) rfl
    exact ⟨fun _ => hline rfl, fun ⟨hc, hr, _⟩ => hfits hc hr, hroute⟩

theorem State.readResponse_hold (s : State) : s.PortsHold s.readResponse := by
  unfold State.readResponse
  split
  · exact (State.PortsKept.of_same (s := s) (t := s.emit (.response emptyResponse)) rfl rfl rfl).hold
  · rename_i r rest h
    obtain ⟨hline, hroute, hfits⟩ := State.takeCommands_ports s.mgp.commands
      (s := (s.updMgp fun m => { m with responses := rest }).emit (.response r.bytes)) rfl
    refine ⟨hline, fun ⟨hc, hr, _⟩ => hfits hc ?_, hroute⟩
    rw [h] at hr
    exact Nat.le_of_succ_le hr

/-! ## The Route Port (R70 to R72, R93 to R99, R207) -/

/-- What RTU's taking of one request keeps, beside the rest of the request queue: at most one more entry of the answer queue is
filled or reserved. -/
structure State.PortsServed (s t : State) : Prop where
  events : EventsOnly s.mgp t.mgp
  line : s.LineFollows → t.LineFollows
  requests : t.rtu.requests = s.rtu.requests
  claims : s.ClaimsReserved → t.ClaimsReserved ∧ t.rtu.taken ≤ s.rtu.taken + 1

section Served

variable {s t u : State}

theorem State.PortsKept.serves (h : s.PortsKept t) : s.PortsServed t :=
  ⟨h.events, h.line, h.requests, fun hs => ⟨(h.claims hs).1, (h.claims hs).2.trans_le (Nat.le_succ _)⟩⟩

theorem State.PortsServed.followed (h : s.PortsServed t) (h' : t.PortsKept u) : s.PortsServed u := by
  refine ⟨h.events.trans h'.events, h'.line ∘ h.line, h'.requests.trans h.requests, fun hs => ?_⟩
  obtain ⟨ht, htaken⟩ := h.claims hs
  obtain ⟨hu, hsame⟩ := h'.claims ht
  exact ⟨hu, hsame.trans_le htaken⟩

theorem State.PortsKept.served (h : s.PortsKept t) (h' : t.PortsServed u) : s.PortsServed u := by
  refine ⟨h.events.trans h'.events, h'.line ∘ h.line, h'.requests.trans h.requests, fun hs => ?_⟩
  obtain ⟨ht, hsame⟩ := h.claims hs
  obtain ⟨hu, htaken⟩ := h'.claims ht
  exact ⟨hu, hsame ▸ htaken⟩

/-- RTU and SLK alone have changed, and the requests wait as before. -/
theorem State.PortsServed.of_claims (hmgp : t.mgp = s.mgp) (hrequests : t.rtu.requests = s.rtu.requests)
    (hclaims : s.ClaimsReserved → t.ClaimsReserved ∧ t.rtu.taken ≤ s.rtu.taken + 1) : s.PortsServed t := by
  refine ⟨hmgp ▸ .refl _, ?_, hrequests, hclaims⟩
  rw [State.LineFollows, State.LineFollows, hmgp]
  exact id

end Served

section Requests

variable {s : State} {tag : Byte} {first count : Nat}

theorem State.answer_served (a : Answer) (s : State) : s.PortsServed (s.answer a) := by
  refine .of_claims rfl rfl fun ⟨hreserved, hfew, honce⟩ => ⟨⟨hreserved, hfew, honce⟩, ?_⟩
  show (s.rtu.answers ++ [a]).length + s.rtu.reservations ≤ s.rtu.answers.length + s.rtu.reservations + 1
  rw [List.length_append, List.length_singleton]
  omega

theorem State.contribute_ports (first count : Nat) (s : State) : s.PortsKept (s.contribute first count) := .of_same rfl rfl rfl

theorem State.takeQuery_served (tag : Byte) (first count : Nat) (s : State) : s.PortsServed (s.takeQuery tag first count) := by
  unfold State.takeQuery
  split
  · exact s.answer_served _
  · exact (s.answer_served _).followed (State.contribute_ports _ _ _)

/-- A claim that passes the checks has a tag of its own, and finds a place on the wait list if it has to wait (R93). -/
theorem State.claim_of_no_problem (h : s.claimProblem tag first count = none) :
    tag ∉ claimTags (s.slk.held ++ s.slk.waiting) ∧
      (¬MayBeGranted s.slk.held s.slk.waiting { owner := .claim tag, first := first, count := count } →
        (claimTags s.slk.waiting).length < 28) := by
  unfold State.claimProblem at h
  split_ifs at h with _ _ _ htag hroom
  refine ⟨fun hmem => htag ((Slk.tagInUse_iff _ _).2 (mem_claimTags.1 hmem)), fun hbusy => ?_⟩
  rw [length_claimTags, ← Slk.waitingClaims_eq]
  rw [Bool.eq_false_iff.2 (mt (grantable_iff _ _ _).1 hbusy)] at hroom
  exact Nat.not_le.1 (mt decide_eq_true hroom)

/-- A claim's entry joins the claims that hold or wait, and no other has its tag. -/
theorem nodup_claimTags_insert {held waiting entries : List LockEntry}
    (hentries : entries.Perm ({ owner := .claim tag, first := first, count := count } :: (held ++ waiting)))
    (htag : tag ∉ claimTags (held ++ waiting))
    (honce : (claimTags (held ++ waiting)).Nodup) : (claimTags entries).Nodup :=
  (claimTags_perm hentries).nodup_iff.2 (List.nodup_cons.2 ⟨htag, honce⟩)

theorem State.takeClaim_served (tag : Byte) (first count : Nat) (s : State) : s.PortsServed (s.takeClaim tag first count) := by
  cases hproblem : s.claimProblem tag first count with
  | some status =>
    rw [State.takeClaim_of_problem hproblem]
    exact s.answer_served _
  | none =>
    obtain ⟨htag, hroom⟩ := State.claim_of_no_problem hproblem
    by_cases hfree : MayBeGranted s.slk.held s.slk.waiting { owner := .claim tag, first := first, count := count }
    · rw [State.takeClaim_of_free hproblem hfree]
      refine State.PortsServed.followed ?_ (State.contribute_ports _ _ _)
      refine .of_claims rfl rfl ?_
      intro ⟨hreserved, hfew, honce⟩
      obtain ⟨-, htaken⟩ := (s.answer_served (s.grantedAnswer tag first count)).claims ⟨hreserved, hfew, honce⟩
      refine ⟨⟨hreserved, hfew, nodup_claimTags_insert (first := first) (count := count) ?_ htag honce⟩, htaken⟩
      exact (List.perm_append_singleton _ _).append_right _
    · rw [State.takeClaim_of_busy hproblem hfree]
      refine State.PortsServed.followed ?_ (State.contribute_ports _ _ _)
      refine .of_claims rfl rfl ?_
      intro ⟨hreserved, hfew, honce⟩
      have hwaiting := hroom hfree
      refine ⟨⟨?_, ?_, nodup_claimTags_insert (first := first) (count := count) ?_ htag honce⟩, ?_⟩
      · show s.rtu.reservations + 1 = (claimTags (s.slk.waiting ++ [_])).length
        rw [claimTags_append, claimTags_claim, List.length_append, List.length_singleton, hreserved]
      · show s.rtu.reservations + 1 ≤ 28
        omega
      · show (s.slk.held ++ (s.slk.waiting ++ [_])).Perm _
        rw [← List.append_assoc]
        exact List.perm_append_singleton _ _
      · exact Nat.le_refl _

/-- The answer to a claim that is withdrawn takes the place of its reservation (R99). -/
theorem State.withdraw_ports {e : LockEntry} (h : s.slk.waitingClaim tag = some e) : s.PortsKept (s.withdraw tag) := by
  rw [State.withdraw]
  refine State.PortsKept.trans ?_ (State.scanLocks_ports _)
  refine ⟨.refl _, id, rfl, ?_⟩
  intro ⟨hreserved, hfew, honce⟩
  have hmem : tag ∈ claimTags s.slk.waiting :=
    mem_claimTags.2 ⟨e, List.mem_of_find?_eq_some h, by simpa using List.find?_some h⟩
  rw [claimTags_append] at honce
  have hleft : ((claimTags s.slk.waiting).filter (· != tag)).length = s.rtu.reservations - 1 := by
    rw [← (honce.of_append_right).erase_eq_filter, List.length_erase_of_mem hmem, hreserved]
  have hsome : 0 < s.rtu.reservations := hreserved ▸ List.length_pos_of_mem hmem
  refine ⟨⟨?_, ?_, ?_⟩, ?_⟩
  · show s.rtu.reservations - 1 = (claimTags (s.slk.waiting.filter fun e => e.owner != .claim tag)).length
    rw [claimTags_drop, hleft]
  · exact (Nat.sub_le _ _).trans hfew
  · show (claimTags (s.slk.held ++ s.slk.waiting.filter fun e => e.owner != .claim tag)).Nodup
    rw [claimTags_append]
    exact honce.sublist ((claimTags_sublist List.filter_sublist).append_left _)
  · show (s.rtu.answers ++ [_]).length + (s.rtu.reservations - 1) = s.rtu.answers.length + s.rtu.reservations
    rw [List.length_append, List.length_singleton]
    omega

theorem State.releaseHeld_served (tag : Byte) (e : LockEntry) (listed : List Nat) (s : State) :
    s.PortsServed (s.releaseHeld tag e listed) := by
  obtain ⟨t, number, hall⟩ : ∃ t number, State.retireAll (e.overwritten listed) s = (t, number) := ⟨_, _, rfl⟩
  have retired := State.retireAll_ports (e.overwritten listed) s
  rw [hall] at retired
  have answered := (retired.trans (State.dropHeld_ports (.claim tag) t)).served (State.answer_served (releasedAnswer tag number) _)
  have scanned := answered.followed (State.scanLocks_ports _)
  rw [State.releaseHeld_of_retired hall]
  split
  · exact scanned
  · exact scanned.followed (State.afterRetirement_ports _)

theorem State.takeRelease_served (tag : Byte) (listed : List Nat) (s : State) : s.PortsServed (s.takeRelease tag listed) := by
  unfold State.takeRelease
  split
  · exact s.answer_served _
  · split
    · exact s.answer_served _
    · split
      · exact s.releaseHeld_served _ _ _
      · split
        · rename_i h
          exact (State.withdraw_ports h).serves
        · exact s.answer_served _

theorem State.takeRequest_served (r : RouteRequest) (s : State) : s.PortsServed (s.takeRequest r) := by
  unfold State.takeRequest
  split
  · exact s.takeQuery_served _ _ _
  · split
    · exact s.takeClaim_served _ _ _
    · split
      · exact s.takeRelease_served _ _
      · rw [State.takeUnknownKind]
        refine State.PortsKept.served ?_ (State.answer_served _ _)
        exact .of_same rfl rfl rfl

end Requests

/-- RTU takes requests until none waits or no answer entry is left. -/
theorem State.takeRequests_ports (requests : List RouteRequest) {s : State} (h : s.rtu.requests = requests) :
    EventsOnly s.mgp s.takeRequests.mgp ∧ (s.LineFollows → s.takeRequests.LineFollows) ∧
      (requests.length ≤ 32 → s.ClaimsReserved → s.rtu.taken ≤ 64 → s.takeRequests.RouteRoom) := by
  induction requests generalizing s with
  | nil =>
    rw [State.takeRequests_of_nil h]
    exact ⟨.refl _, id, fun _ hclaims htaken => s.routeRoom_iff.2 ⟨hclaims, by rw [h]; exact Nat.zero_le _, htaken, .inl h⟩⟩
  | cons r rest ih =>
    rcases Nat.lt_or_ge s.rtu.taken 64 with hroom | hfull
    · rw [State.takeRequests_of_cons h hroom]
      have served := ({ s with rtu := { s.rtu with requests := rest } } : State).takeRequest_served r
      obtain ⟨hevents, hline, hfits⟩ := ih served.requests
      refine ⟨served.events.trans hevents, hline ∘ served.line, fun hlength ⟨hreserved, hfew, honce⟩ _ => ?_⟩
      obtain ⟨hclaims, htaken⟩ := served.claims ⟨hreserved, hfew, honce⟩
      exact hfits (Nat.le_of_succ_le hlength) hclaims (htaken.trans hroom)
    · rw [State.takeRequests_of_no_room hfull]
      exact ⟨.refl _, id, fun hlength hclaims htaken =>
        s.routeRoom_iff.2 ⟨hclaims, h ▸ hlength, htaken, .inr (Nat.le_antisymm htaken hfull)⟩⟩

theorem State.requestArrives_hold (r : RouteRequest) (s : State) : s.PortsHold (s.requestArrives r) := by
  rw [State.requestArrives]
  rcases Nat.lt_or_ge s.rtu.requests.length 32 with hroom | hfull
  · rw [State.queueRequest_of_room (s := s.beginEvent) hroom]
    obtain ⟨hevents, hline, hfits⟩ := State.takeRequests_ports _
      (s := { s.beginEvent with rtu := { s.rtu with requests := s.rtu.requests ++ [r] } }) rfl
    refine ⟨hline, fun hs => hs.of_events hevents, fun hs => ?_⟩
    obtain ⟨⟨hreserved, hfew, honce⟩, -, htaken, -⟩ := s.routeRoom_iff.1 hs
    refine hfits ?_ ⟨hreserved, hfew, honce⟩ htaken
    rw [List.length_append, List.length_singleton]
    exact hroom
  · rw [State.queueRequest_of_full (s := s.beginEvent) hfull]
    obtain ⟨hevents, hline, hfits⟩ := State.takeRequests_ports _ (s := s.beginEvent.noting (Event.bit .routeOverrun)) rfl
    have noted : EventsOnly s.mgp (s.beginEvent.noting (Event.bit .routeOverrun)).mgp := Mgp.setEvent_only _ _
    refine ⟨fun _ => hline rfl, fun hs => hs.of_events (noted.trans hevents), fun hs => ?_⟩
    obtain ⟨⟨hreserved, hfew, honce⟩, hlength, htaken, -⟩ := s.routeRoom_iff.1 hs
    exact hfits hlength ⟨hreserved, hfew, honce⟩ htaken

theorem State.readAnswer_hold (s : State) : s.PortsHold s.readAnswer := by
  unfold State.readAnswer
  split
  · exact (State.PortsKept.of_same (s := s) (t := s.emit (.answer emptyAnswer)) rfl rfl rfl).hold
  · rename_i a rest h
    obtain ⟨hevents, hline, hfits⟩ := State.takeRequests_ports s.rtu.requests
      (s := (s.updRtu fun u => { u with answers := rest }).emit (.answer a.bytes)) rfl
    refine ⟨hline, fun hs => hs.of_events hevents, fun hs => ?_⟩
    obtain ⟨⟨hreserved, hfew, honce⟩, hlength, htaken, -⟩ := s.routeRoom_iff.1 hs
    refine hfits hlength ⟨hreserved, hfew, honce⟩ ?_
    show rest.length + s.rtu.reservations ≤ 64
    rw [Rtu.taken, h, List.length_cons] at htaken
    omega

/-! ## Time, and the step -/

theorem State.runTimeEvent_ports (e : TimeEvent) (s : State) : s.PortsKept (s.runTimeEvent e) := by
  cases e with
  | timeout tag =>
    simp only [State.runTimeEvent]
    split
    · exact .refl s
    · exact s.timeOut_ports _ tag
  | quarantineEnd tag => exact s.endQuarantine_ports tag
  | pacing x => exact ((s.setExpiry_only x none).trans (State.issueDecision_only x _)).ports

theorem State.takeTimeEvent_ports (e : TimeEvent) (s : State) : s.PortsKept (s.takeTimeEvent e) := by
  unfold State.takeTimeEvent
  split
  · exact .of_same rfl rfl rfl
  · exact (State.runTimeEvent_ports e _).behind rfl rfl rfl

theorem State.reset_routeRoom : State.reset.RouteRoom :=
  ⟨Nat.zero_le _, rfl, Nat.zero_le _, Nat.zero_le _, .inl rfl, List.nodup_nil⟩

theorem State.reset_hostQueuesFit : State.reset.HostQueuesFit := ⟨Nat.zero_le _, Nat.zero_le _, .inl rfl⟩

theorem State.reset_lineFollows : State.reset.LineFollows := rfl

theorem State.Occurs.hold {s t : State} (h : s.Occurs t) : s.PortsHold t := by
  have begun : s.PortsKept s.beginEvent := .of_same rfl rfl rfl
  cases h with
  | reset => exact ⟨fun _ => State.reset_lineFollows, fun _ => State.reset_hostQueuesFit, fun _ => State.reset_routeRoom⟩
  | nothing => exact begun.hold
  | tick => exact ⟨id, id, id⟩
  | commandArrives m => exact s.commandArrives_hold m
  | readResponse =>
    obtain ⟨line, host, route⟩ := s.beginEvent.readResponse_hold
    exact ⟨line, host, route⟩
  | requestArrives r => exact s.requestArrives_hold r
  | readAnswer =>
    obtain ⟨line, host, route⟩ := s.beginEvent.readAnswer_hold
    exact ⟨line, host, route⟩
  | takeCompletion tag status mask data => exact (begun.trans (State.takeCompletion_ports tag status mask data _)).hold
  | takeBlock n => exact (begun.trans (State.takeBlock_ports n _)).hold
  | takeTimeEvent e => exact (s.takeTimeEvent_ports e).hold

theorem step_hold {s t : State} (h : step s = .next t) : s.PortsHold t := by
  obtain ⟨k, hk⟩ := step_occurs h
  obtain ⟨line, host, route⟩ := hk.hold
  exact ⟨line, host, route⟩

/-- Settles O56: whatever occurs at a step leaves both ports their room. -/
theorem portQueuesKeepCapacity : Obligations.PortQueuesKeepCapacity := fun _ _ h => ⟨(step_hold h).host, (step_hold h).route⟩

/-- RESET_ENGINE leaves its own event alone in the status set, and the enable set as it was (R42, R202). -/
theorem takeResetEngine_line (s : State) :
    (takeResetEngine s).1.mgp.line = ((Event.bit .engineReset &&& s.mgp.enables) != 0) := by
  have henables : s.abandonAll.zeroTimeouts.forgetSession.mgp.enables = s.mgp.enables := by
    show s.abandonAll.mgp.enables = s.mgp.enables
    rw [s.abandonAll_abandoned.only]
  rw [takeResetEngine, ← henables]
  rfl

/-- Settles O55: the line follows the sets at every step, and a RESET_ENGINE leaves the one event there can be a line for. -/
theorem eventLineFollowsSets : Obligations.EventLineFollowsSets := by
  refine ⟨rfl, fun s t hs h => (step_hold h).line hs, fun tag s hs => ?_⟩
  obtain ⟨htaken, -⟩ := exec_of_runCommand (c := .resetEngine) hs trivial tag rfl
  refine ⟨_, htaken, ?_⟩
  show (takeResetEngine s.beginEvent).1.mgp.line = true ↔ _
  rw [takeResetEngine_line, BitVec.and_comm, bne_iff_ne]
  rfl

end Sys2Proof.Machine
end

section
/-! A command refused: outside its states, or by a check of its own (O11). -/

namespace Sys2Proof.Machine

/-! ## Outside the states of Table 10-2 -/

theorem SessionState.canSetCheck_iff (st : SessionState) (setting : Nat) :
    st.canSetCheck = true ↔ st ∈ acceptedIn (.setCheck setting) := by
  show st.canSetCheck = true ↔ st ∈ [SessionState.absent, .ready, .paused, .complete]
  cases st <;> decide

/-- Table 10-2 accepts in every state but ABSENT what it accepts in the open states, FAILED and BROKEN. -/
theorem SessionState.ne_absent_iff (st : SessionState) :
    st ≠ .absent ↔ st ∈ acceptedIn.openStates ++ [SessionState.failed, .broken] := by
  cases st <;> decide

theorem SessionState.accepted_anywhere (st : SessionState) :
    st ∈ SessionState.absent :: acceptedIn.openStates ++ [SessionState.failed, .broken] := by
  cases st <;> decide

section Outside

variable {s : State} {c : HostCommand}

theorem takePromote_of_closed (h : ¬s.ses.state.isOpen = true) (n : Nat) : takePromote n s = (s, .refusedState) :=
  (reorder_of_problem (by rw [State.reorderProblem, Bool.eq_false_iff.2 h]; rfl)).1

theorem takeDemote_of_closed (h : ¬s.ses.state.isOpen = true) (n : Nat) : takeDemote n s = (s, .refusedState) :=
  (reorder_of_problem (by rw [State.reorderProblem, Bool.eq_false_iff.2 h]; rfl)).2

theorem takeMemberDown_of_closed (h : ¬s.ses.state.isOpen = true) (x : Nat) : takeMemberDown x s = (s, .refusedState) := by
  rw [takeMemberDown, Bool.eq_false_iff.2 h]
  rfl

theorem takeForgive_of_closed (h : ¬s.ses.state.isOpen = true) (stripe : Nat) : takeForgive stripe s = (s, .refusedState) := by
  rw [takeForgive, Bool.eq_false_iff.2 h]
  rfl

/-- Outside the states that Table 10-2 names a command is refused, and leaves the state as it is. -/
theorem runCommand_of_not_accepted (h : s.ses.state ∉ acceptedIn c) : runCommand c s = (s, refusalOf c) := by
  have one {st : SessionState} (h : s.ses.state ∉ [st]) : s.ses.state ≠ st := mt List.mem_singleton.2 h
  have two {st st' : SessionState} (h : s.ses.state ∉ [st, st']) : ¬(s.ses.state = st ∨ s.ses.state = st') := by simpa using h
  have closed (h : s.ses.state ∉ acceptedIn.openStates) : ¬s.ses.state.isOpen = true := mt (SessionState.isOpen_iff _).1 h
  have absent (h : s.ses.state ∉ acceptedIn.openStates ++ [SessionState.failed, .broken]) : s.ses.state = .absent :=
    not_not.1 (mt (SessionState.ne_absent_iff _).1 h)
  cases c with
  | setGeometry n l t rs k => exact if_pos (one h)
  | setSegments x f elements => exact if_pos (one h)
  | openSession f b lanes fill start aq kq skipQual => exact if_pos (one h)
  | start => exact if_neg (one h)
  | pause => exact if_neg (two h)
  | resume => exact if_neg (one h)
  | step => exact if_neg (two h)
  | abort => exact if_neg (closed h)
  | closeSession => exact if_neg (mt (SessionState.canClose_iff _).1 h)
  | promote region => exact takePromote_of_closed (closed h) region
  | demote region => exact takeDemote_of_closed (closed h) region
  | memberDown x => exact takeMemberDown_of_closed (closed h) x
  | setCheck setting =>
    rw [runCommand, takeSetCheck, Bool.eq_false_iff.2 (mt (SessionState.canSetCheck_iff _ setting).1 h)]
    rfl
  | getRegion region => exact if_pos (absent h)
  | listRecords first maxCount => exact if_pos (absent h)
  | forgive stripe => exact takeForgive_of_closed (closed h) stripe
  | setPace | setTimeout | setHeat | setLanes | setEventEnables | ackEvents | getStatus | resetEngine =>
    exact absurd s.ses.state.accepted_anywhere h

end Outside

/-- The parameters of a command whose fields fit go into one message. -/
theorem HostCommand.length_params_le {c : HostCommand} (h : c.fits) : c.params.length ≤ 255 := by
  cases c with
  | setSegments position first elements =>
    obtain ⟨-, -, hcount⟩ := h
    simp only [HostCommand.params, List.length_append, length_leBytes, length_elements]
    omega
  | _ => simp [HostCommand.params]

/-! ## What a command answers -/

/-- What R194 and the governing rule of a command make of it: it is done, it is outside its states, a check refuses it, or its
region is not STALE. Only a command that is done changes the state. -/
inductive CommandDecided (c : HostCommand) (s : State) : State × Reply → Prop
  | done (t : State) (payload : List Byte) : CommandDecided c s (t, .done payload)
  | outside : CommandDecided c s (s, .refusedState)
  | refused (code : ResultCode) (hdone : code ≠ .done) (hstate : code ≠ .refusedState) : CommandDecided c s (s, .refuse code)
  | notStale (n : Nat) (r : Region) (hc : c = .promote n ∨ c = .demote n) (hr : s.rgt.regions[n]? = some r)
      (hstate : r.state ≠ .stale) : CommandDecided c s (s, .notStale)

section Decided

variable {c : HostCommand} {s : State}

theorem CommandDecided.range : CommandDecided c s (s, .refuse .refusedRange) := .refused _ (by decide) (by decide)

theorem CommandDecided.busy : CommandDecided c s (s, .refuse .refusedBusy) := .refused _ (by decide) (by decide)

theorem CommandDecided.incomplete : CommandDecided c s (s, .refuse .incomplete) := .refused _ (by decide) (by decide)

theorem CommandDecided.overlap : CommandDecided c s (s, .refuse .overlap) := .refused _ (by decide) (by decide)

/-- A command that one condition decides. -/
theorem CommandDecided.accepted_or {p : Prop} [Decidable p] (t : State) :
    CommandDecided c s (if p then accepted t else (s, .refusedState)) := by
  split
  · exact .done t []
  · exact .outside

theorem takeSetGeometry_decided (n l t rs k : Nat) : CommandDecided c s (takeSetGeometry n l t rs k s) := by
  unfold takeSetGeometry
  dsimp only
  split
  · exact .outside
  · split
    · exact .done _ _
    · exact .range

theorem takeSetSegments_decided (x f : Nat) (elements : List SegmentElement) :
    CommandDecided c s (takeSetSegments x f elements s) := by
  unfold takeSetSegments
  split
  · exact .outside
  · split
    · exact .incomplete
    · split
      · exact .range
      · split
        · exact .range
        · split
          · exact .range
          · dsimp only
            split
            · exact .overlap
            · exact .done _ _

/-- GEO answers OPEN_SESSION with one of three codes (R17). -/
theorem Geo.sessionProblem_codes {g : Geo} {p : Profile} {f aq kq : Nat} {skip : Bool} {code : ResultCode}
    (h : g.sessionProblem p f aq kq skip = some code) : code = .incomplete ∨ code = .refusedRange ∨ code = .overlap := by
  unfold Geo.sessionProblem Geo.areaProblem at h
  split_ifs at h
  · exact .inl (Option.some.inj h).symm
  · exact .inr (.inl (Option.some.inj h).symm)
  · exact .inr (.inl (Option.some.inj h).symm)
  · exact .inr (.inr (Option.some.inj h).symm)

theorem takeOpenSession_decided (f b lanes fill start aq kq skipQual : Nat) :
    CommandDecided c s (takeOpenSession f b lanes fill start aq kq skipQual s) := by
  unfold takeOpenSession
  split
  · exact .outside
  · split
    · exact .incomplete
    · exact .range
    · split
      · exact .range
      · dsimp only
        split
        · rename_i code hproblem
          rcases Geo.sessionProblem_codes hproblem with rfl | rfl | rfl
          · exact .incomplete
          · exact .range
          · exact .overlap
        · split
          · exact .done _ _
          · exact .done _ _

/-- The three checks of R48: outside the session's states, no such region, not STALE. -/
theorem State.reorderProblem_cases {n : Nat} {reply : Reply} (h : s.reorderProblem n = some reply) :
    reply = .refusedState ∨ reply = .refuse .refusedRange ∨
      (reply = .notStale ∧ ∃ r, s.rgt.regions[n]? = some r ∧ r.state ≠ .stale) := by
  unfold State.reorderProblem at h
  split_ifs at h with hclosed hrange hstale
  · exact .inl (Option.some.inj h).symm
  · exact .inr (.inl (Option.some.inj h).symm)
  · have hr := List.getElem?_eq_getElem (Nat.not_le.1 hrange)
    refine .inr (.inr ⟨(Option.some.inj h).symm, _, hr, fun hst => ?_⟩)
    rw [(Rgt.isStale_of_region hr).2 hst] at hstale
    exact Bool.false_ne_true hstale

theorem CommandDecided.of_reorder {n : Nat} {reply : Reply} (hc : c = .promote n ∨ c = .demote n)
    (h : s.reorderProblem n = some reply) : CommandDecided c s (s, reply) := by
  rcases State.reorderProblem_cases h with rfl | rfl | ⟨rfl, r, hr, hstate⟩
  · exact .outside
  · exact .range
  · exact .notStale n r hc hr hstate

theorem takePromote_decided (n : Nat) : CommandDecided (.promote n) s (takePromote n s) := by
  cases h : s.reorderProblem n with
  | none =>
    rw [takePromote_of_stale h]
    exact .done _ _
  | some reply =>
    rw [(reorder_of_problem h).1]
    exact .of_reorder (.inl rfl) h

theorem takeDemote_decided (n : Nat) : CommandDecided (.demote n) s (takeDemote n s) := by
  cases h : s.reorderProblem n with
  | none =>
    rw [takeDemote_of_stale h]
    exact .done _ _
  | some reply =>
    rw [(reorder_of_problem h).2]
    exact .of_reorder (.inr rfl) h

theorem takeMemberDown_decided (x : Nat) : CommandDecided c s (takeMemberDown x s) := by
  unfold takeMemberDown
  split
  · exact .outside
  · split
    · exact .range
    · exact .done _ _

theorem takeSetCheck_decided (setting : Nat) : CommandDecided c s (takeSetCheck setting s) := by
  unfold takeSetCheck
  split
  · exact .busy
  · split
    · exact .range
    · exact .done _ _

theorem takeGetRegion_decided (region : Nat) : CommandDecided c s (takeGetRegion region s) := by
  unfold takeGetRegion
  split
  · exact .outside
  · split
    · exact .range
    · exact .done _ _

theorem takeListRecords_decided (first maxCount : Nat) : CommandDecided c s (takeListRecords first maxCount s) := by
  unfold takeListRecords
  split
  · exact .outside
  · split
    · exact .range
    · exact .done _ _

theorem takeForgive_decided (stripe : Nat) : CommandDecided c s (takeForgive stripe s) := by
  unfold takeForgive
  split
  · exact .outside
  · split
    · exact .range
    · split
      · exact .range
      · split
        · exact .busy
        · exact .done _ _

/-- Every command of Table 10-2. -/
theorem runCommand_decided (c : HostCommand) (s : State) : CommandDecided c s (runCommand c s) := by
  cases c with
  | setGeometry n l t rs k => exact takeSetGeometry_decided n l t rs k
  | setSegments position first elements => exact takeSetSegments_decided position first elements
  | openSession f b lanes fill startRegion aq kq skipQual => exact takeOpenSession_decided f b lanes fill startRegion aq kq skipQual
  | start => exact .accepted_or _
  | pause => exact .accepted_or _
  | resume => exact .accepted_or _
  | step => exact .accepted_or _
  | abort => exact .accepted_or _
  | closeSession => exact .accepted_or _
  | promote region => exact takePromote_decided region
  | demote region => exact takeDemote_decided region
  | memberDown position => exact takeMemberDown_decided position
  | setPace | setTimeout | setHeat | setLanes | setEventEnables | ackEvents | getStatus | resetEngine => exact .done _ _
  | setCheck setting => exact takeSetCheck_decided setting
  | getRegion region => exact takeGetRegion_decided region
  | listRecords first maxCount => exact takeListRecords_decided first maxCount
  | forgive stripe => exact takeForgive_decided stripe

end Decided

/-- Settles O11: a command outside its states is refused unread, and every refusal leaves the state as it is. -/
theorem refusalsChangeNothing : Obligations.RefusalsChangeNothing := by
  refine ⟨fun tag c s hfits hs hstate => ?_, fun c s => ?_⟩
  · rw [exec_commandArrival tag c.opcode (HostCommand.length_params_le hfits)]
    exact becomes_of_runCommand hs hfits tag (runCommand_of_not_accepted (s := s.beginEvent) hstate)
  · generalize hresult : runCommand c s = result
    have hdecided : CommandDecided c s result := hresult ▸ runCommand_decided c s
    cases hdecided with
    | done t payload => exact ⟨fun h => absurd rfl h, fun _ => rfl, fun h => nomatch h⟩
    | outside => exact ⟨fun _ => ⟨rfl, rfl⟩, fun h => absurd rfl h, fun _ => .inl rfl⟩
    | refused code hdone hstate => exact ⟨fun _ => ⟨rfl, rfl⟩, fun _ => rfl, fun h => absurd h hstate⟩
    | notStale n r hc hr hstate => exact ⟨fun _ => ⟨rfl, rfl⟩, fun h => absurd rfl h, fun _ => .inr ⟨rfl, n, r, hc, hr, hstate⟩⟩

end Sys2Proof.Machine
end

section
/-! RESET_ENGINE (O23): what is abandoned, what is emptied, and what stays. -/

namespace Sys2Proof.Machine

/-- What RESET_ENGINE writes into the state, beside what the abandoning of all work leaves of the lanes and the buffers. -/
def State.engineReset (lanes : Vector Lane 4) (sbp : Sbp) (s : State) : State :=
  { s with
    mgp := s.mgp.onlyEvent .engineReset
    ses := Ses.absent s.ses.laneCount
    rgt := Rgt.empty s.rgt.heatThreshold
    rtu := Rtu.reset
    slk := Slk.reset
    lrl := { records := [] }
    lanes := lanes
    holdingOrder := []
    sbp := sbp
    mru := s.clearAll.zeroTimeouts.mru
    rcd := { s.rcd with contexts := Vector.replicate 4 none } }

/-- All work is abandoned, and RESET_ENGINE writes its own values into the rest (R42, R132, R133, R155). -/
theorem takeResetEngine_eq (s : State) : ∃ lanes sbp, takeResetEngine s = accepted (s.engineReset lanes sbp) ∧
    (∀ n : Fin 4, lanes[n] = s.lanes[n].abandoned) ∧ sbp.waiting = [] ∧ BuffersReturned s (s.engineReset lanes sbp) := by
  have h := s.abandonAll_abandoned
  rw [takeResetEngine]
  generalize s.abandonAll = t at h
  obtain ⟨only, hlanes, hwaiting, hreturned⟩ := h
  obtain ⟨lanes, sbp, hl, hb⟩ : ∃ lanes sbp, t.lanes = lanes ∧ t.sbp = sbp := ⟨_, _, rfl, rfl⟩
  rw [hl, hb] at only
  subst only
  exact ⟨lanes, sbp, rfl, hlanes, hwaiting, hreturned⟩

/-- Each position is cleared but for its history, and counts no timeouts (R43, R155). -/
theorem State.engineReset_pos (lanes : Vector Lane 4) (sbp : Sbp) (s : State) (x : Nat) :
    (s.engineReset lanes sbp).mru.pos x = { s.clearAll.mru.pos x with timeouts := 0 } := s.clearAll.zeroTimeouts_pos x

/-- Settles O23: the fields that RESET_ENGINE writes, behind the abandoning of all work. -/
theorem resetEngineResult : Obligations.ResetEngineResult := by
  intro tag s hs
  obtain ⟨lanes, sbp, hrun, hlanes, hwaiting, hreturned⟩ := takeResetEngine_eq s.beginEvent
  obtain ⟨htaken, hresponded⟩ := exec_of_runCommand (c := .resetEngine) hs trivial tag hrun
  refine ⟨_, htaken, hresponded, ⟨rfl, rfl, rfl⟩, rfl, hlanes, rfl, hwaiting, hreturned, ⟨rfl, rfl, rfl, rfl, rfl, rfl⟩, rfl, rfl,
    rfl, ⟨rfl, rfl, rfl⟩, fun n => ?_, rfl, rfl, rfl, rfl, fun x => ?_, rfl, rfl, rfl, rfl, s.clearAll_quarantined⟩
  · show (Vector.replicate 4 (none : Option SolveContext))[n] = none
    simp
  · have hpos := State.engineReset_pos lanes sbp s x
    rw [s.clearAll_pos] at hpos
    exact ⟨congrArg PosState.queue hpos, congrArg PosState.outstanding hpos, congrArg PosState.expiry hpos,
      (congrArg PosState.history hpos).trans rfl, congrArg PosState.timeouts hpos⟩

end Sys2Proof.Machine
end

section
/-! The event sets (O28), and the part after power-on reset (O3, O4). -/

namespace Sys2Proof.Machine

/-! ## SET_EVENT_ENABLES and ACK_EVENTS (R198, R200) -/

/-- Bits 15:11 of the parameter name no event. -/
theorem eventSetOf_toNat (events : BitVec 16) : eventSetOf events.toNat = events.setWidth 11 := BitVec.ofNat_toNat 11 events

/-- Settles O28: each command writes one of the two sets, and the line follows. -/
theorem enableAndAcknowledgeEvents : Obligations.EnableAndAcknowledgeEvents := by
  intro tag events s hs carried left
  refine ⟨becomes_of_runCommand (c := .ackEvents events.toNat) hs events.isLt tag ?_,
    becomes_of_runCommand (c := .setEventEnables events.toNat) hs events.isLt tag ?_⟩
  · rw [runCommand, takeAckEvents, eventSetOf_toNat]
    rfl
  · rw [runCommand, takeSetEventEnables, eventSetOf_toNat]
    rfl

/-! ## Power-on reset (R204) -/

theorem Geo.entry_unset (x j : Nat) : Geo.reset.entry x j = none := by
  simp only [Geo.entry, Geo.reset, Geo.unsetSegments, List.getD_eq_getElem?_getD, List.getElem?_replicate]
  split
  · simp only [Option.getD_some, List.getElem?_replicate]
    split <;> rfl
  · rfl

theorem State.reset_pos (x : Nat) : State.reset.mru.pos x = PosState.reset := by
  rw [Mru.pos, List.getD_eq_getElem?_getD]
  show ((List.replicate 16 PosState.reset)[x]?).getD PosState.reset = PosState.reset
  rw [List.getElem?_replicate]
  split <;> rfl

theorem State.reset_lane (n : Fin 4) : State.reset.lanes[n] = Lane.reset := Vector.getElem_replicate _

theorem State.reset_context (n : Fin 4) : State.reset.rcd.contexts[n] = none := Vector.getElem_replicate _

/-- Settles O3: the values of the tables, field by field. -/
theorem powerOnResetValues : Obligations.PowerOnResetValues := by
  intro s
  refine ⟨_, rfl, ⟨rfl, rfl, rfl, rfl, rfl⟩, ⟨rfl, Geo.entry_unset⟩, ⟨rfl, rfl, rfl, rfl, rfl, rfl, rfl, rfl, rfl, rfl, rfl⟩,
    ⟨rfl, rfl, rfl, rfl, rfl, rfl⟩, ⟨rfl, rfl, rfl⟩, ⟨rfl, rfl⟩, fun n => ?_, rfl, ⟨List.mem_finRange, rfl, rfl⟩, fun x => ?_,
    ⟨rfl, rfl, rfl, rfl, rfl⟩, ⟨State.reset_context, rfl⟩, rfl⟩
  · have hlane := State.reset_lane n
    dsimp only
    rw [hlane]
    exact ⟨rfl, rfl, rfl, rfl, rfl, rfl, rfl, rfl⟩
  · have hpos := State.reset_pos x
    dsimp only
    rw [hpos]
    exact ⟨rfl, rfl, rfl, rfl, rfl⟩

theorem State.reset_locksApart : State.reset.LocksApart := (State.locksApart_iff _).2 ⟨.nil, .nil _⟩

/-- Nothing waits, holds or is solved. -/
theorem State.reset_stagesFit : State.reset.StagesFit :=
  ⟨⟨List.nodup_nil, fun _ hw => absurd hw List.not_mem_nil, fun _ hw => absurd hw List.not_mem_nil⟩,
    ⟨List.nodup_nil, fun _ he => absurd he List.not_mem_nil⟩, ⟨List.nodup_nil, fun _ hn => absurd hn List.not_mem_nil⟩,
    fun n hn => absurd (State.reset_context n) hn, fun n _ => congrArg Lane.bufs (State.reset_lane n), fun hq => absurd rfl hq⟩

/-- The free pool has every buffer. -/
theorem State.reset_buffersInPlace : State.reset.BuffersInPlace := by
  refine ⟨List.pairwise_lt_finRange 128, ?_⟩
  have hlanes : ((List.finRange 4).flatMap fun n => State.reset.lanes[n].bufs) = [] :=
    List.flatMap_eq_nil_iff.2 fun n _ => congrArg Lane.bufs (State.reset_lane n)
  rw [hlanes, List.append_nil]
  show (List.finRange 128 ++ [] ++ []).Perm (List.finRange 128)
  rw [List.append_nil, List.append_nil]

/-- No buffer request waits. -/
theorem State.reset_bufferHeadWaits : State.reset.BufferHeadWaits := by
  intro r rest h
  cases h

/-- Settles O4: nothing waits, nothing is outstanding, and the settings are those of Table 7-2. -/
theorem resetMeetsInvariants : Obligations.ResetMeetsInvariants := by
  obtain ⟨hissue, htags⟩ := State.limited_iff.2 Mru.limited_reset
  exact ⟨State.reset_lineFollows, State.reset_hostQueuesFit, State.reset_routeRoom, State.reset_locksApart,
    State.reset_bufferHeadWaits, State.reset_stagesFit, State.reset_buffersInPlace, ⟨.nil, Nat.zero_le _⟩, Rgt.queueFits_empty 32,
    hissue, htags, .inl rfl, State.reset_inRange⟩

end Sys2Proof.Machine
end

section
/-! GET_STATUS (O29): the report's fields, each at its place (Table 10-7). -/

namespace Sys2Proof.Machine

/-! ## A message written field by field -/

/-- Where a field stands in a message of fields with the given widths. -/
theorem slice_flatten {fields : List (List Byte)} {widths : List Nat} (hwidths : fields.map List.length = widths) {i o w : Nat}
    {field : List Byte} (hfield : fields[i]? = some field) (ho : (widths.take i).sum = o) (hw : field.length = w) :
    (fields.flatten.drop o).take w = field := by
  have hfront : (fields.take i).flatten.length = o := by rw [List.length_flatten, ← ho, ← hwidths, List.map_take]
  obtain ⟨hi, hget⟩ := List.getElem?_eq_some_iff.1 hfield
  have hsplit : fields.flatten = (fields.take i).flatten ++ (field ++ (fields.drop (i + 1)).flatten) := by
    rw [← hget, ← List.flatten_cons, ← List.flatten_append, ← List.drop_eq_getElem_cons hi, List.take_append_drop]
  rw [hsplit, List.drop_left' hfront, List.take_left' hw]

/-! ## The report -/

theorem flatMap_allLanes {α : Type} (f : Fin 4 → List α) : allLanes.flatMap f = f 0 ++ (f 1 ++ (f 2 ++ f 3)) := by
  show f 0 ++ (f 1 ++ (f 2 ++ (f 3 ++ []))) = _
  rw [List.append_nil]

/-- The fields of the report before its position entries. -/
def State.statusFields (s : State) : List (List Byte) :=
  [leBytes 1 s.ses.state.toNat, leBytes 1 s.ses.cause.toNat, leOption 1 s.ses.failedPos, leOption 1 s.ses.faultedSurvivor,
    leOption 1 (s.reportedProgress.map (·.strip)), leOption 1 (s.reportedProgress.map (·.attempt)),
    leOption 2 s.rgt.rebuiltRegions, leOption 4 s.rgt.rebuiltStripes, leOption 2 (s.sessionCount s.lrl.records.length),
    s.lanes[(0 : Fin 4)].statusEntry, s.lanes[(1 : Fin 4)].statusEntry, s.lanes[(2 : Fin 4)].statusEntry,
    s.lanes[(3 : Fin 4)].statusEntry,
    eventBytes s.mgp.status, eventBytes s.mgp.enables, leBytes 1 s.ses.laneCount, leBytes 1 s.mru.paceLimit,
    leBytes 2 s.mru.paceWindow, leBytes 2 s.mru.timeout, leBytes 1 s.rgt.heatThreshold,
    leBytes 1 (if s.rcd.check then 1 else 0), leBytes 1 s.positionEntries]

/-- The widths of those fields. -/
def statusWidths : List Nat := [1, 1, 1, 1, 1, 1, 2, 4, 2, 2, 2, 2, 2, 2, 2, 1, 1, 2, 2, 1, 1, 1]

/-- All fields of the report. -/
def State.reportFields (s : State) : List (List Byte) := s.statusFields ++ (List.range s.positionEntries).map s.positionEntry

theorem State.statusPayload_eq (s : State) : s.statusPayload = s.reportFields.flatten := by
  rw [State.reportFields, List.flatten_append, ← List.flatMap_def]
  unfold State.statusPayload State.statusFields
  simp only [flatMap_allLanes, List.flatten_cons, List.flatten_nil, List.append_nil, List.append_assoc]

@[simp] theorem Lane.length_statusEntry (l : Lane) : l.statusEntry.length = 2 := by simp [Lane.statusEntry]

@[simp] theorem State.length_positionEntry (s : State) (x : Nat) : (s.positionEntry x).length = 2 := by simp [State.positionEntry]

@[simp] theorem length_eventBytes (e : EventSet) : (eventBytes e).length = 2 := length_leBytes _ _

theorem State.reportFields_widths (s : State) :
    s.reportFields.map List.length = statusWidths ++ List.replicate s.positionEntries 2 := by
  have hpositions : ((List.range s.positionEntries).map s.positionEntry).map List.length = List.replicate s.positionEntries 2 := by
    simp [List.map_map, Function.comp_def]
  rw [State.reportFields, List.map_append, hpositions]
  simp [State.statusFields, statusWidths]

section Report

variable (s : State)

/-- A field before the position entries stands at the sum of the widths before it. -/
theorem State.statusField {i o w : Nat} {field : List Byte} (hfield : s.statusFields[i]? = some field)
    (ho : (statusWidths.take i).sum = o) (hw : field.length = w) : (s.statusPayload.drop o).take w = field := by
  obtain ⟨hi, -⟩ := List.getElem?_eq_some_iff.1 hfield
  have hi' : i ≤ statusWidths.length := hi.le
  rw [State.statusPayload_eq]
  refine slice_flatten (i := i) s.reportFields_widths ?_ ?_ hw
  · rw [State.reportFields, List.getElem?_append_left hi, hfield]
  · rw [List.take_append_of_le_length hi', ho]

theorem State.positionEntry_at {x : Nat} (h : x < s.positionEntries) :
    (s.statusPayload.drop (35 + 2 * x)).take 2 = s.positionEntry x := by
  rw [State.statusPayload_eq]
  refine slice_flatten (i := statusWidths.length + x) s.reportFields_widths ?_ ?_ (s.length_positionEntry x)
  · show (s.statusFields ++ (List.range s.positionEntries).map s.positionEntry)[s.statusFields.length + x]? = _
    rw [List.getElem?_append_right (Nat.le_add_right _ _), Nat.add_sub_cancel_left, List.getElem?_map, List.getElem?_range h]
    rfl
  · rw [List.take_length_add_append, List.sum_append, List.take_replicate, List.sum_replicate, Nat.min_eq_left h.le, smul_eq_mul,
      Nat.mul_comm]
    rfl

theorem State.length_statusPayload : s.statusPayload.length = 35 + 2 * s.positionEntries := by
  rw [State.statusPayload_eq, List.length_flatten, State.reportFields_widths, List.sum_append, List.sum_replicate, smul_eq_mul,
    Nat.mul_comm]
  rfl

theorem State.laneEntry_at (n : Fin 4) : (s.statusPayload.drop (14 + 2 * n)).take 2 = s.lanes[n].statusEntry :=
  match n with
  | 0 => s.statusField (i := 9) rfl rfl (Lane.length_statusEntry _)
  | 1 => s.statusField (i := 10) rfl rfl (Lane.length_statusEntry _)
  | 2 => s.statusField (i := 11) rfl rfl (Lane.length_statusEntry _)
  | 3 => s.statusField (i := 12) rfl rfl (Lane.length_statusEntry _)

end Report

/-- Settles O29: the report's fields in their order, whose widths give each its place. -/
theorem statusReport : Obligations.StatusReport := by
  intro tag s hs
  refine ⟨s.statusPayload, becomes_of_runCommand (c := .getStatus) hs trivial tag rfl, ?_⟩
  have byte (v : Nat) := length_leBytes 1 v
  have half (v : Nat) := length_leBytes 2 v
  have optional (w : Nat) (v : Option Nat) := length_leOption w v
  have hcheck : leBytes 1 (if s.rcd.check then 1 else 0) = [if s.rcd.check then 1 else 0] := by cases s.rcd.check <;> rfl
  exact ⟨s.length_statusPayload, s.statusField (i := 0) rfl rfl (byte _), s.statusField (i := 1) rfl rfl (byte _),
    s.statusField (i := 2) rfl rfl (optional _ _), s.statusField (i := 3) rfl rfl (optional _ _),
    s.statusField (i := 4) rfl rfl (optional _ _), s.statusField (i := 5) rfl rfl (optional _ _),
    s.statusField (i := 6) rfl rfl (optional _ _), s.statusField (i := 7) rfl rfl (optional _ _),
    s.statusField (i := 8) rfl rfl (optional _ _), s.laneEntry_at, s.statusField (i := 13) rfl rfl (half _),
    s.statusField (i := 14) rfl rfl (half _), s.statusField (i := 15) rfl rfl (byte _), s.statusField (i := 16) rfl rfl (byte _),
    s.statusField (i := 17) rfl rfl (half _), s.statusField (i := 18) rfl rfl (half _), s.statusField (i := 19) rfl rfl (byte _),
    (s.statusField (i := 20) rfl rfl (byte _)).trans hcheck, s.statusField (i := 21) rfl rfl (byte _),
    fun x hx => s.positionEntry_at hx⟩

end Sys2Proof.Machine
end
